-- ==== Sys2Proof/Word.lean ====
section
/-!
DEFINITION. The word types of the Wauri SC9 model and nothing else: every register, field and encoded number the
spec treats as bits is one of these (00_scope, "Notation": multi-word values are little-endian, see Machine/Bits.lean).
-/
namespace Sys2Proof

/-- One byte. -/
abbrev Byte := BitVec 8
/-- A 16-bit value. -/
abbrev Half := BitVec 16
/-- A 32-bit register word (R430). -/
abbrev Word := BitVec 32
/-- A 64-bit register or a STAMP64 (R22, R430). -/
abbrev DWord := BitVec 64
/-- The bits of an IEEE 754 binary32 number, the spec's FP32. -/
abbrev F32 := BitVec 32
/-- The bits of an IEEE 754 binary16 number, the spec's FP16. -/
abbrev F16 := BitVec 16
/-- One 64-byte granule (R107). -/
abbrev Granule := BitVec 512

end Sys2Proof
end

