-- ==== Sys2Proof/Syntax/Operands.lean ====
section
/-!
DEFINITION. The operand types of the commands: what the outside world supplies with a command (who writes a register,
what a frame, a message or a sensed value holds). Plain data throughout.
-/
namespace Sys2Proof

/-- A storage string (R8). -/
inductive Str
  | A
  | B
  deriving DecidableEq, Repr

/-- Role of a management-port session (R352); `none` elsewhere. -/
inductive Role
  | auditor
  | operator
  | service
  | admin
  deriving DecidableEq, Repr

/-- An access path of R38. -/
inductive Path
  | nugen
  | mgmt
  | slot
  | uart
  | jtag
  | mbp
  | lining
  deriving DecidableEq, Repr

/-- Who makes a register write: the path of R38, the SRC index within its class (Nugen task, session number, peer
slot) and, on the management port, the session's role. -/
structure Writer where
  path : Path
  idx : BitVec 12
  role : Role
  deriving DecidableEq, Repr

/-- Time sources (R28). -/
inductive TimeSource
  | none
  | ptp
  | chain
  deriving DecidableEq, Repr

/-- A PTP message as the PHY hands it on (R29): its domain number, whether its timescale is PTP (TAI), the offset
source time less module time that the exchange it completes yields (none for a message that completes no measurement),
and the UTC offset an Announce carries. -/
structure PtpMsg where
  domain : BitVec 7
  tai : Bool
  offset : Option Int
  utcOffset : Option Int
  deriving DecidableEq, Repr

/-- What the two signature verifications of a dual-signature container answer (R60, R364, R366): the verdicts themselves
rest on keys and arithmetic outside this model and come with the command. -/
structure SigVerdict where
  rsa : Bool
  slh : Bool
  deriving DecidableEq, Repr

/-- The life-cycle states of R374. -/
inductive LifeCycle
  | fab
  | provision
  | field
  | returned
  | void
  deriving DecidableEq, Repr

/-- An event a block posts (R441, R471): the posting page, severity, code and the fields of DETAIL. A PATTERN event's 14
raw bytes are its UNIT, CAUSE, V0, V1 and V2 in order. -/
structure EventIn where
  page : BitVec 12
  sev : Fin 3
  code : BitVec 16
  unit : BitVec 8
  cause : BitVec 8
  v0 : BitVec 32
  v1 : BitVec 32
  v2 : BitVec 32
  deriving DecidableEq, Repr

/-- A module order code (R1). -/
inductive OrderCode
  | B
  | F
  deriving DecidableEq, Repr

/-- What a bank reports for a read (R112): no error, a corrected single-bit error, or an uncorrectable one. -/
inductive ReadErr
  | none
  | ce
  | ue
  deriving DecidableEq, Repr

/-- A window agent of R110, in priority order. -/
inductive WinAgent
  | strand
  | mover
  | dma (ch : Fin 4)
  | nugen
  deriving DecidableEq, Repr

/-- A window access to a granule or a part of one (R110, R111): the agent, the byte address, the bytes to write (none for a
read of `len` bytes), and what the bank reports: a read error, or a parity mismatch of the request. -/
structure WinReq where
  agent : WinAgent
  addr : Nat
  data : Option (List (BitVec 8))
  len : Nat
  err : ReadErr
  parity : Bool
  deriving DecidableEq, Repr

/-- Why the flight recorder triggers on its own (R145). -/
inductive FrCause
  | blockFault
  | airFallback
  deriving DecidableEq, Repr

/-- An MRDIMM as training finds it (R140): capacity in GiB, ranks, speed grade, and the highest rate at which it trains:
0 8,800, 1 8,000, 2 7,200 MT/s, 3 none. -/
structure Dimm where
  gib : Nat
  ranks : Nat
  grade : Nat
  rate : Fin 4
  deriving DecidableEq, Repr

/-- What the precision sense and the bricks give for the pulse period that ends at a boundary (R211, R277), FP32 codes: the
bus-voltage samples of the fine path, oldest first; bus voltage, current and power; voltage and current (positive
discharging) of string A and B; mean string-side current per active brick of A and B; output voltages and currents of VM0 to
VM3; and per brick the downslope of its sense current (0: the brick did not switch) and its mean string-side current in
10 mA. -/
structure Sense where
  fine : List Nat
  vbus : Nat
  ibus : Nat
  pbus : Nat
  vA : Nat
  vB : Nat
  iA : Nat
  iB : Nat
  phA : Nat
  phB : Nat
  vout : List Nat
  iout : List Nat
  m2 : List Nat
  mean : List Int
  deriving DecidableEq, Repr

/-- The bus and string warnings of R231 that recover by themselves. -/
inductive WarnKind
  | busOv
  | busUv
  | stringOc (s : Str)
  deriving DecidableEq, Repr

/-- A rectifier's status and telemetry over PMBus (R9, R37): whether it delivers power, whether its AC input is present, and
its output voltage and current, FP32 codes. -/
structure RectIn where
  inService : Bool
  acOk : Bool
  vout : Nat
  iout : Nat
  deriving DecidableEq, Repr

/-- An inbound Strand flit (R152, R153): its 256 bytes, whether a byte lies in an uncorrectable codeword, and the codewords
corrected in it. -/
structure FlitIn where
  bytes : List (BitVec 8)
  ue : Bool
  ce : Nat
  deriving DecidableEq, Repr

/-- What the plan's solution and the forecasts give for one endpoint (R176, R180), in 0.25 W: planned draw a, target before
any cut, spread sigma; and the class expected. -/
structure PlanEp where
  ep : Fin 128
  draw : Nat
  target : Nat
  sigma : Nat
  cls : Fin 8
  deriving DecidableEq, Repr

/-- What the estimators give the plan for a string (R264 to R271): P_lim in W, whether its energy lies between its reserve rows,
the largest sigma of z among its cells and the charge throughput since its last anchor (0.01 %, mAh), the capacity that divides it
(mAh), the cells whose models diverged, and whether a capacity has moved by more than 0.5 % since it was journalled. -/
structure StrIn where
  pLim : Nat
  inRows : Bool
  sigma : Nat
  theta : Nat
  capacity : Nat
  diverged : List (Fin 240)
  moved : Bool
  deriving DecidableEq, Repr

/-- What a plan frame's forecasts, QP solution and bus measurement give the Pattern (R173 to R178), which the spec leaves to
the Pattern's data and to measurement: whether STORE was SOLVED, the rectifier output and the storage power per interval in
W, the measured grid draw of the last plan frame and lambda in W, the storage energy above the checkpoint reserve in J, the
highest component of the draw from 4 to 20 Hz in ppm of the mask, the endpoints, and the strings A and B; and for Jarrojo
(R320, R322, R325): the largest demand of intervals 0 to 15 and the present charging in W, the storage energy below the
top-reserve rows in J, the change of the measured load over the plan frame in W with the instant it began and whether an
intent covers it, and the change that newly landed intents announce within 20 ms, with its instant. -/
structure PlanIn where
  solved : Bool
  g : List Nat
  storage : List Int
  gMeas : Nat
  lambda : Nat
  eAvail : Nat
  tonePpm : Nat
  eps : List PlanEp
  strs : List StrIn
  demand : Nat
  charging : Nat
  eTop : Nat
  loadDelta : Int
  deltaAt : Nat
  covered : Bool
  announced : Option (Int × Nat)
  deriving DecidableEq, Repr

/-- The warnings of R257 that recover by themselves. -/
inductive CellWarn
  | overvoltage
  | undervoltage
  | temperature
  | cold
  | input
  deriving DecidableEq, Repr

/-- A direction of Chain (R310). -/
inductive Dir
  | east
  | west
  deriving DecidableEq, Repr

/-- What a poll of a Chain cable shows (R311): present, a suitable application advertised, loss of signal or lock per lane,
any alarm, any warning, temperature, receive power and latched flags per lane, and the asymmetry of each lane in ps with the
module's own calibrated difference in it (R319). -/
structure CmisIn where
  present : Bool
  appOk : Bool
  los : BitVec 2
  alarm : Bool
  warn : Bool
  temp : BitVec 16
  rxPwr : List Nat
  flags : List Nat
  asym : List Int
  deriving DecidableEq, Repr

/-- A journal record as R382 heads it: TYPE, SEQ, STAMP64, SRC, FLAGS (SYNC, COPY, FROM_POCKET, LOCAL) and payload; its CRC is
computed. -/
structure JRec where
  ty : Nat
  seq : Nat
  stamp : Nat
  src : Nat
  sync : Bool
  copy : Bool
  pocket : Bool
  isLocal : Bool
  payload : List (BitVec 8)
  deriving DecidableEq, Repr

/-- A record to be journalled, before it has its SEQ: TYPE, SYNC, SRC and payload. -/
structure JNew where
  ty : Nat
  sync : Bool
  src : Nat
  payload : List (BitVec 8)
  deriving DecidableEq, Repr

/-- What the pulse die finds in the microsecond that a Clasp frame ends (R329, R334): the comparators' self-test, the core
supply, the memories' parity, and both OWNER lines as they read (true: asserted). -/
structure CheckerIn where
  selfTest : Bool
  supplyOk : Bool
  memOk : Bool
  ownRead : Bool
  peerRead : Bool
  deriving DecidableEq, Repr

/-- The two paths of a Clasp frame (R328). -/
inductive ClaspPath
  | wire
  | slot
  deriving DecidableEq, Repr

/-- What a peer says of itself over the slot link (R339). -/
structure PeerIdent where
  order : OrderCode
  serial : BitVec 64
  deriving DecidableEq, Repr

/-- Temperatures in whole degrees C (R412): the compute dies, the base die, the pulse die and the DIMMs. -/
structure TempIn where
  compute : List Int
  base : Int
  pulse : Int
  dimm : List Int
  deriving DecidableEq, Repr

/-- Why the base die resets (R415). -/
inductive BaseCause
  | mainLost
  | overTemp
  | imageActivate
  | bootRetry
  | command
  deriving DecidableEq, Repr

/-- What verification of a boot image answers (R371, R408): both signatures, and every part's digest. -/
structure ImgVerdict where
  sig : SigVerdict
  parts : Bool
  deriving DecidableEq, Repr

/-- A TLS handshake as the engines judge it (R353): version, cipher suite and group supported, the client certificate chaining
to the owner CA (or to the maker's, R378), the roles in it, and whether the connection is a doorbell one. -/
structure TlsHello where
  supported : Bool
  ownerChain : Bool
  makerChain : Bool
  roles : List Role
  doorbell : Bool
  deriving DecidableEq, Repr

/-- A message of a mailbox. -/
abbrev Message := BitVec 2048

/-- A LIMIT override (R321). -/
structure LimitRec where
  limit : BitVec 32
  effect : BitVec 64
  leaseEnd : BitVec 64
  deriving DecidableEq, Repr

/-- A boot image in the upload buffer (R369): its size, ROLLBACK, the SHA-384 of its header and of its pulse-die firmware, its
signatures, whether every part matches its digest, and whether the written device reads back right. -/
structure BootImage where
  size : Nat
  rollback : Nat
  header : BitVec 384
  pulse : BitVec 384
  sig : SigVerdict
  parts : Bool
  writeOk : Bool
  deriving DecidableEq, Repr

/-- A life-cycle token (R376): FROM, TO, MODULE_SN, NONCE, NOT_AFTER, KIND (true: consent), KEY_CLASS and the verdicts. -/
structure LcToken where
  wellFormed : Bool
  frm : BitVec 8
  toward : BitVec 8
  sn : BitVec 64
  nonce : BitVec 256
  notAfter : Nat
  consent : Bool
  keyClass : Nat
  sig : SigVerdict
  deriving DecidableEq, Repr

/-- Owner keys to enrol (R367): KEY_IDs of both public keys, the TLS CA, and the verdict of an enrolment signed with the present
owner keys. -/
structure OwnerKeys where
  wellFormed : Bool
  rsaId : BitVec 256
  slhId : BitVec 256
  signed : Option SigVerdict
  deriving DecidableEq, Repr

/-- Who sends a service command (R363): a session through a mailbox it may post to, the peer through one of its mailboxes with the
role of the session it relays, or the UART console. -/
inductive SvcOrigin
  | session (sess : Fin 64) (box : Fin 64)
  | peer (role : Role) (box : Fin 64)
  | uart
  deriving DecidableEq, Repr

/-- A service command (R363). -/
inductive SvcCmd
  | patternStage (sig : SigVerdict)
  | patternSwap (bank : Bool)
  | policyCommit (r : List (BitVec 8))
  | standingPolicy (r : List (BitVec 8))
  | limitOverride (l : LimitRec)
  | wiringLoad (p : List (BitVec 8)) (sig : SigVerdict)
  | shipEnter
  | shipExit
  | imageStage (i : BootImage)
  | imageActivate
  | attest (nonce : BitVec 256)
  | lcNonce
  | lcTransition (toward : LifeCycle) (k : List LcToken)
  | ownerEnroll (k : OwnerKeys)
  | hmkKeygen
  deriving DecidableEq, Repr

/-- What a Redfish request asks (R355): a read, an export subscription set or dropped, a write that maps onto a service command,
or a write to the standby's resources, relayed as a message through mailbox 8 to 11. -/
inductive RedfishAsk
  | get
  | subscribe (on : Bool)
  | write (tag : BitVec 32) (c : SvcCmd)
  | relay (box : Fin 4) (m : Message)
  deriving DecidableEq, Repr

/-- A Redfish request (R355); `tenant`: it names a tenant or partition (R7). -/
structure RedfishReq where
  tenant : Bool
  ask : RedfishAsk
  deriving DecidableEq, Repr

/-- Signet's engines (R365). -/
inductive SigEngine
  | rsa
  | slh
  | sha
  | trng
  deriving DecidableEq, Repr

end Sys2Proof
end

