-- ==== Sys2Proof/Syntax.lean ====
section
/-!
DEFINITION. The commands: one constructor per row of the opcode table, in the table's order. The first operand `t`, where
a command has one, is the instant of site time at which it happens (log 1); the boundary rows have none, their instants
are the frame grid's (R34).
-/
namespace Sys2Proof

/-- The commands of the block (opcode_table.json). -/
inductive Instr
  /-- PULSE_PERIOD_BOUNDARY (R35): At each 4 µs pulse-period boundary the pulse die applies accepted references and makes its shedding decisions, and each active brick begins a switching cycle. -/
  | pulsePeriodBoundary (h : Sense)
  /-- STEP_READD_SECOND (R206): At B0 + 4 µs the remaining shed bricks are started. -/
  | stepReaddSecond (t : Nat)
  /-- DEFERRED_ROTATION (R206): A Pleat rotation deferred by a step re-add takes place at B0 + 8 µs. -/
  | deferredRotation (t : Nat)
  /-- CONTROL_FRAME_BOUNDARY (R35): At each 10 µs boundary the control-frame work runs: the rings are published, the governor judges and the next body starts. -/
  | controlFrameBoundary
  /-- PLAN_FRAME_BOUNDARY (R35): At each 1 ms boundary the plan-frame work runs: plan, consensus, grants, setpoints and plan buffer. -/
  | planFrameBoundary (p : PlanIn)
  /-- EPOCH_BOUNDARY (R295): At a 250 ms boundary HVS_EOUT is latched, epoch E closes and E + 1 opens. -/
  | epochBoundary
  /-- HOLDOVER_ENTER (R20): After 10 control frames without an accepted reference, or on a base-die loss signal, the pulse die enters holdover. -/
  | holdoverEnter (t : Nat)
  /-- BASE_DIE_LOSS_SIGNAL (R20): The base die signals its own loss, and the pulse die enters holdover at once. -/
  | baseDieLossSignal (t : Nat)
  /-- HOLDOVER_EXIT (R229): After accepted references in 10 consecutive frames, the pulse die leaves holdover and hands setpoints and floors back to the compute half. -/
  | holdoverExit (t : Nat)
  /-- HOLDOVER_FLOOR (R228): After s_x has been held at its limit for 1 ms in holdover, the next tray in FLOOR_ORDER is floored. -/
  | holdoverFloor (t : Nat)
  /-- REFERENCE_HANDOFF_ARRIVE (R50): A reference record reaches the pulse die's reference buffer 48 cycles after its EGR issue; if it is late it is discarded and counted. -/
  | referenceHandoffArrive (t : Nat) (g : List (BitVec 8)) (poisoned : Bool)
  /-- PLAN_BUFFER_ARRIVE (R225): The nine granules of a PLAN op arrive into the next-plan buffer. -/
  | planBufferArrive (t : Nat) (g : List (BitVec 8))
  /-- SETPOINT_LINE_FAIL (R9): The RS-485 setpoint line fails; setpoints move to PMBus and the failure is recorded as an event. -/
  | setpointLineFail (t : Nat)
  /-- SETPOINT_LINE_RESTORE (R9): After 100 consecutive frames without error, the module returns to the setpoint line at a plan-frame boundary. -/
  | setpointLineRestore (t : Nat) (goodFrames : Nat)
  /-- RECTIFIER_ADMISSION (R10): At admission, each rectifier's hold setting is checked over PMBus; a hold below 50 ms means no setpoints and a configuration fault. -/
  | rectifierAdmission (t : Nat) (r : Fin 12) (holdMs : Nat)
  /-- RECT_AC_LOSS (R183): The rectifiers report loss of their AC input; GRID_LOSS grants apply and the checkpoint-reserve row is dropped. -/
  | rectAcLoss (t : Nat) (lost : BitVec 12)
  /-- SLOT_ID_CHANGE (R15): A change of SLOT_ID while the Lining runs does not change the slot and is recorded as a configuration event. -/
  | slotIdChange (t : Nat) (level : Bool)
  /-- PEER_ORDER_MISMATCH (R5): A peer of the other order code is found over the slot link; the module keeps its outputs disabled and records a configuration fault. -/
  | peerOrderMismatch (t : Nat) (peer : OrderCode)
  /-- PTP_MESSAGE_RX (R29): A PTP message arrives on the management port and site time is disciplined or cross-checked. -/
  | ptpMessageRx (t : Nat) (m : PtpMsg)
  /-- TIME_DISAGREE (R28): PTP and Chain disagree by more than 1 µs for 10 consecutive plan frames; TIME_DISAGREE is raised. -/
  | timeDisagree (t : Nat)
  /-- TIME_SOURCE_LOST (R31): The time source is lost; the module enters time holdover with TSTATE HOLDOVER. -/
  | timeSourceLost (t : Nat)
  /-- HOLDOVER_UNC_RAISE (R31): The stamp UNC is raised after 40 ms, 2 s and 2,000 s of time holdover. -/
  | holdoverUncRaise (t : Nat)
  /-- TIME_SOURCE_RETURN (R31): The time source returns; TSTATE becomes ACQUIRING. -/
  | timeSourceReturn (t : Nat) (src : TimeSource)
  /-- TIME_OFFSET_LOCK (R31): The offset falls below 20 ns; the locked state is set. -/
  | timeOffsetLock (t : Nat) (offset : Int)
  /-- CLOCK_STEP_APPLY (R32): The counter is stepped, while a Pattern runs only forward and by whole plan frames at a plan-frame boundary. -/
  | clockStepApply (t : Nat)
  /-- PTB_STEP_WRITE (R193): A write of PTB_STEP queues a step under R32; a backward step while a Pattern runs is rejected. -/
  | ptbStepWrite (t : Nat) (w : Writer) (v : DWord)
  /-- PTB_SLEW_WRITE (R193): A write of PTB_SLEW sets a slew, clamped to ±20,000 ppb. -/
  | ptbSlewWrite (t : Nat) (w : Writer) (v : Word)
  /-- PLL_UNLOCK (R192): The pulse-die PLL loses lock; PWM outputs are held low and the bricks and VM channels enter FAULT. -/
  | pllUnlock (t : Nat)
  /-- PLL_RELOCK (R231): After the PLL has relocked for 1 ms, the functions that faulted on the unlock return to OFF. -/
  | pllRelock (t : Nat) (heldNs : Nat)
  /-- STITCH_FRAME_END (R45): A Stitch with HDR.FRAME_END ends the body, and the tail follows. -/
  | stitchFrameEnd (t : Nat) (k : Nat)
  /-- STITCH_TRACE (R45): A Stitch with HDR.TRACE writes its index and TAG to the trace ring. -/
  | stitchTrace (t : Nat) (k : Nat) (tag : Byte)
  /-- STITCH_AWAKE (R46): HDR.AWAKE sets or gates the clock of each compute stack from the issue cycle. -/
  | stitchAwake (t : Nat) (mask : BitVec 4)
  /-- CATCHUP_BODY_START (R74): After an overrun, the next body starts 9 cycles after FRAME_END with LATE_START set, or waits for a later boundary and marks the skip. -/
  | catchupBodyStart (t : Nat)
  /-- SEQ_LOAD_GO (R61): SEQ_LOAD.GO starts the loader, which checks the staged container in order and stops at the first failed check. -/
  | seqLoadGo (t : Nat) (w : Writer) (sig : SigVerdict)
  /-- SEQ_LOAD_CHECK_ONLY (R61): SEQ_LOAD.CHECK_ONLY checks the container without writing the bank. -/
  | seqLoadCheckOnly (t : Nat) (w : Writer) (sig : SigVerdict)
  /-- LOADER_DONE (R65): The loader finishes: a passed container is written into the inactive bank in the selected variant, or rejected with a reason. -/
  | loaderDone (t : Nat)
  /-- SEQ_SWAP_GO (R66): SEQ_SWAP.GO requests a swap to the inactive bank; it is rejected if the bank holds no Pattern. -/
  | seqSwapGo (t : Nat) (w : Writer) (bank : Bool)
  /-- SWAP_TAKE_EFFECT (R66): At the first plan-frame boundary at least 20 µs after the request, a HOT swap takes effect or a COLD swap enters HOLD. -/
  | swapTakeEffect (t : Nat)
  /-- COLD_SWAP_START (R66): Once the images are written, the new Pattern starts at the next plan-frame boundary with AFTER_HOLD set. -/
  | coldSwapStart (t : Nat)
  /-- SEQ_SWAP_RELEASE (R69): SEQ_SWAP.RELEASE gives up the previous Pattern and lets the warm variant be staged. -/
  | seqSwapRelease (t : Nat) (w : Writer)
  /-- SEQ_WARM_WRITE (R69): A write of SEQ_WARM names the warm variant that the loader keeps in an empty inactive bank. -/
  | seqWarmWrite (t : Nat) (w : Writer) (v : Word)
  /-- WARM_STAGE_DONE (R69): The loader finishes staging the warm variant into the inactive bank. -/
  | warmStageDone (t : Nat)
  /-- RESIDUE_MISMATCH (R98): A MAC array reports a residue mismatch; it is failed, forced to NOP, and handoffs are withheld. -/
  | residueMismatch (t : Nat) (k : Fin 16)
  /-- VEC_FAULT (R99): A vector residue mismatch or an uncorrectable tile SRAM error fails the whole stack. -/
  | vecFault (t : Nat) (d : Fin 4) (ecc : Bool)
  /-- WARM_VARIANT_SWITCH (R68): When the required variant is warm, the switch takes effect at the next control-frame boundary with AFTER_FAIL set. -/
  | warmVariantSwitch (t : Nat)
  /-- VARIANT_COPY_DONE (R68): The loader finishes copying the variant's stream and tile images, verified against their hashes, and the stacks are woken. -/
  | variantCopyDone (t : Nat) (hashOk : Bool)
  /-- VARIANT_RESTART (R68): The new variant starts at the first control-frame boundary at least 256 cycles after the wake, with AFTER_HOLD and AFTER_FAIL set. -/
  | variantRestart (t : Nat)
  /-- SEQ_FAILED_WRITE (R72): Writing 1 to a SEQ_FAILED bit returns the unit; the variant is reselected and loaded without HOLD. -/
  | seqFailedWrite (t : Nat) (w : Writer) (v : Word)
  /-- COOLING_VARIANT_SWITCH (R70): On a change of cooling mode, the new variant takes over at a control-frame boundary once it is ready. -/
  | coolingVariantSwitch (t : Nat)
  /-- CLOCK_STRETCH (R73): A droop event stretches the whole LCLK tree for at most 256 cycles. -/
  | clockStretch (t : Nat) (cycles : Nat)
  /-- SEQ_REARM_RESTART (R79): ENABLE set during STOPPING restarts the sequencer at the first plan-frame boundary after OFF. -/
  | seqRearmRestart (t : Nat)
  /-- MBP_POST (R48): An MBP POST op writes a 256-byte message into mailbox MBX. -/
  | mbpPost (t : Nat) (slot : BitVec 16)
  /-- MBP_FETCH (R48): An MBP FETCH op copies the message, or the empty marker, into the buffer in a fixed time. -/
  | mbpFetch (t : Nat) (slot : BitVec 16)
  /-- MBP_ACK (R48): An MBP ACK op writes the acknowledge register of MBX with the buffered return code. -/
  | mbpAck (t : Nat) (slot : BitVec 16)
  /-- MAC_WLOAD (R89): WLOAD loads weight rows into a buffer, forming the stored radii b'_rad in ball mode. -/
  | macWload (t : Nat) (c : Nat) (k : Fin 16) (slot : BitVec 64)
  /-- MAC_STREAM (R83): STREAM passes activation vectors through the weights into accumulator entries, adding or replacing them. -/
  | macStream (t : Nat) (c : Nat) (k : Fin 16) (slot : BitVec 64)
  /-- MAC_DRAIN (R91): DRAIN writes accumulator entries to the quadrant, with radius r_out in ball mode. -/
  | macDrain (t : Nat) (c : Nat) (k : Fin 16) (slot : BitVec 64)
  /-- ERR_INJ_RES_FLIP (R102): An injected residue-bit flip at the next accumulator write produces a genuine mismatch report. -/
  | errInjResFlip (t : Nat) (w : Writer) (u : Fin 20) (v : Word)
  /-- ERR_INJ_ACC_FLIP (R102): An injected accumulator-bit flip at the next write of the column. -/
  | errInjAccFlip (t : Nat) (w : Writer) (u : Fin 20) (v : Word)
  /-- ERR_INJ_RAD_INF (R102): Forces the next ball result's radius to +Inf. -/
  | errInjRadInf (t : Nat) (w : Writer) (u : Fin 20) (v : Word)
  /-- VEC_ADD (R95): Vector ADD, with ball radius propagation. -/
  | vecAdd (t : Nat) (d : Fin 4) (slot : BitVec 96)
  /-- VEC_SUB (R95): Vector SUB, with ball radius propagation. -/
  | vecSub (t : Nat) (d : Fin 4) (slot : BitVec 96)
  /-- VEC_MUL (R95): Vector MUL, with ball radius propagation. -/
  | vecMul (t : Nat) (d : Fin 4) (slot : BitVec 96)
  /-- VEC_FMA (R95): Vector FMA, DST ← A × B + DST. -/
  | vecFma (t : Nat) (d : Fin 4) (slot : BitVec 96)
  /-- VEC_MAX (R95): Vector elementwise MAX. -/
  | vecMax (t : Nat) (d : Fin 4) (slot : BitVec 96)
  /-- VEC_MIN (R95): Vector elementwise MIN. -/
  | vecMin (t : Nat) (d : Fin 4) (slot : BitVec 96)
  /-- VEC_CVT (R95): Vector conversion to a target format with round-to-nearest-even. -/
  | vecCvt (t : Nat) (d : Fin 4) (slot : BitVec 96)
  /-- VEC_TAB (R96): Vector evaluation of a ROM function with its error bound. -/
  | vecTab (t : Nat) (d : Fin 4) (slot : BitVec 96)
  /-- VEC_RSUM (R95): Vector reduction sum over groups of lanes. -/
  | vecRsum (t : Nat) (d : Fin 4) (slot : BitVec 96)
  /-- VEC_RMAX (R95): Vector reduction maximum over groups of lanes. -/
  | vecRmax (t : Nat) (d : Fin 4) (slot : BitVec 96)
  /-- VEC_SCALE (R95): Vector scaling by 2^IMM. -/
  | vecScale (t : Nat) (d : Fin 4) (slot : BitVec 96)
  /-- VEC_MOVE (R95): Vector move. -/
  | vecMove (t : Nat) (d : Fin 4) (slot : BitVec 96)
  /-- VEC_PACK_MX (R87): Vector packing into an MX format with the block scale chosen. -/
  | vecPackMx (t : Nat) (d : Fin 4) (slot : BitVec 96)
  /-- VEC_ABS (R95): Vector absolute value. -/
  | vecAbs (t : Nat) (d : Fin 4) (slot : BitVec 96)
  /-- FFT_LOAD (R120): The FFT engine reads B × N points and the optional window. -/
  | fftLoad (t : Nat) (c : Nat) (slot : BitVec 48)
  /-- FFT_XFORM (R120): The FFT engine transforms the loaded batch, forward or inverse. -/
  | fftXform (t : Nat) (c : Nat) (slot : BitVec 48)
  /-- FFT_STORE (R120): The FFT engine writes the transformed points and its status. -/
  | fftStore (t : Nat) (c : Nat) (slot : BitVec 48)
  /-- QPE_LOAD (R124): The QP engine loads a problem, warm or cold, and sets INFEASIBLE on crossed bounds. -/
  | qpeLoad (t : Nat) (c : Nat) (slot : BitVec 48)
  /-- QPE_ITER (R122): The QP engine runs exactly ARG2 ADMM iterations. -/
  | qpeIter (t : Nat) (c : Nat) (slot : BitVec 48)
  /-- QPE_STORE (R122): The QP engine writes x, y and z with their residuals and SOLVED. -/
  | qpeStore (t : Nat) (c : Nat) (slot : BitVec 48)
  /-- EST_PREDICT (R125): The estimator runs the prediction step of M Kalman filters. -/
  | estPredict (t : Nat) (c : Nat) (slot : BitVec 48)
  /-- EST_UPDATE (R125): The estimator runs the gated measurement update of M filters, marking DIVERGED where it fails. -/
  | estUpdate (t : Nat) (c : Nat) (slot : BitVec 48)
  /-- MRG_MERGE (R127): The merge engine merges K sorted inputs into one stream in the order of R40. -/
  | mrgMerge (t : Nat) (c : Nat) (slot : Word)
  /-- INT_SPANS (R128): The integrator applies span OPEN, CLOSE and WEIGHT updates to its table. -/
  | intSpans (t : Nat) (c : Nat) (slot : BitVec 48)
  /-- INT_ACC (R129): The integrator credits one frame of samples exactly to the covering spans. -/
  | intAcc (t : Nat) (c : Nat) (slot : BitVec 48)
  /-- INT_READ (R128): The integrator writes and resets the span accumulators, and frees closed spans. -/
  | intRead (t : Nat) (c : Nat) (slot : BitVec 48)
  /-- INT_COEF (R128): The integrator loads the rail coefficients K_r and U_r. -/
  | intCoef (t : Nat) (c : Nat) (slot : BitVec 48)
  /-- HST_ACC (R130): The histogram engine bins elements into a set and tracks their extremes. -/
  | hstAcc (t : Nat) (c : Nat) (slot : Word)
  /-- HST_READ (R130): The histogram engine writes the bins and tail of a set, then clears it. -/
  | hstRead (t : Nat) (c : Nat) (slot : Word)
  /-- SPL_TABLE (R131): The spline engine loads a spline table. -/
  | splTable (t : Nat) (c : Nat) (slot : Word)
  /-- SPL_EVAL1 (R131): The spline engine evaluates a 1-D table, with a radius in ball mode. -/
  | splEval1 (t : Nat) (c : Nat) (slot : Word)
  /-- SPL_EVAL2 (R131): The spline engine evaluates a 2-D bicubic table. -/
  | splEval2 (t : Nat) (c : Nat) (slot : Word)
  /-- SEL_TOPK (R132): The select engine returns the k largest or smallest values. -/
  | selTopk (t : Nat) (c : Nat) (slot : Word)
  /-- SEL_QUANT (R132): The select engine returns quantile values. -/
  | selQuant (t : Nat) (c : Nat) (slot : Word)
  /-- HSH_LEAF (R133): The hash engine hashes records into Merkle leaves. -/
  | hshLeaf (t : Nat) (c : Nat) (slot : Word)
  /-- HSH_NODE (R133): The hash engine builds one Merkle level from digests. -/
  | hshNode (t : Nat) (c : Nat) (slot : Word)
  /-- DMA_COPY (R134): A 2-D copy from shared memory to shared memory. -/
  | dmaCopy (t : Nat) (c : Nat) (ch : Fin 4) (slot : BitVec 40)
  /-- DMA_GATHER (R134): A gather through the index table to contiguous output. -/
  | dmaGather (t : Nat) (c : Nat) (ch : Fin 4) (slot : BitVec 40)
  /-- DMA_SCATTER (R134): A scatter through the index table. -/
  | dmaScatter (t : Nat) (c : Nat) (ch : Fin 4) (slot : BitVec 40)
  /-- DMA_TILE_IN (R134): A copy from shared memory to tile SRAM; poison becomes NaN. -/
  | dmaTileIn (t : Nat) (c : Nat) (ch : Fin 4) (slot : BitVec 40)
  /-- DMA_TILE_OUT (R134): A copy from tile SRAM to shared memory. -/
  | dmaTileOut (t : Nat) (c : Nat) (ch : Fin 4) (slot : BitVec 40)
  /-- DMA_MR_READ (R135): Queues an asynchronous transfer from MRDIMM to group 15. -/
  | dmaMrRead (t : Nat) (c : Nat) (ch : Fin 4) (slot : BitVec 40)
  /-- DMA_MR_WRITE (R135): Queues an asynchronous transfer from group 15 to MRDIMM. -/
  | dmaMrWrite (t : Nat) (c : Nat) (ch : Fin 4) (slot : BitVec 40)
  /-- DMA_ASYNC_DONE (R135): An asynchronous transfer completes and its status granule is written in a window cycle. -/
  | dmaAsyncDone (t : Nat) (ch : Fin 4)
  /-- ING_COPY (R136): Ingress COPY moves up to Q committed flits from a ring to OUT and advances the copied index. -/
  | ingCopy (t : Nat) (c : Nat) (slot : Word)
  /-- EGR_REF (R138): Egress REF hands the reference record to the pulse die. -/
  | egrRef (t : Nat) (c : Nat) (slot : Word)
  /-- EGR_PLAN (R138): Egress PLAN writes the coarse plan into the pulse die's plan buffer. -/
  | egrPlan (t : Nat) (c : Nat) (slot : Word)
  /-- EGR_STRAND (R138): Egress STRAND queues flits to a Strand port; a message that finds its queue full is dropped whole. -/
  | egrStrand (t : Nat) (c : Nat) (slot : Word)
  /-- EGR_CHAIN (R138): Egress CHAIN queues frames to a Chain direction. -/
  | egrChain (t : Nat) (c : Nat) (slot : Word)
  /-- EGR_SLOT (R138): Egress SLOT queues granules to the peer over the slot link. -/
  | egrSlot (t : Nat) (c : Nat) (slot : Word)
  /-- WINDOW_ACCESS (R111): A window agent accesses shared memory in a window cycle; while a Pattern runs, an access outside group 15 is refused. -/
  | windowAccess (t : Nat) (q : WinReq)
  /-- SHM_SCRUB_READ (R113): In each idle cycle, a bank reads its next scrub line. -/
  | shmScrubRead (t : Nat) (bank : Fin 512) (err : ReadErr)
  /-- SHM_SCRUB_WRITEBACK (R113): A corrected scrub line is written back at the bank's next idle cycle, unless an access has written it in between. -/
  | shmScrubWriteback (t : Nat) (bank : Fin 512)
  /-- FR_MOVER_PLACE (R143): The flight-recorder mover places a sample in its frame slot by its source stamp. -/
  | frMoverPlace (t : Nat) (n : Fin 128) (rail : Fin 48) (stamp : Nat) (sample : Word)
  /-- FR_SLOT_DEADLINE (R143): After frame f + 32, later samples of frame f go to the late log. -/
  | frSlotDeadline (t : Nat) (f : Nat)
  /-- FR_TRIGGER (R145): A block FAULT, a firmware trigger or AIR-FALLBACK triggers the recorder, which records FR_POST further frames. -/
  | frTrigger (t : Nat) (cause : FrCause) (page : BitVec 12)
  /-- FR_FREEZE (R145): After the post-trigger frames, the recorder freezes. -/
  | frFreeze (t : Nat)
  /-- FR_CTL_TRIGGER (R150): A write of FR_CTL.TRIGGER triggers the recorder, or only counts when it is frozen. -/
  | frCtlTrigger (t : Nat) (w : Writer)
  /-- FR_CTL_UNFREEZE (R146): FR_CTL.UNFREEZE resumes recording and releases the AIR ring. -/
  | frCtlUnfreeze (t : Nat) (w : Writer)
  /-- FR_CTL_ENABLE (R150): A write of FR_CTL.ENABLE enables or disables the recorder. -/
  | frCtlEnable (t : Nat) (w : Writer) (on : Bool)
  /-- FR_EXPORT (R147): Nugen exports recorder frames over the management port. -/
  | frExport (t : Nat) (sess : Fin 64) (f : Nat)
  /-- DDC_TRAINING (R140): The MRDIMM channels train; a population fault or a rate fallback is resolved. -/
  | ddcTraining (t : Nat) (d : List (Option Dimm))
  /-- DDC_PATROL_SCRUB (R142): The patrol scrub covers each channel once every 24 h. -/
  | ddcPatrolScrub (t : Nat) (ch : Fin 4) (ce : Nat) (ue : Option Nat)
  /-- STRAND_FEC_LOCK (R156): A port gains FEC lock and enters IDENT_WAIT, sending IDENT and TIME. -/
  | strandFecLock (t : Nat) (p : Fin 32)
  /-- STRAND_IDENT (R156): The aggregator's IDENT flit arrives and is checked against the wiring plan; the port goes to WAITING. -/
  | strandIdent (t : Nat) (p : Fin 32) (f : FlitIn)
  /-- STRAND_IDENT_RETRY (R156): Without an answer the port repeats IDENT every 10 ms. -/
  | strandIdentRetry (t : Nat) (p : Fin 32)
  /-- STRAND_IDENT_TIMEOUT (R156): After 100 ms without an answer, the port returns to TRAINING. -/
  | strandIdentTimeout (t : Nat) (p : Fin 32)
  /-- ADMISSION_SLOT (R157): At each admission slot, up to four WAITING ports, with Chain lanes first, are admitted or quarantined and sent ADMIT. -/
  | admissionSlot
  /-- STR_REIDENT (R159): STR_CTL.REIDENT returns the port to IDENT_WAIT. -/
  | strReident (t : Nat) (w : Writer) (p : Fin 32)
  /-- STR_BURST_GO (R166): STR_CTL.BURST_GO sends BURST_REQ, or refuses the capture. -/
  | strBurstGo (t : Nat) (w : Writer) (p : Fin 32)
  /-- STRAND_FEC_LOSS (R161): An admitted port loses FEC lock; it goes to DOWN and its intents are discarded. -/
  | strandFecLoss (t : Nat) (p : Fin 32)
  /-- ENDPOINT_LEASE_LAPSE (R161): Once an endpoint's lease has lapsed, the plan takes it at its lapse level. -/
  | endpointLeaseLapse (t : Nat) (n : Fin 128)
  /-- STRAND_TELEM (R162): A TELEM flit lands; if it arrives late it is marked LATE and counted. -/
  | strandTelem (t : Nat) (p : Fin 32) (f : FlitIn)
  /-- STRAND_RAILDESC (R163): A RAILDESC flit lands the descriptions of 12 rails. -/
  | strandRaildesc (t : Nat) (p : Fin 32) (f : FlitIn)
  /-- STRAND_TIME_RPT (R164): A TIME_RPT flit lands; DELAY or OFFSET and TIME_OK are updated. -/
  | strandTimeRpt (t : Nat) (p : Fin 32) (f : FlitIn)
  /-- STRAND_STATUS (R165): An endpoint STATUS flit lands; transitions to LAPSED are counted. -/
  | strandStatus (t : Nat) (p : Fin 32) (f : FlitIn)
  /-- STRAND_INTENT (R167): An INTENT flit lands in the ring. -/
  | strandIntent (t : Nat) (p : Fin 32) (f : FlitIn)
  /-- INTENT_TREAT (R168): At the first control frame after landing, an intent is discarded, rejected, cancelled, replaces another or becomes pending. -/
  | intentTreat (t : Nat)
  /-- INTENT_BAR_EXPIRE (R169): The 10 s bar on an endpoint's intents ends. -/
  | intentBarExpire (t : Nat) (n : Fin 128)
  /-- STRAND_SPAN (R171): A SPAN flit's events are applied, refused or ignored. -/
  | strandSpan (t : Nat) (p : Fin 32) (f : FlitIn)
  /-- STRAND_BURST (R166): A BURST flit is stored unchanged in its burst slot, or discarded with TRUNC set. -/
  | strandBurst (t : Nat) (p : Fin 32) (f : FlitIn)
  /-- POLICY_RECORD_EFFECT (R179): A committed policy record takes effect at the next plan-frame boundary. -/
  | policyRecordEffect (t : Nat)
  /-- POLICY_LEASE_END (R345): The policy lease passes with no successor; the standing policy applies and POLICY_LAPSED is raised. -/
  | policyLeaseEnd (t : Nat)
  /-- TRAY_ALERT_ACTIVE (R185): TRAY_ALERT_N becomes active; the tray's floor is asserted within 2 µs. -/
  | trayAlertActive (t : Nat) (j : Fin 32)
  /-- TRAY_ALERT_RELEASE (R185): After 1 ms of an inactive alert, the tray floor from the alert is released. -/
  | trayAlertRelease (t : Nat) (j : Fin 32)
  /-- PLS_FLOOR_FORCE_WRITE (R230): A write of PLS_FLOOR_FORCE forces tray floors. -/
  | plsFloorForceWrite (t : Nat) (w : Writer) (v : Word)
  /-- PLS_FLOOR_ALL_FORCE (R230): PLS_FLOOR_ALL.FORCE drives FLOOR_ALL_N. -/
  | plsFloorAllForce (t : Nat) (w : Writer) (v : Word)
  /-- BRICK_TURN_ON (R194): At its Pleat offset, a brick turns on, loads its threshold and starts its ramp. -/
  | brickTurnOn (t : Nat) (b : Fin 48)
  /-- BRICK_BLANK_END (R194): Leading-edge blanking ends and the comparator is armed. -/
  | brickBlankEnd (t : Nat) (b : Fin 48)
  /-- BRICK_THRESHOLD_CROSS (R195): The sensed current crosses the threshold less the ramp; the brick turns off. -/
  | brickThresholdCross (t : Nat) (b : Fin 48) (amp : Int) (ticks : Nat)
  /-- BRICK_CBC_LIMIT (R194): The cycle-by-cycle limit is crossed; turn-off, and CBC_HIT is set. -/
  | brickCbcLimit (t : Nat) (b : Fin 48) (amp : Int) (ticks : Nat)
  /-- BRICK_MAX_ON (R194): MAX_ON is reached with no crossing; forced turn-off. -/
  | brickMaxOn (t : Nat) (b : Fin 48) (amp : Int) (ticks : Nat)
  /-- BRICK_HARD_LIMIT (R194): The hard-limit comparator fires; turn-off within 50 ns and the brick goes to FAULT. -/
  | brickHardLimit (t : Nat) (b : Fin 48) (amp : Int)
  /-- BRICK_PERSISTENT_LIMIT (R231): The CBC limit is hit in 64 consecutive periods; the brick goes to FAULT. -/
  | brickPersistentLimit (t : Nat) (b : Fin 48)
  /-- BRICK_ALERT_FAULT (R231): A deglitched brick alert puts the brick into FAULT. -/
  | brickAlertFault (t : Nat) (b : Fin 48)
  /-- PCM_ENABLE (R198): A write of PCM_CTL.ENABLE starts or stops a brick under R234. -/
  | pcmEnable (t : Nat) (w : Writer) (b : Fin 48) (v : Word)
  /-- PCM_EXCLUDE (R198): PCM_CTL.EXCLUDE takes a brick out of service, stopping it with its ramp. -/
  | pcmExclude (t : Nat) (w : Writer) (b : Fin 48) (v : Word)
  /-- PCM_CLEAR (R199): PCM_CTL.CLEAR takes a brick from FAULT to OFF once its cause has gone, and is rejected otherwise. -/
  | pcmClear (t : Nat) (w : Writer) (b : Fin 48) (v : Word)
  /-- BRICK_STOP_DONE (R198): After the 4-pulse-period threshold ramp, the brick holds its output low and is OFF. -/
  | brickStopDone (t : Nat) (b : Fin 48)
  /-- PLEAT_ROTATION (R200): At a rotation boundary, ρ advances and the offsets are recomputed. -/
  | pleatRotation (t : Nat)
  /-- PLT_MAP_WRITE (R201): A word write of PLT_MAP goes into the pending map. -/
  | pltMapWrite (t : Nat) (w : Writer) (n : Fin 12) (v : Word)
  /-- SHED_START (R204): Per-brick power has stayed below SHD_OFF_KW for SHD_DWELL; shedding starts. -/
  | shedStart (t : Nat)
  /-- SHED_STEP (R204): Every 16 pulse periods the last active position or pair is shed, with its threshold ramped to 0. -/
  | shedStep (t : Nat)
  /-- SHED_HOLDOFF_END (R206): SHD_HOLDOFF after the last step ends; shedding may start again. -/
  | shedHoldoffEnd (t : Nat)
  /-- CLE_INSTANCE_SAMPLE (R208): A control-law instance samples its inputs, writes its output and updates its state. -/
  | cleInstanceSample (t : Nat) (n : Fin 64) (wait : Nat)
  /-- CLE_DEADLINE_FAULT (R213): 16 consecutive misses of instances 0 to 6 put the function they serve into FAULT. -/
  | cleDeadlineFault (t : Nat) (n : Fin 64)
  /-- CLE_SWAP_WRITE (R214): A write of CLE_SWAP requests a bank swap for an instance. -/
  | cleSwapWrite (t : Nat) (w : Writer) (v : Word)
  /-- CLE_BANK_SWAP (R214): The swap takes effect at the instance's next sample. -/
  | cleBankSwap (t : Nat) (n : Fin 64)
  /-- CLE_WDATA_WRITE (R215): A coefficient write through CLE_WDATA advances the word address; a write to the bank in use is rejected. -/
  | cleWdataWrite (t : Nat) (w : Writer) (v : Word)
  /-- CLE_RECORD_WRITE (R209): A write of an instance record is checked for range and codes. -/
  | cleRecordWrite (t : Nat) (w : Writer) (n : Fin 64) (k : Fin 4) (v : Word)
  /-- VMC_ENABLE (R234): A write of VMC_CTL.ENABLE starts a soft start or a 1 ms stop ramp. -/
  | vmcEnable (t : Nat) (w : Writer) (n : Fin 4) (v : Word)
  /-- VMC_TARGET_MODE (R216): A write of TARGET_MODE selects the target source; mode 1 on VM2 or VM3 is rejected. -/
  | vmcTargetMode (t : Nat) (w : Writer) (n : Fin 4) (v : Word)
  /-- VMC_CLEAR (R219): VMC_CTL.CLEAR takes a channel from FAULT to OFF once its cause has gone, resetting RETRY. -/
  | vmcClear (t : Nat) (w : Writer) (n : Fin 4) (v : Word)
  /-- VMC_IN_REGULATION (R216): After 1 ms within ±2 % of its target, a starting channel becomes RUNNING. -/
  | vmcInRegulation (t : Nat) (n : Fin 4) (heldNs : Nat)
  /-- VMC_TIMEOUT (R217): A channel not RUNNING within VMC_TIMEOUT enters FAULT TIMEOUT. -/
  | vmcTimeout (t : Nat) (n : Fin 4)
  /-- VMC_SHORT (R218): A short is detected; the channel enters hiccup, or FAULT SHORT once its retries are spent. -/
  | vmcShort (t : Nat) (n : Fin 4) (heldNs : Nat)
  /-- VMC_HICCUP_END (R218): After HICCUP_OFF, the channel starts again with RETRY incremented. -/
  | vmcHiccupEnd (t : Nat) (n : Fin 4)
  /-- VMC_RETRY_RESET (R218): RETRY returns to 0 after 1 s of RUNNING. -/
  | vmcRetryReset (t : Nat) (n : Fin 4)
  /-- VMC_STOP_DONE (R234): The 1 ms duty ramp ends, the driver turns off, and a pending rearm restarts the channel. -/
  | vmcStopDone (t : Nat) (n : Fin 4)
  /-- GOV_ROW_WRITE (R224): A write of an envelope row is checked for order and sign. -/
  | govRowWrite (t : Nat) (w : Writer) (r : Fin 4) (k : Fin 4) (v : Word)
  /-- BUS_OV_WARN (R231): V_bus above 53.0 V for 100 µs brings in the LIMIT row. -/
  | busOvWarn (t : Nat) (x : F32) (heldNs : Nat)
  /-- BUS_OV_TRIP (R231): V_bus above 56.0 V for 2 µs puts all bricks into FAULT, latched. -/
  | busOvTrip (t : Nat) (x : F32) (heldNs : Nat)
  /-- BUS_UV_WARN (R231): V_bus below 46.0 V for 50 µs asserts FLOOR_ALL_N. -/
  | busUvWarn (t : Nat) (x : F32) (heldNs : Nat)
  /-- BUS_UV_TRIP (R231): V_bus below 44.0 V for 2 µs puts all bricks into FAULT with FLOOR_ALL_N held. -/
  | busUvTrip (t : Nat) (x : F32) (heldNs : Nat)
  /-- STRING_OC_WARN (R231): String current above 300 A for 1 ms brings in the LIMIT row. -/
  | stringOcWarn (t : Nat) (str : Str) (x : F32) (heldNs : Nat)
  /-- STRING_OC_TRIP (R231): String current above 360 A for 10 µs puts the string's bricks into FAULT, latched. -/
  | stringOcTrip (t : Nat) (str : Str) (x : F32) (heldNs : Nat)
  /-- TRIP_CONTACTOR_OPEN (R231): After a string or cell trip, the contactor opens once the current is below 5 A or 2 ms after the trip. -/
  | tripContactorOpen (t : Nat) (str : Str) (x : F32)
  /-- CONTACTOR_FB_MISMATCH (R231): The feedback differs from the command beyond its delay; the bricks go to FAULT and the coil drive is removed. -/
  | contactorFbMismatch (t : Nat) (str : Str) (pre : Bool) (heldNs : Nat)
  /-- PROT_WARN_RECOVER (R231): A bus or string warning recovers automatically once its recovery level has been held for its duration. -/
  | protWarnRecover (t : Nat) (k : WarnKind) (x : F32) (heldNs : Nat)
  /-- PRT_CLR (R232): PRT_CLR clears latched trips whose condition has gone and returns their bricks to OFF. -/
  | prtClr (t : Nat) (w : Writer) (v : Word)
  /-- OWNER_LOST (R235): The OWNER line is not asserted or is contested; the drivers go to high impedance and functions go to OFF. -/
  | ownerLost (t : Nat)
  /-- BEAD_WAKE (R241): Bead WAKE command. -/
  | beadWake (t : Nat) (str : Str)
  /-- BEAD_SLEEP (R241): Bead SLEEP command; balancing and converters off. -/
  | beadSleep (t : Nat) (str : Str)
  /-- BEAD_ADDR (R242): Bead ADDR command; the serials are compared and a new serial raises BEAD_REPLACED. -/
  | beadAddr (t : Nat) (str : Str) (serials : List (Option (BitVec 48)))
  /-- BEAD_CONFIG (R241): Bead CONFIG sets the averaging window. -/
  | beadConfig (t : Nat) (str : Str) (a : BitVec 4) (arg : BitVec 16)
  /-- BEAD_SETTLE (R241): Bead SETTLE sets the balancing pause. -/
  | beadSettle (t : Nat) (str : Str) (a : BitVec 4) (arg : BitVec 16)
  /-- BEAD_MEAS (R246): MEAS starts a measurement cycle: balancing pauses, then the window opens and closes. -/
  | beadMeas (t : Nat) (str : Str) (arg : BitVec 16)
  /-- BEAD_READ (R245): READ asks the Beads served to send their reply frames. -/
  | beadRead (t : Nat) (str : Str) (arg : BitVec 16)
  /-- BEAD_BAL (R250): BAL sends a standing balance request mask. -/
  | beadBal (t : Nat) (str : Str) (j : Fin 15) (mask : BitVec 16)
  /-- BEAD_OWT (R255): OWT starts or ends an open-wire test current. -/
  | beadOwt (t : Nat) (str : Str) (j : Fin 15) (arg : BitVec 16)
  /-- BEAD_FORCE (R251): FORCE balances a mask without the parity interlock. -/
  | beadForce (t : Nat) (str : Str) (j : Fin 15) (mask : BitVec 16)
  /-- BEAD_DIAG (R241): DIAG compares the fine and coarse references. -/
  | beadDiag (t : Nat) (str : Str) (j : Fin 15)
  /-- BEAD_REPLY_RX (R245): A Bead reply frame arrives with cell codes and its slow field. -/
  | beadReplyRx (t : Nat) (str : Str) (f : BitVec 176)
  /-- STRING_SUM_MISMATCH (R257): A sum mismatch for 10 cycles brings in the LIMIT row and STRING_SUM. -/
  | stringSumMismatch (t : Nat) (str : Str)
  /-- HOP_FAIL (R243): Failures across a hop in 3 consecutive cycles mark it failed; the loop becomes BROKEN or LOST. -/
  | hopFail (t : Nat) (str : Str) (h : Fin 16)
  /-- HOP_PROBE (R243): A failed hop is probed once per second. -/
  | hopProbe (t : Nat) (str : Str) (h : Fin 16) (ok : Bool)
  /-- LOOP_CLOSE_RESTORE (R243): After 100 good probes, the loop returns to CLOSED at a plan-frame boundary. -/
  | loopCloseRestore (t : Nat) (str : Str)
  /-- BEAD_LOSS (R243): No valid reply from a Bead for 50 ms causes the Bead-loss trip. -/
  | beadLoss (t : Nat) (str : Str) (j : Fin 15)
  /-- CADENCE_SLOW (R244): After 1 s at or below BDS_RATE_I, the string's cadence becomes slow. -/
  | cadenceSlow (t : Nat) (str : Str)
  /-- BDS_BAL_REQ_WRITE (R250): A write of BDS_BAL_REQ sets the balance requests and restarts their age. -/
  | bdsBalReqWrite (t : Nat) (w : Writer) (n : Fin 15) (v : Word)
  /-- BAL_REQ_LAPSE (R250): After 10 s without a write, empty masks are sent. -/
  | balReqLapse (t : Nat)
  /-- BDS_BAL_FORCE_WRITE (R251): A write of BDS_BAL_FORCE sends FORCE, or is rejected. -/
  | bdsBalForceWrite (t : Nat) (w : Writer) (v : Word)
  /-- BEAD_SWITCH_FAULT (R252): BAL_MISMATCH in 3 cycles is treated as a Bead loss. -/
  | beadSwitchFault (t : Nat) (str : Str) (j : Fin 15)
  /-- DEVIATION_EVAL (R254): With the current settled for 100 ms, the deviations δ are classified and tests are requested. -/
  | deviationEval (t : Nat) (str : Str) (j : Fin 15) (d : List Int)
  /-- BDS_OWT_GO (R255): BDS_CTL.OWT_GO requests an open-wire test, and is rejected if a test is running. -/
  | bdsOwtGo (t : Nat) (w : Writer)
  /-- OWT_RESULT (R255): After 4 test cycles and 2 ignored cycles, the wire is judged intact, open or inconclusive. -/
  | owtResult (t : Nat) (str : Str) (moveUv : Nat)
  /-- UNRESOLVED_RETEST (R256): An UNRESOLVED test repeats every 60 s. -/
  | unresolvedRetest (t : Nat) (str : Str)
  /-- BDS_CLR (R257): BDS_CLR clears latched cell trips whose condition has gone and returns their bricks to OFF. -/
  | bdsClr (t : Nat) (w : Writer)
  /-- CELL_OV_WARN (R257): Cell above 2.75 V for 2 readings brings in the LIMIT row. -/
  | cellOvWarn (t : Nat) (str : Str) (c : Fin 240)
  /-- CELL_OV_TRIP (R257): Cell above 2.85 V for 2 readings trips the string. -/
  | cellOvTrip (t : Nat) (str : Str) (c : Fin 240)
  /-- CELL_UV_WARN (R257): Cell below 1.85 V for 2 readings brings in the LIMIT row. -/
  | cellUvWarn (t : Nat) (str : Str) (c : Fin 240)
  /-- CELL_UV_TRIP (R257): Cell below 1.75 V for 2 readings trips the string. -/
  | cellUvTrip (t : Nat) (str : Str) (c : Fin 240)
  /-- PAIR_SUM_TRIP (R257): A pair sum out of its range trips the string. -/
  | pairSumTrip (t : Nat) (str : Str) (c : Fin 240)
  /-- TEMP_WARN (R257): Temperature above 55 °C brings in the LIMIT row. -/
  | tempWarn (t : Nat) (str : Str) (q : Fin 120)
  /-- TEMP_TRIP (R257): Temperature above 65 °C trips the string. -/
  | tempTrip (t : Nat) (str : Str) (q : Fin 120)
  /-- COLD_CHARGE (R257): Temperature below −20 °C sets the string's charge limit to 0. -/
  | coldCharge (t : Nat) (str : Str) (q : Fin 120)
  /-- TEMP_INPUT_FAULT (R257): A temperature input out of range for 10 readings is excluded. -/
  | tempInputFault (t : Nat) (str : Str) (q : Fin 120)
  /-- CELL_WARN_RECOVER (R257): A cell warning, cold charge or input fault recovers once its level has been held. -/
  | cellWarnRecover (t : Nat) (str : Str) (k : CellWarn) (n : Fin 240) (heldNs : Nat)
  /-- CTC_ENABLE (R259): CTC_CTL.ENABLE starts a close after the conditions of R259, or starts an open. -/
  | ctcEnable (t : Nat) (w : Writer) (str : Str) (v : Word)
  /-- CTC_CLEAR (R276): CTC_CTL.CLEAR takes a string from FAULT to OFF once both feedbacks read open. -/
  | ctcClear (t : Nat) (w : Writer) (str : Str) (v : Word)
  /-- PRECHARGE_FB_CLOSED (R259): The precharge relay closes; VM0 or VM1 is enabled to follow the string. -/
  | prechargeFbClosed (t : Nat) (str : Str)
  /-- MAIN_FB_CLOSED (R259): The main contactor closes; VM0 is disabled and the precharge coil released. -/
  | mainFbClosed (t : Nat) (str : Str)
  /-- PRECHARGE_FB_OPEN (R259): The precharge relay opens. -/
  | prechargeFbOpen (t : Nat) (str : Str)
  /-- CLOSE_TIMEOUT (R259): The precharge does not converge within 100 ms, or a feedback misses its 20 ms; the close ends in FAULT. -/
  | closeTimeout (t : Nat) (str : Str)
  /-- CLOSE_WAIT_RELEASE (R261): A close waiting for the other string starts when that string is RUNNING, OFF or FAULT. -/
  | closeWaitRelease (t : Nat) (str : Str)
  /-- CONTACTOR_COIL_RELEASE (R260): With all bricks OFF, the coil is released below 5 A, or after 10 ms with the opening counted. -/
  | contactorCoilRelease (t : Nat) (str : Str) (x : F32)
  /-- CONTACTOR_OPEN_DONE (R260): The feedback opens; the string reaches OFF and any rearm is judged. -/
  | contactorOpenDone (t : Nat) (str : Str)
  /-- REST_WINDOW_END (R268): After 90 s the anchor is taken, capacity is updated and the string returns to RUNNING. -/
  | restWindowEnd (t : Nat) (str : Str)
  /-- EXCITATION_BURST (R270): Every 60 s a 10 s excitation at 317 Hz starts on an aged string. -/
  | excitationBurst (t : Nat) (str : Str)
  /-- EXCITATION_END (R270): The burst ends and Rs is updated from the fitted impedance. -/
  | excitationEnd (t : Nat) (str : Str)
  /-- LEARNED_JOURNAL (R273): Learned values are journalled hourly, or when a capacity changes by more than 0.5 %. -/
  | learnedJournal (t : Nat) (str : Str)
  /-- CTC_SHIP_ENTER (R274): CTC_SHIP.ENTER from an authorised path clears both strings' ENABLE. -/
  | ctcShipEnter (t : Nat) (w : Writer)
  /-- SHIP_STRINGS_OFF (R274): With both strings OFF, the Beads are sent SLEEP, VM3 is disabled and SHIP is set. -/
  | shipStringsOff (t : Nat)
  /-- CTC_SHIP_EXIT (R275): CTC_SHIP.EXIT with the bus present wakes the Beads and runs the open-wire tests. -/
  | ctcShipExit (t : Nat) (w : Writer)
  /-- SHIP_EXIT_COMPLETE (R275): After the open-wire tests, SHIP is cleared. -/
  | shipExitComplete (t : Nat)
  /-- EPOCH_RECONCILE (R289): The epoch's records are formed, reconciled and apportioned under its policy. -/
  | epochReconcile (t : Nat)
  /-- EPOCH_ROOT_FORMED (R292): The leaves and levels are hashed into ROOT. -/
  | epochRootFormed (t : Nat)
  /-- EPOCH_HEADER_JOURNAL (R295): The journal controller takes the header, journals and mirrors it, and passes it to Signet. -/
  | epochHeaderJournal (t : Nat)
  /-- EPOCH_SEAL_DONE (R294): Both signatures complete and the seal is journalled, late ones counted. -/
  | epochSealDone (t : Nat)
  /-- EPOCH_RELEASE (R295): A sealed and mirrored epoch is released for export in CHAIN_SEQ order. -/
  | epochRelease (t : Nat)
  /-- EPOCH_EXPORT (R301): Nugen sends the header, seal and blocks to the subscribed collectors. -/
  | epochExport (t : Nat) (sess : Fin 64)
  /-- HMK_ACK_WRITE (R302): A write of HMK_ACK acknowledges epochs, and is rejected out of range. -/
  | hmkAckWrite (t : Nat) (w : Writer) (v : DWord)
  /-- HMK_POLICY_WRITE (R305): A write of HMK_POLICY sets the policy for later epochs, and is rejected if the policy is undeclared. -/
  | hmkPolicyWrite (t : Nat) (w : Writer) (v : Word)
  /-- STAGE_OPEN (R307): When all its conditions hold, the module energises the bypass drive and opens its stage. -/
  | stageOpen (t : Nat)
  /-- STAGE_CLOSE (R307): Within 1 ms of a condition ceasing, the drive is released and the stage closes. -/
  | stageClose (t : Nat)
  /-- RING_TRAINED (R308): A new ring path finishes training after a stage change. -/
  | ringTrained (t : Nat)
  /-- CMIS_POLL (R311): Every 100 ms, or on interrupt, a cable is polled and acted on for its flags. -/
  | cmisPoll (t : Nat) (d : Dir) (c : CmisIn)
  /-- CMIS_REINIT (R311): 1 s after an alarm, the data path is re-initialised once. -/
  | cmisReinit (t : Nat) (d : Dir)
  /-- JRJ_IDENT (R314): A Chain IDENT frame is checked against the plan; the lane passes or is QUARANTINED. -/
  | jrjIdent (t : Nat) (l : Fin 4) (f : FlitIn)
  /-- CHAIN_QUARANTINE_RELEASE (R315): Both directions quarantined for 1 s; the bypass drive is released. -/
  | chainQuarantineRelease (t : Nat)
  /-- JRJ_ECHO (R317): An ECHO frame measures lane delay and is answered. -/
  | jrjEcho (t : Nat) (l : Fin 4) (f : FlitIn)
  /-- JRJ_TIME (R319): A TIME frame lands; site time is taken from the copy with fewer hops, and it is forwarded. -/
  | jrjTime (t : Nat) (l : Fin 4) (f : FlitIn)
  /-- ROOT_TAKEOVER (R319): No TIME for 3 plan frames, or a bad root state; the next eligible member takes the root. -/
  | rootTakeover (t : Nat)
  /-- ROOT_DISPLACE (R319): A lower candidate eligible for 10 s displaces the root. -/
  | rootDisplace (t : Nat)
  /-- JRJ_REPORT (R322): A peer REPORT frame lands. -/
  | jrjReport (t : Nat) (l : Fin 4) (f : FlitIn)
  /-- JRJ_STEP (R320): A STEP frame lands and is fed to the load model, or absorbed if it is a TRIP. -/
  | jrjStep (t : Nat) (l : Fin 4) (f : FlitIn)
  /-- JRJ_LIMIT (R321): A LIMIT frame replaces the ring limit from a stated plan frame until its lease end. -/
  | jrjLimit (t : Nat) (l : Fin 4) (f : FlitIn)
  /-- LIMIT_LEASE_END (R321): After LEASE_END, the plan's RING_LIMIT returns. -/
  | limitLeaseEnd (t : Nat)
  /-- CHN_REIDENT (R326): CHN_CTL.REIDENT returns a lane to IDENT_WAIT. -/
  | chnReident (t : Nat) (w : Writer) (l : Fin 4)
  /-- JRJ_STAGE_EN_WRITE (R327): A write of JRJ_CTL.STAGE_EN enables the stage, or releases the drive when cleared. -/
  | jrjStageEnWrite (t : Nat) (w : Writer) (v : Word)
  /-- CLASP_FRAME_SEND (R328): Every 1 µs the module sends its Clasp frame, advancing EPOCH only if its lease checker passed. -/
  | claspFrameSend (c : CheckerIn)
  /-- CLASP_FRAME_RX (R330): A peer frame renews the lease, is counted stale, or ends it as YIELDING. -/
  | claspFrameRx (t : Nat) (p : ClaspPath) (f : BitVec 48)
  /-- LEASE_EXPIRE (R330): 6 µs after the last renewal, the peer's lease expires and the guard begins. -/
  | leaseExpire (t : Nat)
  /-- GUARD_END (R331): At the end of the guard, the module asserts OWNER if the conditions of R331 hold. -/
  | guardEnd (t : Nat)
  /-- OWNER_HOLD_TIMER_EXPIRE (R332): 4 µs without an advancing frame, the OWNER driver drops the line. -/
  | ownerHoldTimerExpire (t : Nat)
  /-- OWNER_LINE_STUCK (R334): Readback differs from drive for 2 µs; the module yields, or marks the line STUCK. -/
  | ownerLineStuck (t : Nat) (asserted : Bool)
  /-- CONTEST_DETECT (R335): Both OWNER lines asserted; the state is CONTESTED and both modules' outputs go to high impedance. -/
  | contestDetect (t : Nat)
  /-- CONTEST_END (R336): The peer line reads deasserted for 10 ms; the owner resumes and the strings precharge again. -/
  | contestEnd (t : Nat)
  /-- CLP_STUCK_CLR (R336): CLP_CTL.STUCK_CLR clears STUCK if the line reads correctly. -/
  | clpStuckClr (t : Nat) (w : Writer)
  /-- CLP_HANDOVER (R337): CLP_CTL.HANDOVER requests a yield to a READY standby. -/
  | clpHandover (t : Nat) (w : Writer)
  /-- YIELD_FAIL (R337): No claim by T + 100 µs; the module takes ownership back and raises YIELD_FAILED. -/
  | yieldFail (t : Nat)
  /-- LISTEN_END (R338): The start-up listening time ends without a lease; the module sends CLAIMING and the guard begins. -/
  | listenEnd (t : Nat)
  /-- SLOT_LINK_IDENT (R339): The slot-link identity check of the peer runs, checking order code and wiring plan. -/
  | slotLinkIdent (t : Nat) (p : PeerIdent)
  /-- PLAN_MIRROR (R340): A mirrored plan reaches the standby's plan buffer. -/
  | planMirror (t : Nat) (g : List (BitVec 8))
  /-- JOURNAL_MIRROR_RX (R340): A mirrored journal record is appended by the standby and acknowledged once it is programmed. -/
  | journalMirrorRx (t : Nat) (r : JRec)
  /-- JOURNAL_RESYNC (R341): On insertion, or on RESYNC, the standby copies the owner's whole journal. -/
  | journalResync (t : Nat)
  /-- SLK_RESYNC (R349): SLK_CTL.RESYNC restarts the journal copy, and is rejected on the owner. -/
  | slkResync (t : Nat) (w : Writer)
  /-- RESYNC_DONE (R341): The journal copy completes. -/
  | resyncDone (t : Nat)
  /-- SLK_ENABLE_WRITE (R349): Clearing SLK_CTL.ENABLE stops the mirrors and the slot-link lease path. -/
  | slkEnableWrite (t : Nat) (w : Writer) (v : Word)
  /-- RESTORE_PATTERN_LOADED (R342): After a gain of ownership, the owner's Pattern is loaded from NAND with every check. -/
  | restorePatternLoaded (t : Nat) (sig : SigVerdict)
  /-- CAMEO_RESTORE (R398): The newest matching Cameo is written and the later records are replayed. -/
  | cameoRestore (t : Nat)
  /-- ESTIMATORS_WARM (R342): After 2 s of filters, the Pattern hands its first reference. -/
  | estimatorsWarm (t : Nat)
  /-- PEER_ABSENT (R344): No peer frames for 1 ms; PEER_ABSENT is raised. -/
  | peerAbsent (t : Nat)
  /-- SLOT_LINK_DOWN (R344): The slot link goes down; the lease runs on the Clasp wires and the standby is NOT_READY. -/
  | slotLinkDown (t : Nat)
  /-- CLASP_WIRE_FAULT (R344): A broken Clasp wire is detected within 10 µs while the other path still renews. -/
  | claspWireFault (t : Nat)
  /-- NUGEN_WATCHDOG_EXPIRE (R350): An unkicked watchdog restarts Nugen's cores within 700 ms. -/
  | nugenWatchdogExpire (t : Nat)
  /-- NUG_WDOG_KICK (R380): Any write to NUG_WDOG_KICK kicks the watchdog. -/
  | nugWdogKick (t : Nat) (w : Writer) (v : Word)
  /-- NUG_CTL_RESTART (R380): NUG_CTL.RESTART restarts Nugen. -/
  | nugCtlRestart (t : Nat) (w : Writer)
  /-- NUG_CTL_SLEEP (R360): NUG_CTL.SLEEP powers a standby's base die down again. -/
  | nugCtlSleep (t : Nat) (w : Writer)
  /-- STANDBY_SERVICE_TIMEOUT (R360): After 10 min with no service command, a woken standby powers down its base die. -/
  | standbyServiceTimeout (t : Nat)
  /-- TLS_HANDSHAKE (R353): A TLS 1.3 handshake with a client certificate and role opens a session, or is counted and closed. -/
  | tlsHandshake (t : Nat) (h : TlsHello)
  /-- REDFISH_REQUEST (R355): A Redfish request is served, with writes mapped onto service commands. -/
  | redfishRequest (t : Nat) (sess : Fin 64) (q : RedfishReq)
  /-- MBX_POST (R358): A staged message is posted whole, incrementing MBX_SEQ, or collides with the one held. -/
  | mbxPost (t : Nat) (w : Writer) (n : Fin 64)
  /-- MBX_FETCH (R359): A fetch takes a snapshot of the message into the read buffer. -/
  | mbxFetch (t : Nat) (w : Writer) (n : Fin 64)
  /-- MBX_ACK (R359): The receiver's acknowledgement sets ACKED and clears FULL if no newer post has arrived. -/
  | mbxAck (t : Nat) (w : Writer) (n : Fin 64) (v : Word)
  /-- MBX_WDATA_WRITE (R380): A write of MBX_WDATA stores a staging word and advances the word index. -/
  | mbxWdataWrite (t : Nat) (w : Writer) (pg : Fin 4) (v : Word)
  /-- MBX_RDATA_READ (R380): A read of MBX_RDATA returns a word and advances the word index. -/
  | mbxRdataRead (t : Nat) (w : Writer) (pg : Fin 4)
  /-- DOORBELL_POST (R361): A doorbell POST frame posts to a mailbox, answered with RESULT. -/
  | doorbellPost (t : Nat) (sess : Fin 64) (n : Fin 64) (m : Message)
  /-- DOORBELL_FETCH (R361): A doorbell FETCH frame fetches a mailbox. -/
  | doorbellFetch (t : Nat) (sess : Fin 64) (n : Fin 64)
  /-- DOORBELL_ACK (R361): A doorbell ACK frame acknowledges a mailbox. -/
  | doorbellAck (t : Nat) (sess : Fin 64) (n : Fin 64) (code : BitVec 16)
  /-- CLE_COEF_LOAD (R362): A CLE mailbox message writes coefficients and optionally requests a swap. -/
  | cleCoefLoad (t : Nat) (n : Fin 64)
  /-- PATTERN_STAGE (R363): Service command: check the staged container and write it to the inactive bank. -/
  | patternStage (t : Nat) (o : SvcOrigin) (tag : Word) (sig : SigVerdict)
  /-- PATTERN_SWAP (R363): Service command: request a Pattern swap. -/
  | patternSwap (t : Nat) (o : SvcOrigin) (tag : Word) (bank : Bool)
  /-- POLICY_COMMIT (R179): Service command: check a policy record and commit it. -/
  | policyCommit (t : Nat) (o : SvcOrigin) (tag : Word) (r : List (BitVec 8))
  /-- STANDING_POLICY (R345): Service command: commit the standing-policy record. -/
  | standingPolicy (t : Nat) (o : SvcOrigin) (tag : Word) (r : List (BitVec 8))
  /-- LIMIT_OVERRIDE (R321): Service command: originate a LIMIT frame. -/
  | limitOverride (t : Nat) (o : SvcOrigin) (tag : Word) (l : LimitRec)
  /-- WIRING_LOAD (R313): Service command: check and keep a wiring plan, pending until its EFFECT. -/
  | wiringLoad (t : Nat) (o : SvcOrigin) (tag : Word) (p : List (BitVec 8)) (sig : SigVerdict)
  /-- SHIP_ENTER (R379): Service command: enter ship mode. -/
  | shipEnter (t : Nat) (o : SvcOrigin) (tag : Word)
  /-- SHIP_EXIT (R379): Service command: leave ship mode, with the bus present. -/
  | shipExit (t : Nat) (o : SvcOrigin) (tag : Word)
  /-- IMAGE_STAGE (R369): Service command: verify a boot image, write it to the inactive NOR device and verify it again. -/
  | imageStage (t : Nat) (o : SvcOrigin) (tag : Word) (img : BootImage)
  /-- IMAGE_ACTIVATE (R370): Service command: select the new image in TRIAL, yielding first if owner. -/
  | imageActivate (t : Nat) (o : SvcOrigin) (tag : Word)
  /-- ATTEST (R372): Service command: return a signed quote. -/
  | attest (t : Nat) (o : SvcOrigin) (tag : Word) (nonce : BitVec 256)
  /-- LC_NONCE (R376): Service command: draw a fresh life-cycle nonce. -/
  | lcNonce (t : Nat) (o : SvcOrigin) (tag : Word)
  /-- LC_TRANSITION (R375): Service command: check a token and perform a life-cycle transition. -/
  | lcTransition (t : Nat) (o : SvcOrigin) (tag : Word) (toward : LifeCycle) (k : List LcToken)
  /-- OWNER_ENROLL (R367): Service command: enrol owner keys and CA. -/
  | ownerEnroll (t : Nat) (o : SvcOrigin) (tag : Word) (k : OwnerKeys)
  /-- HMK_KEYGEN (R368): Service command: generate a Hallmark key pair and signed statement. -/
  | hmkKeygen (t : Nat) (o : SvcOrigin) (tag : Word)
  /-- SERVICE_CMD_COMPLETE (R363): A long command completes and posts its notice to mailbox 40. -/
  | serviceCmdComplete (t : Nat)
  /-- NONCE_EXPIRE (R376): A life-cycle nonce becomes invalid after 1 h. -/
  | nonceExpire (t : Nat)
  /-- SIGNET_JOB (R365): Signet completes a queued crypto job. -/
  | signetJob (t : Nat) (e : SigEngine)
  /-- TRNG_HEALTH_FAIL (R365): A failed health test sets TRNG_FAIL and withholds output. -/
  | trngHealthFail (t : Nat)
  /-- TRNG_RECOVER (R365): After 1,024 passing samples, output resumes. -/
  | trngRecover (t : Nat) (good : Nat)
  /-- BOOT_ROM_VERIFY (R371): The boot ROM verifies the selected image, or the other one, or stays in ROM. -/
  | bootRomVerify (t : Nat) (a : ImgVerdict) (b : ImgVerdict)
  /-- TRIAL_TIMEOUT (R371): No CONFIRM within 120 s; the base die reverts to the previous image. -/
  | trialTimeout (t : Nat)
  /-- NUG_BOOT_CONFIRM (R371): NUG_BOOT.CONFIRM makes the trial image active and raises the BOOT counter. -/
  | nugBootConfirm (t : Nat) (w : Writer)
  /-- NUG_BOOT_ACTIVATE (R370): NUG_BOOT.ACTIVATE selects the inactive image for the next start. -/
  | nugBootActivate (t : Nat) (w : Writer)
  /-- JNL_RECORD_QUEUE (R384): A record is queued for the journal; at 95 % fill the low-priority types are refused. -/
  | jnlRecordQueue (t : Nat) (r : JNew)
  /-- PAGE_PROGRAM (R384): A page is programmed when full, or on its 1 ms or 20 ms deadline, padded with PAD. -/
  | pageProgram (t : Nat)
  /-- PAGE_PROGRAM_DONE (R381): A page program completes and the records in it are acknowledged. -/
  | pageProgramDone (t : Nat) (us : Nat)
  /-- JNL_MOUNT (R387): The journal is mounted: live ring found, records sorted and keyed types resolved. -/
  | jnlMount (t : Nat) (bad : Nat)
  /-- COMPACTION_START (R388): At JNL_COMPACT_AT, or on COMPACT, compaction begins and copies the kept records. -/
  | compactionStart (t : Nat)
  /-- COMPACTION_COMMIT (R388): After the copies are programmed, COMPACT_COMMIT is written and old segments released. -/
  | compactionCommit (t : Nat)
  /-- JNL_CTL_COMPACT (R403): JNL_CTL.COMPACT starts a compaction unless one runs. -/
  | jnlCtlCompact (t : Nat) (w : Writer)
  /-- JNL_CTL_ENABLE (R403): Clearing JNL_CTL.ENABLE stops programs once the queue drains. -/
  | jnlCtlEnable (t : Nat) (w : Writer) (on : Bool)
  /-- BROWNOUT (R391): Both supplies fall: the page is closed, a FAULT event queued and low-priority records dropped. -/
  | brownout (t : Nat) (holdUs : Nat)
  /-- POCKET_DIVERT (R390): A record that cannot be programmed is copied to its Pocket slot, or dropped. -/
  | pocketDivert (t : Nat) (holdUs : Nat)
  /-- AUDIT_JOURNAL_COPY (R39): Nugen copies the write-audit ring into the journal at least every 100 ms. -/
  | auditJournalCopy (t : Nat)
  /-- CAMEO_CAPTURE (R395): Every 10 s the staging area is captured and journalled, or abandoned. -/
  | cameoCapture (t : Nat) (complete : Bool)
  /-- RECORDER_1S (R400): Each second the histogram sets are read and journalled as 1 s records. -/
  | recorder1s (t : Nat)
  /-- RECORDER_DERIVE (R400): Minute and hour records are derived from the finer records. -/
  | recorderDerive (t : Nat)
  /-- KEEPALIVE_IN_RANGE (R407): The keep-alive input comes into range; the Lining runs and checks the Pocket. -/
  | keepaliveInRange (t : Nat) (v : F32) (heldNs : Nat) (pocketOk : Bool)
  /-- KEEPALIVE_LOSS (R404): The keep-alive input falls below range. -/
  | keepaliveLoss (t : Nat) (v : F32) (heldNs : Nat)
  /-- MAIN_IN_RANGE (R404): The main input comes back in range and the base die may start. -/
  | mainInRange (t : Nat) (v : F32) (heldNs : Nat)
  /-- MAIN_LOSS (R404): The main input or PWR_GOOD is lost; the base die powers down within 100 µs. -/
  | mainLoss (t : Nat) (v : F32) (heldNs : Nat)
  /-- PULSE_DIE_POWER_UP (R407): At 1 ms, SLOT_ID is sampled and the pulse die and TCXO are powered. -/
  | pulseDiePowerUp (t : Nat) (slotId : Bool) (edges : Nat)
  /-- PULSE_FW_VERIFIED (R408): The pulse-die firmware is verified, or the module stays in KEEP-ALIVE. -/
  | pulseFwVerified (t : Nat) (a : ImgVerdict) (b : ImgVerdict)
  /-- BASE_DIE_POWER_UP (R407): The base die is powered and the boot ROM begins. -/
  | baseDiePowerUp (t : Nat)
  /-- STANDBY_ENTRY (R409): After its checks, a standby powers its base die down and enters STANDBY. -/
  | standbyEntry (t : Nat)
  /-- CRYSTAL_FAIL (R405): The crystal fails; the Lining runs on the RC oscillator and the RTC is invalid. -/
  | crystalFail (t : Nat)
  /-- LIN_PARK (R411): LIN_CTL.PARK parks a non-owner in KEEP-ALIVE. -/
  | linPark (t : Nat) (w : Writer)
  /-- LIN_UNPARK (R411): LIN_CTL.UNPARK clears PARK and restarts the pulse die. -/
  | linUnpark (t : Nat) (w : Writer)
  /-- UART_BREAK (R411): A UART break unparks a parked module or wakes the base die. -/
  | uartBreak (t : Nat)
  /-- LIN_PD_RESET (R415): LIN_CTL.PD_RESET resets the pulse die, and is rejected on the owner. -/
  | linPdReset (t : Nat) (w : Writer)
  /-- LIN_BASE_WAKE (R425): LIN_CTL.BASE_WAKE powers the base die. -/
  | linBaseWake (t : Nat) (w : Writer)
  /-- COOLING_AIR_ENTRY (R412): A cooling cause sets AIR and AIR-FALLBACK is entered within 2 s. -/
  | coolingAirEntry (t : Nat) (c : TempIn)
  /-- COOLING_LIQUID_RETURN (R412): After 60 s of flow and cool dies, the mode returns to liquid. -/
  | coolingLiquidReturn (t : Nat) (c : TempIn) (heldNs : Nat)
  /-- PWR_FORCE_AIR (R450): A write of PWR_CTL.FORCE_AIR forces or releases the AIR cooling mode. -/
  | pwrForceAir (t : Nat) (w : Writer) (v : Word)
  /-- STACK_WAKE (R414): The loader wakes a stack from retention sleep within 2 ms. -/
  | stackWake (t : Nat) (d : Fin 4)
  /-- LINING_RESET (R415): A Lining reset from keep-alive loss or its watchdog resets the Lining, pulse die and base die. -/
  | liningReset (t : Nat) (watchdog : Bool)
  /-- PULSE_DIE_WATCHDOG (R415): No pulse-die heartbeat for 1 ms resets the pulse die. -/
  | pulseDieWatchdog (t : Nat) (quietNs : Nat)
  /-- BASE_DIE_RESET (R415): The base die, stacks and shared memory reset. -/
  | baseDieReset (t : Nat) (cause : BaseCause)
  /-- GLB_RESET (R446): A write of the key to GLB_RESET resets the base die at the next plan-frame boundary after SYNC records are programmed. -/
  | glbReset (t : Nat) (w : Writer) (v : Word)
  /-- SEAM_RECOVER_HANDSHAKE (R419): On QW-SC9-B, a side leaving reset resynchronises each FIFO by handshake. -/
  | seamRecoverHandshake (t : Nat) (pulseSide : Bool)
  /-- SEAM_RECOVER_INDICATION (R420): On QW-SC9-F, a reset-indication level flushes and reopens all FIFOs of a Seam. -/
  | seamRecoverIndication (t : Nat) (pulseSide : Bool) (level : Bool)
  /-- DIN_EDGE (R423): A raw edge on a discrete input is counted; too many edges enter CHATTER. -/
  | dinEdge (t : Nat) (n : Fin 88) (level : Bool) (widthNs : Nat)
  /-- DIN_FILTERED_CHANGE (R422): After the deglitch time at a new level, the input's filtered value changes. -/
  | dinFilteredChange (t : Nat) (n : Fin 88) (level : Bool) (heldNs : Nat)
  /-- DIN_STUCK (R424): An input active beyond its stuck timeout enters STUCK. -/
  | dinStuck (t : Nat) (n : Fin 88)
  /-- PWR_GOOD_CHATTER_CLEAR (R423): After 10 s without a raw edge, the Lining clears CHATTER on PWR_GOOD. -/
  | pwrGoodChatterClear (t : Nat)
  /-- DIN_CLR (R426): A write of DIN_CLR returns an input from CHATTER or STUCK to NORMAL if allowed. -/
  | dinClr (t : Nat) (w : Writer) (v : Word)
  /-- REGISTER_WRITE (R440): A write to a register without its own row is judged by access code, locks and range, stored or rejected, and audited. -/
  | registerWrite (t : Nat) (w : Writer) (addr : Nat) (width : Nat) (v : DWord)
  /-- REG_WRITE_64_LOW (R430): A 32-bit write of a 64-bit register's low word is held per path without effect. -/
  | regWrite64Low (t : Nat) (w : Writer) (addr : Nat) (v : Word)
  /-- BLK_CTL_ENABLE (R437): BLK_CTL.ENABLE starts or stops a block under R234. -/
  | blkCtlEnable (t : Nat) (w : Writer) (page : BitVec 12) (v : Word)
  /-- BLK_CTL_QUIESCE (R437): BLK_CTL.QUIESCE makes the sequencer idle after its body; it is stored only on other blocks. -/
  | blkCtlQuiesce (t : Nat) (w : Writer) (page : BitVec 12) (v : Word)
  /-- BLK_CTL_SOFT_RESET (R437): SOFT_RESET zeroes the counters and sticky status, and leaves FAULT if allowed. -/
  | blkCtlSoftReset (t : Nat) (w : Writer) (page : BitVec 12) (v : Word)
  /-- IRQ_SET_WRITE (R434): A write of IRQ_SET sets IRQ_STS bits for test. -/
  | irqSetWrite (t : Nat) (w : Writer) (page : BitVec 12) (v : Word)
  /-- LOCK_WR_LOCK (R440): LOCK.WR_LOCK locks the page's RW and RWL fields until a reset. -/
  | lockWrLock (t : Nat) (w : Writer) (page : BitVec 12) (v : Word)
  /-- EVENT_POST (R442): A block posts an event into the ring or pulse-die buffer, coalesced or counted lost. -/
  | eventPost (t : Nat) (e : EventIn)
  /-- EVENT_COALESCE_END (R442): At the end of a coalescing window, Nugen journals and announces WARN and FAULT records. -/
  | eventCoalesceEnd (t : Nat)
  /-- EVT_CLR_LOST (R445): EVT_CTL.CLR_LOST sets EVT_LOST to 0. -/
  | evtClrLost (t : Nat) (w : Writer) (v : Word)
  /-- AUD_CLR_LOST (R448): AUD_CTL.CLR_LOST sets AUD_LOST to 0. -/
  | audClrLost (t : Nat) (w : Writer) (v : Word)
  /-- PLUGGABLE_OVERCLASS (R453): A plug above its cage's class is held in low power and a CONFIG event raised. -/
  | pluggableOverclass (t : Nat) (cage : Fin 11) (class01W : Nat)
  /-- LEVER_SWITCH_OPEN (R456): The ejector lever switch opens; an owner yields to a READY standby or raises CONFIG. -/
  | leverSwitchOpen (t : Nat) (heldNs : Nat)
  /-- STITCH_STORE_ECC_ERROR (R79): An uncorrectable ECC error in the Stitch store puts the sequencer into FAULT, and the pulse die then runs under R20. -/
  | stitchStoreEccError (t : Nat)
  /-- CHAIN_LANE_FEC_LOCK (R314): A Chain lane gains FEC lock after training and enters IDENT_WAIT, from where it sends IDENT and ECHO frames. -/
  | chainLaneFecLock (t : Nat) (l : Fin 4)
  /-- CHAIN_LANE_FEC_LOSS (R310): A Chain lane loses FEC lock, goes DOWN, and the other lane of its direction carries every frame type or the direction counts as broken. -/
  | chainLaneFecLoss (t : Nat) (l : Fin 4)
  /-- RECT_AC_RETURN (R183): The rectifiers report that their AC input has returned; GRID_LOSS ends and normal grants and the checkpoint-reserve row come back. -/
  | rectAcReturn (t : Nat) (back : BitVec 12)
  /-- RECTIFIER_TELEMETRY_READ (R37): A PMBus read of a rectifier's status and telemetry completes and is stamped with ARRIVAL set, updating which rectifiers are in service. -/
  | rectifierTelemetryRead (t : Nat) (r : Fin 12) (q : RectIn)
  /-- BURST_CAPTURE_END (R166): The window of a burst capture ends, STR_BURST_STS goes to DONE and its slot is used. -/
  | burstCaptureEnd (t : Nat) (p : Fin 32)
  /-- JOURNAL_MIRROR_ACK (R340): The standby's acknowledgement of a mirrored journal record reaches the owner, lowering SLK_JNL_LAG and releasing epoch headers that wait for it. -/
  | journalMirrorAck (t : Nat) (seq : Nat)
  /-- PEER_JOURNAL_RECORD_RX (R383): A journal record of the standby's own arrives at the owner over the slot link; the owner sequences it and mirrors it back. -/
  | peerJournalRecordRx (t : Nat) (r : JNew)
  /-- VM_CHANNEL_CYCLE (R216): Voltage-mode channel n turns on at the control-frame boundary plus n × 6,250 ticks, with the duty in force. -/
  | vmChannelCycle (t : Nat) (n : Fin 4)
  /-- SESSION_CLOSE (R354): A management-port TLS session closes and frees its session number. -/
  | sessionClose (t : Nat) (sess : Fin 64)
  /-- COMPUTE_DIE_OVERTEMP (R412): A compute die reaches 115 °C and is failed as a stack under R67. -/
  | computeDieOvertemp (t : Nat) (d : Fin 4)
  deriving DecidableEq, Repr

end Sys2Proof
end

