-- ==== Sys2Proof/Decode.lean ====
section
/-!
DEFINITION. Decoding: the hardware is a block, commanded from outside, and no row of its opcode table gives bits, so no word spells
a command.
-/
namespace Sys2Proof

/-- The command that a word spells by the table's bits: none, since no row of the table gives any. -/
def decodeTableWord (_nbits _w : Nat) : Option Instr := none

end Sys2Proof
end

