-- ==== Sys2Proof/Machine/Crc.lean ====
section
/-!
DEFINITION. The three cyclic redundancy checks the spec names: CRC-16/CCITT-FALSE over records (R38, R441), CRC-8 with
polynomial 0x07 over short frames, CRC-32C over longer records. Each is the standard bit-serial form.
-/
namespace Sys2Proof.Machine

/-- One most-significant-bit-first step of a `w`-bit CRC register. -/
def crcStepMsb (w poly r : Nat) (b : Bool) : Nat :=
  let top := bitOf r (w - 1)
  let r' := (2 * r) % 2 ^ w
  if top != b then r' ^^^ poly else r'

/-- The bits of a byte, most significant first. -/
def byteBitsMsb (b : Byte) : List Bool :=
  [b.getLsbD 7, b.getLsbD 6, b.getLsbD 5, b.getLsbD 4, b.getLsbD 3, b.getLsbD 2, b.getLsbD 1, b.getLsbD 0]

/-- CRC over a bit string, most significant bit first. -/
def crcBits (w poly init : Nat) (bits : List Bool) : Nat := bits.foldl (crcStepMsb w poly) init

/-- CRC over bytes, most significant bit of each byte first. -/
def crcBytes (w poly init : Nat) (bs : List Byte) : Nat :=
  bs.foldl (fun r b => crcBits w poly r (byteBitsMsb b)) init

/-- CRC-16/CCITT-FALSE: polynomial 0x1021, start 0xFFFF, no reflection, no final inversion (R38). -/
def crc16 (bs : List Byte) : Half := BitVec.ofNat 16 (crcBytes 16 0x1021 0xFFFF bs)

/-- CRC-8 with polynomial 0x07 and start 0. -/
def crc8 (bs : List Byte) : Byte := BitVec.ofNat 8 (crcBytes 8 0x07 0 bs)

/-- One step of the reflected CRC-32C register. -/
def crc32cStep (r : Nat) : Nat :=
  if r % 2 = 1 then (r / 2) ^^^ 0x82F63B78 else r / 2

/-- CRC-32C (Castagnoli): reflected, start and final inversion all ones. -/
def crc32c (bs : List Byte) : Word :=
  let step8 (r : Nat) : Nat :=
    crc32cStep (crc32cStep (crc32cStep (crc32cStep (crc32cStep (crc32cStep (crc32cStep (crc32cStep r)))))))
  BitVec.ofNat 32 (bs.foldl (fun r b => step8 (r ^^^ b.toNat)) 0xFFFFFFFF ^^^ 0xFFFFFFFF)

end Sys2Proof.Machine
end

