-- ==== Sys2Proof/Machine/Sparse.lean ====
section
/-!
DEFINITION. Sparse tables in one canonical form: a list of (key, value) pairs with keys strictly rising and no entry equal
to the value an unlisted key reads as, so that equal tables are equal lists. Registers and memory are held this way.
The read and write laws (Laws/Sparse.lean) hold of every list; the canonical form is an invariant beside them.
-/
namespace Sys2Proof.Machine

/-- The entry at a key, if listed. -/
def sparseFind {α : Type} : List (Nat × α) → Nat → Option α
  | [], _ => none
  | (k, v) :: r, a => if a = k then some v else sparseFind r a

/-- The value at a key: the listed one, else the default. -/
def sparseGet {α : Type} (d : Nat → α) (l : List (Nat × α)) (a : Nat) : α := (sparseFind l a).getD (d a)

/-- Remove a key. -/
def sparseErase {α : Type} : List (Nat × α) → Nat → List (Nat × α)
  | [], _ => []
  | (k, v) :: r, a => if a = k then sparseErase r a else (k, v) :: sparseErase r a

/-- Insert a key that is not listed, in order. -/
def sparseIns {α : Type} : List (Nat × α) → Nat → α → List (Nat × α)
  | [], a, x => [(a, x)]
  | (k, v) :: r, a, x => if a < k then (a, x) :: (k, v) :: r else (k, v) :: sparseIns r a x

/-- Write a value: a value equal to the default is not listed. -/
def sparseSet {α : Type} [DecidableEq α] (d : Nat → α) (l : List (Nat × α)) (a : Nat) (x : α) : List (Nat × α) :=
  if x = d a then sparseErase l a else sparseIns (sparseErase l a) a x

/-- Keys strictly rising from a lower bound, and no entry equal to the default. -/
def sparseWfFrom {α : Type} [DecidableEq α] (d : Nat → α) : Nat → List (Nat × α) → Bool
  | _, [] => true
  | lo, (k, v) :: r => decide (lo ≤ k) && decide (v ≠ d k) && sparseWfFrom d (k + 1) r

/-- The canonical form. -/
def sparseWf {α : Type} [DecidableEq α] (d : Nat → α) (l : List (Nat × α)) : Bool := sparseWfFrom d 0 l

end Sys2Proof.Machine
end

