-- ==== Sys2Proof/Machine/Fp.lean ====
section
/-!
DEFINITION. The number formats of R86 and their roundings (R87, RU of "Ball mode", R95): a finite value is held exactly,
as a sign, a whole mantissa and a power of two, and every rounding is one function of the exact value.
-/
namespace Sys2Proof.Machine

/-- A value of a number format, exact: NaN, an infinity, or (-1)^neg * m * 2^e. -/
inductive Fv
  | nan
  | inf (neg : Bool)
  | fin (neg : Bool) (m : Nat) (e : Int)
  deriving DecidableEq, Repr

/-- What a format's top codes mean (R86): infinities and NaNs as in IEEE 754; one NaN at all ones (E4M3); or all finite. -/
inductive FpTop
  | ieee
  | topNan
  | finite
  deriving DecidableEq, Repr

/-- A binary format: exponent bits, mantissa bits, bias. -/
structure FpFmt where
  eb : Nat
  mb : Nat
  bias : Nat
  top : FpTop
  deriving DecidableEq, Repr

def fp64 : FpFmt := ⟨11, 52, 1023, .ieee⟩
def fp32 : FpFmt := ⟨8, 23, 127, .ieee⟩
def bf16 : FpFmt := ⟨8, 7, 127, .ieee⟩
def fp16 : FpFmt := ⟨5, 10, 15, .ieee⟩
def e5m2 : FpFmt := ⟨5, 2, 15, .ieee⟩
def e4m3 : FpFmt := ⟨4, 3, 7, .topNan⟩
def e3m2 : FpFmt := ⟨3, 2, 3, .finite⟩
def e2m3 : FpFmt := ⟨2, 3, 1, .finite⟩
def e2m1 : FpFmt := ⟨2, 1, 1, .finite⟩

/-- Bits of a code. -/
def FpFmt.width (f : FpFmt) : Nat := 1 + f.eb + f.mb

/-- The magnitude code of the largest finite value. -/
def FpFmt.maxMag (f : FpFmt) : Nat :=
  match f.top with
  | .ieee => (2 ^ f.eb - 1) * 2 ^ f.mb - 1
  | .topNan => 2 ^ (f.eb + f.mb) - 2
  | .finite => 2 ^ (f.eb + f.mb) - 1

/-- The canonical NaN (R87); the MX element types have none and write 0. -/
def FpFmt.nanCode (f : FpFmt) : Nat :=
  match f.top with
  | .ieee => (2 ^ f.eb - 1) * 2 ^ f.mb + 2 ^ (f.mb - 1)
  | .topNan => 2 ^ (f.eb + f.mb) - 1
  | .finite => 0

/-- The sign bit in place. -/
def FpFmt.sign (f : FpFmt) (neg : Bool) : Nat := if neg then 2 ^ (f.eb + f.mb) else 0

/-- The value of a code (R86). -/
def FpFmt.dec (f : FpFmt) (bits : Nat) : Fv :=
  let neg := bitOf bits (f.eb + f.mb)
  let mag := bits % 2 ^ (f.eb + f.mb)
  let ex := mag / 2 ^ f.mb
  let man := mag % 2 ^ f.mb
  if f.maxMag < mag then
    (if f.top = .ieee ∧ man = 0 then .inf neg else .nan)
  else if ex = 0 then .fin neg man (1 - (f.bias : Int) - f.mb)
  else .fin neg (2 ^ f.mb + man) ((ex : Int) - f.bias - f.mb)

/-- Rounding directions: to nearest even, toward plus infinity, toward minus infinity. -/
inductive Rnd
  | rne
  | up
  | down
  deriving DecidableEq, Repr

/-- `m / 2^k` rounded, and whether anything was removed. -/
def roundShift (r : Rnd) (neg : Bool) (m k : Nat) : Nat × Bool :=
  let q := m / 2 ^ k
  let rem := m % 2 ^ k
  let away := match r with
    | .rne => decide (2 ^ k < 2 * rem) || (decide (2 * rem = 2 ^ k) && q % 2 = 1)
    | .up => rem ≠ 0 && !neg
    | .down => rem ≠ 0 && neg
  (if away then q + 1 else q, rem ≠ 0)

/-- The weight exponent of the last mantissa place of a format at the magnitude m * 2^e. -/
def FpFmt.quantum (f : FpFmt) (m : Nat) (e : Int) : Int :=
  max ((Nat.log2 m : Int) + e - f.mb) (1 - (f.bias : Int) - f.mb)

/-- The code of an overflowed magnitude (R87): infinity where the format has one, unless the rounding points inward;
the largest finite value where it has none. -/
def FpFmt.overflow (f : FpFmt) (r : Rnd) (neg : Bool) : Nat :=
  let inward := match r with
    | .rne => false
    | .up => neg
    | .down => !neg
  f.sign neg + (if f.top = .ieee ∧ !inward then (2 ^ f.eb - 1) * 2 ^ f.mb else f.maxMag)

/-- A finite exact value rounded into a format: the code, and whether the rounding was inexact. -/
def FpFmt.roundFin (f : FpFmt) (r : Rnd) (neg : Bool) (m : Nat) (e : Int) : Nat × Bool :=
  if m = 0 then (f.sign neg, false) else
  let q := f.quantum m e
  let (mant, inexact) := if q ≤ e then (m * 2 ^ (e - q).toNat, false) else roundShift r neg m (q - e).toNat
  let big := mant = 2 ^ (f.mb + 1)
  let mant' := if big then 2 ^ f.mb else mant
  let q' := if big then q + 1 else q
  let mag := if mant' < 2 ^ f.mb then mant' else (q' + f.bias + f.mb).toNat * 2 ^ f.mb + (mant' - 2 ^ f.mb)
  if f.maxMag < mag then (f.overflow r neg, true) else (f.sign neg + mag, inexact)

/-- An exact value rounded into a format, with the inexact mark. -/
def FpFmt.enc2 (f : FpFmt) (r : Rnd) : Fv → Nat × Bool
  | .nan => (f.nanCode, false)
  | .inf neg => (if f.top = .ieee then f.sign neg + (2 ^ f.eb - 1) * 2 ^ f.mb else f.sign neg + f.maxMag, false)
  | .fin neg m e => f.roundFin r neg m e

/-- An exact value rounded into a format. -/
def FpFmt.enc (f : FpFmt) (r : Rnd) (x : Fv) : Nat := (f.enc2 r x).1

/-- Is a code a NaN? -/
def FpFmt.isNan (f : FpFmt) (bits : Nat) : Bool := f.dec bits == .nan

/-! ## Exact arithmetic -/

/-- Zero. -/
def Fv.zero : Fv := .fin false 0 0

/-- An integer. -/
def Fv.ofInt (i : Int) : Fv := .fin (decide (i < 0)) i.natAbs 0

/-- A natural number. -/
def Fv.ofNat (n : Nat) : Fv := .fin false n 0

/-- 2^k. -/
def Fv.pow2 (k : Int) : Fv := .fin false 1 k

/-- The signed mantissa of a finite value at the exponent `e0`, which is not above its own. -/
def Fv.at (neg : Bool) (m : Nat) (e e0 : Int) : Int :=
  let x := m * 2 ^ (e - e0).toNat
  if neg then -(x : Int) else x

/-- Exact sum; a zero sum of two finite values is plus zero unless both are minus zero. -/
def Fv.add : Fv → Fv → Fv
  | .nan, _ => .nan
  | _, .nan => .nan
  | .inf a, .inf b => if a = b then .inf a else .nan
  | .inf a, .fin .. => .inf a
  | .fin .., .inf b => .inf b
  | .fin na ma ea, .fin nb mb eb =>
    let e := min ea eb
    let s := Fv.at na ma ea e + Fv.at nb mb eb e
    if s = 0 then .fin (na && nb) 0 e else .fin (decide (s < 0)) s.natAbs e

/-- Negation. -/
def Fv.neg : Fv → Fv
  | .nan => .nan
  | .inf a => .inf (!a)
  | .fin a m e => .fin (!a) m e

/-- Magnitude. -/
def Fv.abs : Fv → Fv
  | .nan => .nan
  | .inf _ => .inf false
  | .fin _ m e => .fin false m e

/-- Exact difference. -/
def Fv.sub (a b : Fv) : Fv := a.add b.neg

/-- Is it a zero? -/
def Fv.isZero : Fv → Bool
  | .fin _ m _ => m = 0
  | _ => false

/-- Is it finite? -/
def Fv.isFin : Fv → Bool
  | .fin .. => true
  | _ => false

/-- The sign. -/
def Fv.isNeg : Fv → Bool
  | .nan => false
  | .inf a => a
  | .fin a _ _ => a

/-- Exact product. -/
def Fv.mul : Fv → Fv → Fv
  | .nan, _ => .nan
  | _, .nan => .nan
  | .inf a, .inf b => .inf (a != b)
  | .inf a, .fin b m _ => if m = 0 then .nan else .inf (a != b)
  | .fin b m _, .inf a => if m = 0 then .nan else .inf (a != b)
  | .fin a m e, .fin b k f => .fin (a != b) (m * k) (e + f)

/-- Times 2^k. -/
def Fv.scale (x : Fv) (k : Int) : Fv :=
  match x with
  | .fin a m e => .fin a m (e + k)
  | y => y

/-- Quotient, exact to 130 bits with a sticky last bit, so that it rounds correctly into every format. -/
def Fv.div : Fv → Fv → Fv
  | .nan, _ => .nan
  | _, .nan => .nan
  | .inf _, .inf _ => .nan
  | .inf a, .fin b _ _ => .inf (a != b)
  | .fin a _ _, .inf b => .fin (a != b) 0 0
  | .fin a m e, .fin b k f =>
    if k = 0 then (if m = 0 then .nan else .inf (a != b)) else
    let sh := 130 + Nat.log2 k
    let q := m * 2 ^ sh / k
    let sticky := if m * 2 ^ sh % k = 0 then 0 else 1
    .fin (a != b) (2 * q + sticky) (e - f - sh - 1)

/-- Integer square root by one binary digit a step, from the given bit down. -/
def isqrtGo (n : Nat) : Nat → Nat → Nat
  | 0, r => r
  | b + 1, r => isqrtGo n b (if (r + 2 ^ b) * (r + 2 ^ b) ≤ n then r + 2 ^ b else r)

/-- Integer square root. -/
def isqrt (n : Nat) : Nat := isqrtGo n (Nat.log2 n / 2 + 1) 0

/-- Square root, with a sticky last bit so that it rounds correctly. -/
def Fv.sqrt : Fv → Fv
  | .nan => .nan
  | .inf a => if a then .nan else .inf false
  | .fin a m e =>
    if m = 0 then .fin a 0 0 else if a then .nan else
    let odd := (e % 2).toNat
    let n := m * 2 ^ odd * 2 ^ 264
    let r := isqrt n
    .fin false (2 * r + (if r * r = n then 0 else 1)) ((e - odd) / 2 - 133)

/-- Strictly less, false where either is NaN. -/
def Fv.lt : Fv → Fv → Bool
  | .nan, _ => false
  | _, .nan => false
  | .inf a, .inf b => a && !b
  | .inf a, .fin .. => a
  | .fin .., .inf b => !b
  | .fin na ma ea, .fin nb mb eb => decide (Fv.at na ma ea (min ea eb) < Fv.at nb mb eb (min ea eb))

/-- At most, false where either is NaN. -/
def Fv.le (a b : Fv) : Bool := a != .nan && b != .nan && !b.lt a

/-- The larger (NaN if either is). -/
def Fv.max (a b : Fv) : Fv := if a == .nan || b == .nan then .nan else if a.lt b then b else a

/-- The smaller (NaN if either is). -/
def Fv.min (a b : Fv) : Fv := if a == .nan || b == .nan then .nan else if b.lt a then b else a

/-- The largest whole number not above a finite value. -/
def Fv.floor : Fv → Int
  | .fin a m e =>
    let x : Int := if a then -(m : Int) else m
    if 0 ≤ e then x * 2 ^ e.toNat else x / 2 ^ (-e).toNat
  | _ => 0

/-- A finite value rounded to the nearest whole number, ties to even. -/
def Fv.nearest : Fv → Int
  | .fin a m e =>
    let n := if 0 ≤ e then m * 2 ^ e.toNat else (roundShift .rne false m (-e).toNat).1
    if a then -(n : Int) else n
  | _ => 0

/-- One unit in the last place of a format at a finite value. -/
def FpFmt.ulp (f : FpFmt) : Fv → Fv
  | .fin _ m e => .fin false 1 (if m = 0 then 1 - (f.bias : Int) - f.mb else f.quantum m e)
  | x => x.abs

/-! ## FP32, the common case -/

/-- The value of an FP32 code. -/
def f32 (b : Nat) : Fv := fp32.dec b

/-- Round to FP32, nearest even. -/
def rn32 (x : Fv) : Nat := fp32.enc .rne x

/-- Round to FP32, upward. -/
def ru32 (x : Fv) : Nat := fp32.enc .up x

/-- FP32 sum. -/
def add32 (a b : Nat) : Nat := rn32 ((f32 a).add (f32 b))

/-- FP32 difference. -/
def sub32 (a b : Nat) : Nat := rn32 ((f32 a).sub (f32 b))

/-- FP32 product. -/
def mul32 (a b : Nat) : Nat := rn32 ((f32 a).mul (f32 b))

/-- FP32 quotient. -/
def div32 (a b : Nat) : Nat := rn32 ((f32 a).div (f32 b))

/-- FP32 square root. -/
def sqrt32 (a : Nat) : Nat := rn32 (f32 a).sqrt

/-- FP32 negation. -/
def neg32 (a : Nat) : Nat := rn32 (f32 a).neg

/-- FP32 magnitude. -/
def abs32 (a : Nat) : Nat := rn32 (f32 a).abs

/-- FP32 order. -/
def lt32 (a b : Nat) : Bool := (f32 a).lt (f32 b)

/-- The FP32 NaN. -/
def nan32 : Nat := 0x7FC00000

/-- Plus infinity in FP32. -/
def inf32 : Nat := 0x7F800000

/-- Is an FP32 code not finite? -/
def nonfin32 (a : Nat) : Bool := !(f32 a).isFin

/-- Round upward to FP16 (RU of "Ball mode"): never below the exact value. -/
def ru16 (x : Fv) : Nat := fp16.enc .up x

/-- The value of an FP16 code. -/
def f16 (b : Nat) : Fv := fp16.dec b

end Sys2Proof.Machine
end

