-- ==== Sys2Proof/Machine/RegTable.lean ====
section
/-!
DEFINITION. The register tables of the spec's chapters as data: for every block-specific register its page and offset,
its width, its access masks (R440) and its reset value, and under its own name its address within the register window
(page * 4096 + offset, R427). The common header (R434) is the table `headerRows`. Bits in no mask are reserved (R430).
The tables follow R76, R78, R105, R148 to R150, R189, R193, R199, R202, R207, R209, R219, R224, R233, R236, R276 to
R278, R305, R326, R327, R348, R349, R380, R403, R425, R426 and R445 to R450.
-/
namespace Sys2Proof.Machine

/-- One register, or a run of equal registers, of a page (R430, R440). -/
structure RegRow where
  off : Nat
  count : Nat
  stride : Nat
  wide : Bool
  reset : Nat
  rw : Nat
  rwl : Nat
  w1c : Nat
  w1s : Nat
  wo : Nat
  ro : Nat
  counter : Bool
  deriving DecidableEq, Repr

/-- A wholly read-only register (R440: a write is rejected). -/
def rRO (off count stride : Nat) (wide : Bool) (reset : Nat) (counter : Bool) : RegRow :=
  ⟨off, count, stride, wide, reset, 0, 0, 0, 0, 0, 0, counter⟩

/-- A register with writable fields, given by its masks. -/
def rMix (off count stride : Nat) (wide : Bool) (reset rw rwl w1c w1s wo ro : Nat) : RegRow :=
  ⟨off, count, stride, wide, reset, rw, rwl, w1c, w1s, wo, ro, false⟩

namespace Reg

/-- Address of GLB_STS. -/
def GLB_STS : Nat := 0x100
/-- Address of GLB_RESET. -/
def GLB_RESET : Nat := 0x104
/-- Address of GLB_DECODE_ERR. -/
def GLB_DECODE_ERR : Nat := 0x108
/-- Address of GLB_WR_REJ. -/
def GLB_WR_REJ : Nat := 0x10C
/-- Address of GLB_UPTIME. -/
def GLB_UPTIME : Nat := 0x110
/-- Address of GLB_SCRATCH. -/
def GLB_SCRATCH : Nat := 0x118
/-- Address of GLB_HW_REV. -/
def GLB_HW_REV : Nat := 0x11C
/-- Address of TIM_STS. -/
def TIM_STS : Nat := 0x1100
/-- Address of TIM_CTL. -/
def TIM_CTL : Nat := 0x1104
/-- Address of TIM_PTP_CFG. -/
def TIM_PTP_CFG : Nat := 0x1108
/-- Address of TIM_NOW. -/
def TIM_NOW : Nat := 0x1110
/-- Address of TIM_PTP_OFFSET. -/
def TIM_PTP_OFFSET : Nat := 0x1118
/-- Address of TIM_CHAIN_OFFSET. -/
def TIM_CHAIN_OFFSET : Nat := 0x111C
/-- Address of TIM_HOLD_STAMP. -/
def TIM_HOLD_STAMP : Nat := 0x1120
/-- Address of TIM_UTC_OFFSET. -/
def TIM_UTC_OFFSET : Nat := 0x1128
/-- Address of TIM_STEP_CNT. -/
def TIM_STEP_CNT : Nat := 0x112C
/-- Address of TIM_DISAGREE_CNT. -/
def TIM_DISAGREE_CNT : Nat := 0x1130
/-- Address of EVT_STS. -/
def EVT_STS : Nat := 0x2100
/-- Address of EVT_CTL. -/
def EVT_CTL : Nat := 0x2104
/-- Address of EVT_HEAD. -/
def EVT_HEAD : Nat := 0x2108
/-- Address of EVT_LOST. -/
def EVT_LOST : Nat := 0x210C
/-- Address of EVT_COAL_MS. -/
def EVT_COAL_MS : Nat := 0x2110
/-- Address of EVT_SEL. -/
def EVT_SEL : Nat := 0x2114
/-- Address of EVT_DATA. -/
def EVT_DATA (n : Nat) : Nat := 0x2120 + 0x4 * n
/-- Address of EVT_IRQ_SUM. -/
def EVT_IRQ_SUM (n : Nat) : Nat := 0x2180 + 0x4 * n
/-- Address of EVT_ROUTE_BASE. -/
def EVT_ROUTE_BASE (n : Nat) : Nat := 0x2400 + 0x4 * n
/-- Address of EVT_ROUTE_PULSE. -/
def EVT_ROUTE_PULSE (n : Nat) : Nat := 0x2500 + 0x4 * n
/-- Address of EVT_ROUTE_LAST. -/
def EVT_ROUTE_LAST : Nat := 0x2514
/-- Address of AUD_STS. -/
def AUD_STS : Nat := 0x3100
/-- Address of AUD_CTL. -/
def AUD_CTL : Nat := 0x3104
/-- Address of AUD_HEAD. -/
def AUD_HEAD : Nat := 0x3108
/-- Address of AUD_LOST. -/
def AUD_LOST : Nat := 0x310C
/-- Address of AUD_PD_FILL. -/
def AUD_PD_FILL : Nat := 0x3110
/-- Address of AUD_SEL. -/
def AUD_SEL : Nat := 0x3114
/-- Address of AUD_DATA. -/
def AUD_DATA (n : Nat) : Nat := 0x3120 + 0x4 * n
/-- Address of AUD_JNL_SEQ. -/
def AUD_JNL_SEQ : Nat := 0x3140
/-- Address of OPT_ORDER. -/
def OPT_ORDER : Nat := 0x4100
/-- Address of OPT_ARRAYS. -/
def OPT_ARRAYS : Nat := 0x4104
/-- Address of OPT_PORTS. -/
def OPT_PORTS : Nat := 0x4108
/-- Address of OPT_PMAX. -/
def OPT_PMAX : Nat := 0x410C
/-- Address of OPT_SEAM. -/
def OPT_SEAM : Nat := 0x4110
/-- Address of OPT_BUDGET_LIQ. -/
def OPT_BUDGET_LIQ : Nat := 0x4114
/-- Address of OPT_BUDGET_AIR. -/
def OPT_BUDGET_AIR : Nat := 0x4118
/-- Address of OPT_FUSE_REV. -/
def OPT_FUSE_REV : Nat := 0x411C
/-- Address of PWR_STS. -/
def PWR_STS : Nat := 0x5100
/-- Address of PWR_CTL. -/
def PWR_CTL : Nat := 0x5104
/-- Address of PWR_BUDGET_PEAK_LIQ. -/
def PWR_BUDGET_PEAK_LIQ : Nat := 0x5108
/-- Address of PWR_BUDGET_MEAN_LIQ. -/
def PWR_BUDGET_MEAN_LIQ : Nat := 0x510C
/-- Address of PWR_BUDGET_PEAK_AIR. -/
def PWR_BUDGET_PEAK_AIR : Nat := 0x5110
/-- Address of PWR_BUDGET_MEAN_AIR. -/
def PWR_BUDGET_MEAN_AIR : Nat := 0x5114
/-- Address of PWR_PROFILE_PEAK. -/
def PWR_PROFILE_PEAK : Nat := 0x5118
/-- Address of PWR_PROFILE_MEAN. -/
def PWR_PROFILE_MEAN : Nat := 0x511C
/-- Address of PWR_ICORE. -/
def PWR_ICORE : Nat := 0x5120
/-- Address of PWR_ICORE_MAX. -/
def PWR_ICORE_MAX : Nat := 0x5124
/-- Address of PWR_INPUT. -/
def PWR_INPUT : Nat := 0x5128
/-- Address of PWR_TEMP_CD. -/
def PWR_TEMP_CD (n : Nat) : Nat := 0x5130 + 0x4 * n
/-- Address of PWR_TEMP_BASE. -/
def PWR_TEMP_BASE : Nat := 0x5140
/-- Address of PWR_TEMP_PULSE. -/
def PWR_TEMP_PULSE : Nat := 0x5144
/-- Address of PWR_DROOP_CNT. -/
def PWR_DROOP_CNT : Nat := 0x5148
/-- Address of SEQ_STS. -/
def SEQ_STS : Nat := 0x10100
/-- Address of SEQ_SWAP. -/
def SEQ_SWAP : Nat := 0x10104
/-- Address of SEQ_LOAD. -/
def SEQ_LOAD : Nat := 0x10108
/-- Address of SEQ_LOAD_STS. -/
def SEQ_LOAD_STS : Nat := 0x1010C
/-- Address of SEQ_WARM. -/
def SEQ_WARM : Nat := 0x10110
/-- Address of SEQ_FAILED. -/
def SEQ_FAILED : Nat := 0x10114
/-- Address of SEQ_FRAME. -/
def SEQ_FRAME : Nat := 0x10118
/-- Address of SEQ_OVERRUN_CNT. -/
def SEQ_OVERRUN_CNT : Nat := 0x10120
/-- Address of SEQ_SKIP_CNT. -/
def SEQ_SKIP_CNT : Nat := 0x10124
/-- Address of SEQ_LATE_MAX. -/
def SEQ_LATE_MAX : Nat := 0x10128
/-- Address of SEQ_STRETCH_CNT. -/
def SEQ_STRETCH_CNT : Nat := 0x1012C
/-- Address of SEQ_HANDOFF_LATE. -/
def SEQ_HANDOFF_LATE : Nat := 0x10130
/-- Address of SEQ_WITHHELD. -/
def SEQ_WITHHELD : Nat := 0x10134
/-- Address of SEQ_LOAD_ADDR. -/
def SEQ_LOAD_ADDR : Nat := 0x11100
/-- Address of SEQ_LOAD_LEN. -/
def SEQ_LOAD_LEN : Nat := 0x11108
/-- Address of SEQ_VARIANTS. -/
def SEQ_VARIANTS (n : Nat) : Nat := 0x12100 + 0x4 * n
/-- Address of MAC_STS. -/
def MAC_STS (n : Nat) : Nat := (0x20 + n) * 4096 + 0x100
/-- Address of MAC_RES_CNT. -/
def MAC_RES_CNT (n : Nat) : Nat := (0x20 + n) * 4096 + 0x104
/-- Address of MAC_FAIL_STAMP. -/
def MAC_FAIL_STAMP (n : Nat) : Nat := (0x20 + n) * 4096 + 0x108
/-- Address of MAC_INF_CNT. -/
def MAC_INF_CNT (n : Nat) : Nat := (0x20 + n) * 4096 + 0x110
/-- Address of MAC_CLASH_CNT. -/
def MAC_CLASH_CNT (n : Nat) : Nat := (0x20 + n) * 4096 + 0x114
/-- Address of MAC_DEPTH_CNT. -/
def MAC_DEPTH_CNT (n : Nat) : Nat := (0x20 + n) * 4096 + 0x118
/-- Address of MAC_EARLY_CNT. -/
def MAC_EARLY_CNT (n : Nat) : Nat := (0x20 + n) * 4096 + 0x11C
/-- Address of MAC_NAN_CNT. -/
def MAC_NAN_CNT (n : Nat) : Nat := (0x20 + n) * 4096 + 0x120
/-- Address of VEC_STS. -/
def VEC_STS (n : Nat) : Nat := (0x30 + n) * 4096 + 0x100
/-- Address of VEC_RES_CNT. -/
def VEC_RES_CNT (n : Nat) : Nat := (0x30 + n) * 4096 + 0x104
/-- Address of VEC_ECC_CE. -/
def VEC_ECC_CE (n : Nat) : Nat := (0x30 + n) * 4096 + 0x108
/-- Address of VEC_ECC_UE. -/
def VEC_ECC_UE (n : Nat) : Nat := (0x30 + n) * 4096 + 0x10C
/-- Address of VEC_INF_CNT. -/
def VEC_INF_CNT (n : Nat) : Nat := (0x30 + n) * 4096 + 0x110
/-- Address of VEC_TAB_REV. -/
def VEC_TAB_REV (n : Nat) : Nat := (0x30 + n) * 4096 + 0x114
/-- Address of ENG_STS. -/
def ENG_STS (n : Nat) : Nat := (0x40 + n) * 4096 + 0x100
/-- Address of ENG_OPS_CNT. -/
def ENG_OPS_CNT (n : Nat) : Nat := (0x40 + n) * 4096 + 0x104
/-- Address of ENG_DROP_CNT. -/
def ENG_DROP_CNT (n : Nat) : Nat := (0x40 + n) * 4096 + 0x108
/-- Address of ENG_POISON_CNT. -/
def ENG_POISON_CNT (n : Nat) : Nat := (0x40 + n) * 4096 + 0x10C
/-- Address of ENG_NONFIN_CNT. -/
def ENG_NONFIN_CNT (n : Nat) : Nat := (0x40 + n) * 4096 + 0x110
/-- Address of ENG_SPEC_CNT. -/
def ENG_SPEC_CNT (n : Nat) : Nat := (0x40 + n) * 4096 + 0x114
/-- Address of ENG_DESC_CNT. -/
def ENG_DESC_CNT (n : Nat) : Nat := (0x40 + n) * 4096 + 0x118
/-- Address of ENG_LAST_STAMP. -/
def ENG_LAST_STAMP (n : Nat) : Nat := (0x40 + n) * 4096 + 0x120
/-- Address of DMA_ASYNC_DEPTH. -/
def DMA_ASYNC_DEPTH (n : Nat) : Nat := (0x49 + n) * 4096 + 0x130
/-- Address of DMA_ASYNC_DONE. -/
def DMA_ASYNC_DONE (n : Nat) : Nat := (0x49 + n) * 4096 + 0x134
/-- Address of SHM_STS. -/
def SHM_STS : Nat := 0x50100
/-- Address of SHM_ECC_CE. -/
def SHM_ECC_CE : Nat := 0x50104
/-- Address of SHM_ECC_UE. -/
def SHM_ECC_UE : Nat := 0x50108
/-- Address of SHM_POISON_RD. -/
def SHM_POISON_RD : Nat := 0x5010C
/-- Address of SHM_APAR_CNT. -/
def SHM_APAR_CNT : Nat := 0x50110
/-- Address of SHM_WIN_REJ. -/
def SHM_WIN_REJ : Nat := 0x50114
/-- Address of SHM_ERR_ADDR. -/
def SHM_ERR_ADDR : Nat := 0x50118
/-- Address of SHM_ERR_STAMP. -/
def SHM_ERR_STAMP : Nat := 0x50120
/-- Address of SHM_SCRUB_CTL. -/
def SHM_SCRUB_CTL : Nat := 0x51100
/-- Address of SHM_SCRUB_PASS_CNT. -/
def SHM_SCRUB_PASS_CNT : Nat := 0x51104
/-- Address of SHM_SCRUB_MAX_MS. -/
def SHM_SCRUB_MAX_MS : Nat := 0x51108
/-- Address of SHM_BANK_CE. -/
def SHM_BANK_CE (n : Nat) : Nat := 0x52100 + 0x4 * n
/-- Address of WIN_GRANT. -/
def WIN_GRANT (n : Nat) : Nat := 0x53100 + 0x4 * n
/-- Address of EGR_DROP. -/
def EGR_DROP : Nat := 0x53110
/-- Address of ING_CARRY. -/
def ING_CARRY : Nat := 0x53114
/-- Address of ING_DROP. -/
def ING_DROP (n : Nat) : Nat := 0x53200 + 0x4 * n
/-- Address of ING_STS. -/
def ING_STS : Nat := 0x53300
/-- Address of ING_OPS_CNT. -/
def ING_OPS_CNT : Nat := 0x53304
/-- Address of ING_DROP_CNT. -/
def ING_DROP_CNT : Nat := 0x53308
/-- Address of ING_POISON_CNT. -/
def ING_POISON_CNT : Nat := 0x5330C
/-- Address of ING_NONFIN_CNT. -/
def ING_NONFIN_CNT : Nat := 0x53310
/-- Address of ING_SPEC_CNT. -/
def ING_SPEC_CNT : Nat := 0x53314
/-- Address of ING_DESC_CNT. -/
def ING_DESC_CNT : Nat := 0x53318
/-- Address of ING_LAST_STAMP. -/
def ING_LAST_STAMP : Nat := 0x53320
/-- Address of EGR_STS. -/
def EGR_STS : Nat := 0x53340
/-- Address of EGR_OPS_CNT. -/
def EGR_OPS_CNT : Nat := 0x53344
/-- Address of EGR_DROP_CNT. -/
def EGR_DROP_CNT : Nat := 0x53348
/-- Address of EGR_POISON_CNT. -/
def EGR_POISON_CNT : Nat := 0x5334C
/-- Address of EGR_NONFIN_CNT. -/
def EGR_NONFIN_CNT : Nat := 0x53350
/-- Address of EGR_SPEC_CNT. -/
def EGR_SPEC_CNT : Nat := 0x53354
/-- Address of EGR_DESC_CNT. -/
def EGR_DESC_CNT : Nat := 0x53358
/-- Address of EGR_LAST_STAMP. -/
def EGR_LAST_STAMP : Nat := 0x53360
/-- Address of DDC_STS. -/
def DDC_STS (n : Nat) : Nat := (0x58 + n) * 4096 + 0x100
/-- Address of DDC_CAP. -/
def DDC_CAP (n : Nat) : Nat := (0x58 + n) * 4096 + 0x104
/-- Address of DDC_ECC_CE. -/
def DDC_ECC_CE (n : Nat) : Nat := (0x58 + n) * 4096 + 0x108
/-- Address of DDC_ECC_UE. -/
def DDC_ECC_UE (n : Nat) : Nat := (0x58 + n) * 4096 + 0x10C
/-- Address of DDC_HOLE_CNT. -/
def DDC_HOLE_CNT (n : Nat) : Nat := (0x58 + n) * 4096 + 0x110
/-- Address of DDC_TEMP. -/
def DDC_TEMP (n : Nat) : Nat := (0x58 + n) * 4096 + 0x114
/-- Address of DDC_ERR_ADDR. -/
def DDC_ERR_ADDR (n : Nat) : Nat := (0x58 + n) * 4096 + 0x118
/-- Address of FR_CTL. -/
def FR_CTL : Nat := 0x58200
/-- Address of FR_STS. -/
def FR_STS : Nat := 0x58204
/-- Address of FR_POST. -/
def FR_POST : Nat := 0x58208
/-- Address of FR_SLOTS. -/
def FR_SLOTS : Nat := 0x5820C
/-- Address of FR_TRIG_FRAME. -/
def FR_TRIG_FRAME : Nat := 0x58210
/-- Address of FR_HELD_FIRST. -/
def FR_HELD_FIRST : Nat := 0x58218
/-- Address of FR_HELD_LAST. -/
def FR_HELD_LAST : Nat := 0x58220
/-- Address of FR_LATE_CNT. -/
def FR_LATE_CNT : Nat := 0x58228
/-- Address of FR_DUP_CNT. -/
def FR_DUP_CNT : Nat := 0x5822C
/-- Address of FR_MISS_CNT. -/
def FR_MISS_CNT : Nat := 0x58230
/-- Address of FR_TRIG_CNT. -/
def FR_TRIG_CNT : Nat := 0x58234
/-- Address of STR_STS. -/
def STR_STS (n : Nat) : Nat := (0x60 + n) * 4096 + 0x100
/-- Address of STR_CTL. -/
def STR_CTL (n : Nat) : Nat := (0x60 + n) * 4096 + 0x104
/-- Address of STR_TRAY_ID. -/
def STR_TRAY_ID (n : Nat) : Nat := (0x60 + n) * 4096 + 0x108
/-- Address of STR_AGG_SN. -/
def STR_AGG_SN (n : Nat) : Nat := (0x60 + n) * 4096 + 0x110
/-- Address of STR_ADMIT_STAMP. -/
def STR_ADMIT_STAMP (n : Nat) : Nat := (0x60 + n) * 4096 + 0x118
/-- Address of STR_RX_FLITS. -/
def STR_RX_FLITS (n : Nat) : Nat := (0x60 + n) * 4096 + 0x120
/-- Address of STR_TX_FLITS. -/
def STR_TX_FLITS (n : Nat) : Nat := (0x60 + n) * 4096 + 0x124
/-- Address of STR_FEC_CE. -/
def STR_FEC_CE (n : Nat) : Nat := (0x60 + n) * 4096 + 0x128
/-- Address of STR_FEC_UE. -/
def STR_FEC_UE (n : Nat) : Nat := (0x60 + n) * 4096 + 0x12C
/-- Address of STR_HCRC_ERR. -/
def STR_HCRC_ERR (n : Nat) : Nat := (0x60 + n) * 4096 + 0x130
/-- Address of STR_BAD_TYPE. -/
def STR_BAD_TYPE (n : Nat) : Nat := (0x60 + n) * 4096 + 0x134
/-- Address of STR_PRE_ADMIT. -/
def STR_PRE_ADMIT (n : Nat) : Nat := (0x60 + n) * 4096 + 0x138
/-- Address of STR_LATE. -/
def STR_LATE (n : Nat) : Nat := (0x60 + n) * 4096 + 0x13C
/-- Address of STR_TIME_OFFSET. -/
def STR_TIME_OFFSET (n : Nat) : Nat := (0x60 + n) * 4096 + 0x140
/-- Address of STR_LINK_DELAY. -/
def STR_LINK_DELAY (n : Nat) : Nat := (0x60 + n) * 4096 + 0x144
/-- Address of STR_LAPSE. -/
def STR_LAPSE (n : Nat) : Nat := (0x60 + n) * 4096 + 0x148
/-- Address of STR_BURST_CFG. -/
def STR_BURST_CFG (n : Nat) : Nat := (0x60 + n) * 4096 + 0x150
/-- Address of STR_BURST_RAILS. -/
def STR_BURST_RAILS (n : Nat) : Nat := (0x60 + n) * 4096 + 0x158
/-- Address of STR_BURST_START. -/
def STR_BURST_START (n : Nat) : Nat := (0x60 + n) * 4096 + 0x160
/-- Address of STR_BURST_STS. -/
def STR_BURST_STS (n : Nat) : Nat := (0x60 + n) * 4096 + 0x168
/-- Address of CHN_STS. -/
def CHN_STS (n : Nat) : Nat := (0x80 + n) * 4096 + 0x100
/-- Address of CHN_CTL. -/
def CHN_CTL (n : Nat) : Nat := (0x80 + n) * 4096 + 0x104
/-- Address of CHN_PEER_SN. -/
def CHN_PEER_SN (n : Nat) : Nat := (0x80 + n) * 4096 + 0x108
/-- Address of CHN_PEER. -/
def CHN_PEER (n : Nat) : Nat := (0x80 + n) * 4096 + 0x110
/-- Address of CHN_DELAY. -/
def CHN_DELAY (n : Nat) : Nat := (0x80 + n) * 4096 + 0x114
/-- Address of CHN_ASYM. -/
def CHN_ASYM (n : Nat) : Nat := (0x80 + n) * 4096 + 0x118
/-- Address of CHN_RX_FRAMES. -/
def CHN_RX_FRAMES (n : Nat) : Nat := (0x80 + n) * 4096 + 0x11C
/-- Address of CHN_TX_FRAMES. -/
def CHN_TX_FRAMES (n : Nat) : Nat := (0x80 + n) * 4096 + 0x120
/-- Address of CHN_FWD. -/
def CHN_FWD (n : Nat) : Nat := (0x80 + n) * 4096 + 0x124
/-- Address of CHN_FEC_CE. -/
def CHN_FEC_CE (n : Nat) : Nat := (0x80 + n) * 4096 + 0x128
/-- Address of CHN_FEC_UE. -/
def CHN_FEC_UE (n : Nat) : Nat := (0x80 + n) * 4096 + 0x12C
/-- Address of CHN_HCRC_ERR. -/
def CHN_HCRC_ERR (n : Nat) : Nat := (0x80 + n) * 4096 + 0x130
/-- Address of CHN_CRC_ERR. -/
def CHN_CRC_ERR (n : Nat) : Nat := (0x80 + n) * 4096 + 0x134
/-- Address of CHN_DUP. -/
def CHN_DUP (n : Nat) : Nat := (0x80 + n) * 4096 + 0x138
/-- Address of CHN_CMIS_TEMP. -/
def CHN_CMIS_TEMP (n : Nat) : Nat := (0x80 + n) * 4096 + 0x140
/-- Address of CHN_CMIS_RXPWR. -/
def CHN_CMIS_RXPWR (n : Nat) : Nat := (0x80 + n) * 4096 + 0x144
/-- Address of CHN_CMIS_FLAGS. -/
def CHN_CMIS_FLAGS (n : Nat) : Nat := (0x80 + n) * 4096 + 0x148
/-- Address of JRJ_STS. -/
def JRJ_STS : Nat := 0x84100
/-- Address of JRJ_CTL. -/
def JRJ_CTL : Nat := 0x84104
/-- Address of JRJ_NODE. -/
def JRJ_NODE : Nat := 0x84108
/-- Address of JRJ_ROOT. -/
def JRJ_ROOT : Nat := 0x8410C
/-- Address of JRJ_LIMIT. -/
def JRJ_LIMIT : Nat := 0x84110
/-- Address of JRJ_CAP. -/
def JRJ_CAP : Nat := 0x84114
/-- Address of JRJ_RAMP. -/
def JRJ_RAMP : Nat := 0x84118
/-- Address of JRJ_ABSORB. -/
def JRJ_ABSORB : Nat := 0x8411C
/-- Address of JRJ_MEMBERS. -/
def JRJ_MEMBERS : Nat := 0x84120
/-- Address of JRJ_SILENT. -/
def JRJ_SILENT : Nat := 0x84124
/-- Address of JRJ_PLAN_VER. -/
def JRJ_PLAN_VER : Nat := 0x84128
/-- Address of JRJ_STEP_KW. -/
def JRJ_STEP_KW : Nat := 0x8412C
/-- Address of JRJ_INCOMPLETE_CNT. -/
def JRJ_INCOMPLETE_CNT : Nat := 0x84130
/-- Address of JRJ_OVERSUB_CNT. -/
def JRJ_OVERSUB_CNT : Nat := 0x84134
/-- Address of JRJ_TRIP_CNT. -/
def JRJ_TRIP_CNT : Nat := 0x84138
/-- Address of JRJ_SHORTFALL_CNT. -/
def JRJ_SHORTFALL_CNT : Nat := 0x8413C
/-- Address of JRJ_SILENT_MAP. -/
def JRJ_SILENT_MAP (n : Nat) : Nat := 0x84180 + 0x4 * n
/-- Address of MGP_STS. -/
def MGP_STS : Nat := 0x88100
/-- Address of MGP_CTL. -/
def MGP_CTL : Nat := 0x88104
/-- Address of MGP_SESS_MAX. -/
def MGP_SESS_MAX : Nat := 0x88108
/-- Address of MGP_TLS_FAIL. -/
def MGP_TLS_FAIL : Nat := 0x8810C
/-- Address of MGP_DB_PORT. -/
def MGP_DB_PORT : Nat := 0x88110
/-- Address of MBX_CFG. -/
def MBX_CFG (n : Nat) : Nat := (0x90 + n / 16) * 4096 + 0x100 + 0x40 * (n % 16)
/-- Address of MBX_STS. -/
def MBX_STS (n : Nat) : Nat := (0x90 + n / 16) * 4096 + 0x104 + 0x40 * (n % 16)
/-- Address of MBX_SEQ. -/
def MBX_SEQ (n : Nat) : Nat := (0x90 + n / 16) * 4096 + 0x108 + 0x40 * (n % 16)
/-- Address of MBX_FETCH_SEQ. -/
def MBX_FETCH_SEQ (n : Nat) : Nat := (0x90 + n / 16) * 4096 + 0x10C + 0x40 * (n % 16)
/-- Address of MBX_ACK. -/
def MBX_ACK (n : Nat) : Nat := (0x90 + n / 16) * 4096 + 0x110 + 0x40 * (n % 16)
/-- Address of MBX_ACK_CODE. -/
def MBX_ACK_CODE (n : Nat) : Nat := (0x90 + n / 16) * 4096 + 0x114 + 0x40 * (n % 16)
/-- Address of MBX_ACK_SEQ. -/
def MBX_ACK_SEQ (n : Nat) : Nat := (0x90 + n / 16) * 4096 + 0x118 + 0x40 * (n % 16)
/-- Address of MBX_COLLIDE_CNT. -/
def MBX_COLLIDE_CNT (n : Nat) : Nat := (0x90 + n / 16) * 4096 + 0x11C + 0x40 * (n % 16)
/-- Address of MBX_POST_STAMP. -/
def MBX_POST_STAMP (n : Nat) : Nat := (0x90 + n / 16) * 4096 + 0x120 + 0x40 * (n % 16)
/-- Address of MBX_ACK_STAMP. -/
def MBX_ACK_STAMP (n : Nat) : Nat := (0x90 + n / 16) * 4096 + 0x128 + 0x40 * (n % 16)
/-- Address of MBX_DSEL. -/
def MBX_DSEL (n : Nat) : Nat := (0x90 + n) * 4096 + 0x800
/-- Address of MBX_WDATA. -/
def MBX_WDATA (n : Nat) : Nat := (0x90 + n) * 4096 + 0x804
/-- Address of MBX_RDATA. -/
def MBX_RDATA (n : Nat) : Nat := (0x90 + n) * 4096 + 0x808
/-- Address of MBX_POST. -/
def MBX_POST (n : Nat) : Nat := (0x90 + n) * 4096 + 0x80C
/-- Address of MBX_FETCH. -/
def MBX_FETCH (n : Nat) : Nat := (0x90 + n) * 4096 + 0x810
/-- Address of SIG_STS. -/
def SIG_STS : Nat := 0xA0100
/-- Address of SIG_JOBS. -/
def SIG_JOBS : Nat := 0xA0104
/-- Address of SIG_VERIFY_FAIL. -/
def SIG_VERIFY_FAIL : Nat := 0xA0108
/-- Address of SIG_TRNG_FAIL_CNT. -/
def SIG_TRNG_FAIL_CNT : Nat := 0xA010C
/-- Address of SIG_SEAL_MAX. -/
def SIG_SEAL_MAX : Nat := 0xA0110
/-- Address of LKT_STS. -/
def LKT_STS : Nat := 0xA1100
/-- Address of LKT_CNT. -/
def LKT_CNT : Nat := 0xA1104
/-- Address of LKT_CNT_PATTERN. -/
def LKT_CNT_PATTERN : Nat := 0xA1108
/-- Address of LKT_SN. -/
def LKT_SN : Nat := 0xA1110
/-- Address of LKT_OWNER_ID. -/
def LKT_OWNER_ID (n : Nat) : Nat := 0xA1120 + 0x4 * n
/-- Address of LKT_AUDIT_ROOT. -/
def LKT_AUDIT_ROOT (n : Nat) : Nat := 0xA1140 + 0x4 * n
/-- Address of LKT_AUDIT_SEQ. -/
def LKT_AUDIT_SEQ : Nat := 0xA1160
/-- Address of LCS_STATE. -/
def LCS_STATE : Nat := 0xA2100
/-- Address of LCS_OPEN. -/
def LCS_OPEN : Nat := 0xA2104
/-- Address of LCS_NONCE. -/
def LCS_NONCE (n : Nat) : Nat := 0xA2110 + 0x4 * n
/-- Address of LCS_NONCE_STAMP. -/
def LCS_NONCE_STAMP : Nat := 0xA2130
/-- Address of LCS_REJ_CNT. -/
def LCS_REJ_CNT : Nat := 0xA2138
/-- Address of HMK_STS. -/
def HMK_STS : Nat := 0xA3100
/-- Address of HMK_CTL. -/
def HMK_CTL : Nat := 0xA3104
/-- Address of HMK_EPOCH. -/
def HMK_EPOCH : Nat := 0xA3108
/-- Address of HMK_CHAIN_SEQ. -/
def HMK_CHAIN_SEQ : Nat := 0xA3110
/-- Address of HMK_ACK. -/
def HMK_ACK : Nat := 0xA3118
/-- Address of HMK_REC_CNT. -/
def HMK_REC_CNT : Nat := 0xA3120
/-- Address of HMK_REC_MAX. -/
def HMK_REC_MAX : Nat := 0xA3124
/-- Address of HMK_RECON_FAIL_CNT. -/
def HMK_RECON_FAIL_CNT : Nat := 0xA3128
/-- Address of HMK_SEAL_LATE_CNT. -/
def HMK_SEAL_LATE_CNT : Nat := 0xA312C
/-- Address of HMK_LOSS_CNT. -/
def HMK_LOSS_CNT : Nat := 0xA3130
/-- Address of HMK_ARCHIVE_FILL. -/
def HMK_ARCHIVE_FILL : Nat := 0xA3134
/-- Address of HMK_POLICY. -/
def HMK_POLICY : Nat := 0xA3138
/-- Address of HMK_RES_MAX. -/
def HMK_RES_MAX : Nat := 0xA313C
/-- Address of HMK_ROOT. -/
def HMK_ROOT (n : Nat) : Nat := 0xA3140 + 0x4 * n
/-- Address of NUG_STS. -/
def NUG_STS : Nat := 0xB0100
/-- Address of NUG_CTL. -/
def NUG_CTL : Nat := 0xB0104
/-- Address of NUG_BOOT. -/
def NUG_BOOT : Nat := 0xB0108
/-- Address of NUG_WDOG. -/
def NUG_WDOG : Nat := 0xB010C
/-- Address of NUG_WDOG_KICK. -/
def NUG_WDOG_KICK : Nat := 0xB0110
/-- Address of NUG_RESTART_CNT. -/
def NUG_RESTART_CNT : Nat := 0xB0114
/-- Address of NUG_REVERT_CNT. -/
def NUG_REVERT_CNT : Nat := 0xB0118
/-- Address of NUG_IMG_ROLLBACK. -/
def NUG_IMG_ROLLBACK : Nat := 0xB011C
/-- Address of NUG_BOOT_STAMP. -/
def NUG_BOOT_STAMP : Nat := 0xB0120
/-- Address of JNL_STS. -/
def JNL_STS : Nat := 0xC0100
/-- Address of JNL_CTL. -/
def JNL_CTL : Nat := 0xC0104
/-- Address of JNL_FILL. -/
def JNL_FILL : Nat := 0xC0108
/-- Address of JNL_COMPACT_AT. -/
def JNL_COMPACT_AT : Nat := 0xC010C
/-- Address of JNL_SEQ. -/
def JNL_SEQ : Nat := 0xC0110
/-- Address of JNL_LIVE. -/
def JNL_LIVE : Nat := 0xC0118
/-- Address of JNL_COMPACT_CNT. -/
def JNL_COMPACT_CNT : Nat := 0xC011C
/-- Address of JNL_REFUSED. -/
def JNL_REFUSED : Nat := 0xC0120
/-- Address of JNL_POCKET_CNT. -/
def JNL_POCKET_CNT : Nat := 0xC0124
/-- Address of JNL_POCKET_LOST. -/
def JNL_POCKET_LOST : Nat := 0xC0128
/-- Address of JNL_CRC_ERR. -/
def JNL_CRC_ERR : Nat := 0xC012C
/-- Address of JNL_HOLDUP. -/
def JNL_HOLDUP : Nat := 0xC0130
/-- Address of JNL_HOLDUP_CAP. -/
def JNL_HOLDUP_CAP : Nat := 0xC0134
/-- Address of JNL_PROG_MAX. -/
def JNL_PROG_MAX : Nat := 0xC0138
/-- Address of JNL_CAMEO_SEQ. -/
def JNL_CAMEO_SEQ : Nat := 0xC0140
/-- Address of JNL_CAMEO_CNT. -/
def JNL_CAMEO_CNT : Nat := 0xC0148
/-- Address of JNL_CAMEO_SKIP. -/
def JNL_CAMEO_SKIP : Nat := 0xC014C
/-- Address of EVR_STS. -/
def EVR_STS : Nat := 0xC1100
/-- Address of EVR_CTL. -/
def EVR_CTL : Nat := 0xC1104
/-- Address of EVR_LAST_1S. -/
def EVR_LAST_1S : Nat := 0xC1108
/-- Address of EVR_REC_CNT. -/
def EVR_REC_CNT : Nat := 0xC1110
/-- Address of EVR_GAP_CNT. -/
def EVR_GAP_CNT : Nat := 0xC1114
/-- Address of EVR_RET_1S. -/
def EVR_RET_1S : Nat := 0xC1118
/-- Address of EVR_RET_1M. -/
def EVR_RET_1M : Nat := 0xC111C
/-- Address of EVR_RET_1H. -/
def EVR_RET_1H : Nat := 0xC1120
/-- Address of PLS_STS. -/
def PLS_STS : Nat := 0x100100
/-- Address of PLS_HOLD_CNT. -/
def PLS_HOLD_CNT : Nat := 0x100104
/-- Address of PLS_HOLD_STAMP. -/
def PLS_HOLD_STAMP : Nat := 0x100108
/-- Address of PLS_PLAN_FRAME. -/
def PLS_PLAN_FRAME : Nat := 0x100110
/-- Address of PLS_PLAN_REJ. -/
def PLS_PLAN_REJ : Nat := 0x100118
/-- Address of PLS_FLOOR_OUT. -/
def PLS_FLOOR_OUT : Nat := 0x10011C
/-- Address of PLS_FLOOR_FORCE. -/
def PLS_FLOOR_FORCE : Nat := 0x100120
/-- Address of PLS_FLOOR_ALL. -/
def PLS_FLOOR_ALL : Nat := 0x100124
/-- Address of PLS_RECT_SP. -/
def PLS_RECT_SP : Nat := 0x100128
/-- Address of PLS_PLOAD. -/
def PLS_PLOAD : Nat := 0x10012C
/-- Address of PLS_S_A. -/
def PLS_S_A : Nat := 0x100130
/-- Address of PLS_S_B. -/
def PLS_S_B : Nat := 0x100134
/-- Address of PTB_STS. -/
def PTB_STS : Nat := 0x101100
/-- Address of PTB_TIME. -/
def PTB_TIME : Nat := 0x101108
/-- Address of PTB_STEP. -/
def PTB_STEP : Nat := 0x101110
/-- Address of PTB_SLEW. -/
def PTB_SLEW : Nat := 0x101118
/-- Address of PTB_OFFSET. -/
def PTB_OFFSET : Nat := 0x10111C
/-- Address of PTB_PULSE. -/
def PTB_PULSE : Nat := 0x101120
/-- Address of PTB_UNLOCK_CNT. -/
def PTB_UNLOCK_CNT : Nat := 0x101128
/-- Address of PCM_CTL. -/
def PCM_CTL (n : Nat) : Nat := (0x102 + n / 8) * 4096 + 0x100 + 0x40 * (n % 8)
/-- Address of PCM_STS. -/
def PCM_STS (n : Nat) : Nat := (0x102 + n / 8) * 4096 + 0x104 + 0x40 * (n % 8)
/-- Address of PCM_BLANK. -/
def PCM_BLANK (n : Nat) : Nat := (0x102 + n / 8) * 4096 + 0x108 + 0x40 * (n % 8)
/-- Address of PCM_SLOPE. -/
def PCM_SLOPE (n : Nat) : Nat := (0x102 + n / 8) * 4096 + 0x10C + 0x40 * (n % 8)
/-- Address of PCM_TRIM. -/
def PCM_TRIM (n : Nat) : Nat := (0x102 + n / 8) * 4096 + 0x110 + 0x40 * (n % 8)
/-- Address of PCM_LIMIT. -/
def PCM_LIMIT (n : Nat) : Nat := (0x102 + n / 8) * 4096 + 0x114 + 0x40 * (n % 8)
/-- Address of PCM_HARD. -/
def PCM_HARD (n : Nat) : Nat := (0x102 + n / 8) * 4096 + 0x118 + 0x40 * (n % 8)
/-- Address of PCM_MAX_ON. -/
def PCM_MAX_ON (n : Nat) : Nat := (0x102 + n / 8) * 4096 + 0x11C + 0x40 * (n % 8)
/-- Address of PCM_CODE. -/
def PCM_CODE (n : Nat) : Nat := (0x102 + n / 8) * 4096 + 0x120 + 0x40 * (n % 8)
/-- Address of PCM_IPK. -/
def PCM_IPK (n : Nat) : Nat := (0x102 + n / 8) * 4096 + 0x124 + 0x40 * (n % 8)
/-- Address of PCM_MEAN. -/
def PCM_MEAN (n : Nat) : Nat := (0x102 + n / 8) * 4096 + 0x128 + 0x40 * (n % 8)
/-- Address of PCM_DS. -/
def PCM_DS (n : Nat) : Nat := (0x102 + n / 8) * 4096 + 0x12C + 0x40 * (n % 8)
/-- Address of PCM_CBC_CNT. -/
def PCM_CBC_CNT (n : Nat) : Nat := (0x102 + n / 8) * 4096 + 0x130 + 0x40 * (n % 8)
/-- Address of VMC_CTL. -/
def VMC_CTL (n : Nat) : Nat := 0x108100 + 0x40 * n
/-- Address of VMC_STS. -/
def VMC_STS (n : Nat) : Nat := 0x108104 + 0x40 * n
/-- Address of VMC_TARGET. -/
def VMC_TARGET (n : Nat) : Nat := 0x108108 + 0x40 * n
/-- Address of VMC_SS_TIME. -/
def VMC_SS_TIME (n : Nat) : Nat := 0x10810C + 0x40 * n
/-- Address of VMC_ILIM. -/
def VMC_ILIM (n : Nat) : Nat := 0x108110 + 0x40 * n
/-- Address of VMC_SHORT. -/
def VMC_SHORT (n : Nat) : Nat := 0x108114 + 0x40 * n
/-- Address of VMC_HICCUP_OFF. -/
def VMC_HICCUP_OFF (n : Nat) : Nat := 0x108118 + 0x40 * n
/-- Address of VMC_TIMEOUT. -/
def VMC_TIMEOUT (n : Nat) : Nat := 0x10811C + 0x40 * n
/-- Address of VMC_VOUT. -/
def VMC_VOUT (n : Nat) : Nat := 0x108120 + 0x40 * n
/-- Address of VMC_IOUT. -/
def VMC_IOUT (n : Nat) : Nat := 0x108124 + 0x40 * n
/-- Address of VMC_DUTY. -/
def VMC_DUTY (n : Nat) : Nat := 0x108128 + 0x40 * n
/-- Address of VMC_RETRY_CNT. -/
def VMC_RETRY_CNT (n : Nat) : Nat := 0x10812C + 0x40 * n
/-- Address of PLT_CTL. -/
def PLT_CTL : Nat := 0x109100
/-- Address of PLT_PERIOD. -/
def PLT_PERIOD : Nat := 0x109104
/-- Address of PLT_ROT. -/
def PLT_ROT : Nat := 0x109108
/-- Address of PLT_STS. -/
def PLT_STS : Nat := 0x10910C
/-- Address of PLT_ROT_CNT. -/
def PLT_ROT_CNT : Nat := 0x109110
/-- Address of PLT_MAP. -/
def PLT_MAP (n : Nat) : Nat := 0x109140 + 0x4 * n
/-- Address of PLT_ORDER. -/
def PLT_ORDER (n : Nat) : Nat := 0x109180 + 0x4 * n
/-- Address of SHD_STS. -/
def SHD_STS : Nat := 0x10A100
/-- Address of SHD_CTL. -/
def SHD_CTL : Nat := 0x10A104
/-- Address of SHD_MIN. -/
def SHD_MIN : Nat := 0x10A108
/-- Address of SHD_OFF_KW. -/
def SHD_OFF_KW : Nat := 0x10A10C
/-- Address of SHD_ADD_KW. -/
def SHD_ADD_KW : Nat := 0x10A110
/-- Address of SHD_DWELL. -/
def SHD_DWELL : Nat := 0x10A114
/-- Address of SHD_STEP_KW. -/
def SHD_STEP_KW : Nat := 0x10A118
/-- Address of SHD_VDEV. -/
def SHD_VDEV : Nat := 0x10A11C
/-- Address of SHD_HOLDOFF. -/
def SHD_HOLDOFF : Nat := 0x10A120
/-- Address of SHD_STEP_CNT. -/
def SHD_STEP_CNT : Nat := 0x10A124
/-- Address of SHD_ABORT_CNT. -/
def SHD_ABORT_CNT : Nat := 0x10A128
/-- Address of SHD_STEP_STAMP. -/
def SHD_STEP_STAMP : Nat := 0x10A130
/-- Address of CLE_STS. -/
def CLE_STS : Nat := 0x10B100
/-- Address of CLE_MISS_CNT. -/
def CLE_MISS_CNT : Nat := 0x10B104
/-- Address of CLE_SWAP. -/
def CLE_SWAP : Nat := 0x10B108
/-- Address of CLE_SWAP_PEND. -/
def CLE_SWAP_PEND : Nat := 0x10B110
/-- Address of CLE_WADDR. -/
def CLE_WADDR : Nat := 0x10B118
/-- Address of CLE_WDATA. -/
def CLE_WDATA : Nat := 0x10B11C
/-- Address of CLE_UTIL. -/
def CLE_UTIL : Nat := 0x10B120
/-- Address of CLE_OUT. -/
def CLE_OUT (n : Nat) : Nat := 0x10B200 + 0x4 * n
/-- Address of CLE_MISS. -/
def CLE_MISS (n : Nat) : Nat := 0x10B300 + 0x4 * n
/-- Address of CLE_REC0. -/
def CLE_REC0 (n : Nat) : Nat := 0x10B400 + 0x10 * n
/-- Address of CLE_REC1. -/
def CLE_REC1 (n : Nat) : Nat := 0x10B404 + 0x10 * n
/-- Address of CLE_REC2. -/
def CLE_REC2 (n : Nat) : Nat := 0x10B408 + 0x10 * n
/-- Address of CLE_REC3. -/
def CLE_REC3 (n : Nat) : Nat := 0x10B40C + 0x10 * n
/-- Address of GOV_STS. -/
def GOV_STS : Nat := 0x10C100
/-- Address of GOV_ACCEPT_CNT. -/
def GOV_ACCEPT_CNT : Nat := 0x10C104
/-- Address of GOV_REJ_CNT. -/
def GOV_REJ_CNT (n : Nat) : Nat := 0x10C108 + 0x4 * n
/-- Address of GOV_LAST_FRAME. -/
def GOV_LAST_FRAME : Nat := 0x10C120
/-- Address of GOV_T_A. -/
def GOV_T_A : Nat := 0x10C128
/-- Address of GOV_T_B. -/
def GOV_T_B : Nat := 0x10C12C
/-- Address of GOV_ROW0_SMIN. -/
def GOV_ROW0_SMIN : Nat := 0x10C200
/-- Address of GOV_ROW0_SMAX. -/
def GOV_ROW0_SMAX : Nat := 0x10C204
/-- Address of GOV_ROW0_SLEW. -/
def GOV_ROW0_SLEW : Nat := 0x10C208
/-- Address of GOV_ROW0_RMAX. -/
def GOV_ROW0_RMAX : Nat := 0x10C20C
/-- Address of GOV_ROW1_SMIN. -/
def GOV_ROW1_SMIN : Nat := 0x10C210
/-- Address of GOV_ROW1_SMAX. -/
def GOV_ROW1_SMAX : Nat := 0x10C214
/-- Address of GOV_ROW1_SLEW. -/
def GOV_ROW1_SLEW : Nat := 0x10C218
/-- Address of GOV_ROW1_RMAX. -/
def GOV_ROW1_RMAX : Nat := 0x10C21C
/-- Address of GOV_ROW2_SMIN. -/
def GOV_ROW2_SMIN : Nat := 0x10C220
/-- Address of GOV_ROW2_SMAX. -/
def GOV_ROW2_SMAX : Nat := 0x10C224
/-- Address of GOV_ROW2_SLEW. -/
def GOV_ROW2_SLEW : Nat := 0x10C228
/-- Address of GOV_ROW2_RMAX. -/
def GOV_ROW2_RMAX : Nat := 0x10C22C
/-- Address of GOV_ROW3_SMIN. -/
def GOV_ROW3_SMIN : Nat := 0x10C230
/-- Address of GOV_ROW3_SMAX. -/
def GOV_ROW3_SMAX : Nat := 0x10C234
/-- Address of GOV_ROW3_SLEW. -/
def GOV_ROW3_SLEW : Nat := 0x10C238
/-- Address of GOV_ROW3_RMAX. -/
def GOV_ROW3_RMAX : Nat := 0x10C23C
/-- Address of PRT_STS. -/
def PRT_STS : Nat := 0x10D100
/-- Address of PRT_CLR. -/
def PRT_CLR : Nat := 0x10D104
/-- Address of PRT_OV_WARN. -/
def PRT_OV_WARN : Nat := 0x10D110
/-- Address of PRT_OV_TRIP. -/
def PRT_OV_TRIP : Nat := 0x10D114
/-- Address of PRT_UV_WARN. -/
def PRT_UV_WARN : Nat := 0x10D118
/-- Address of PRT_UV_TRIP. -/
def PRT_UV_TRIP : Nat := 0x10D11C
/-- Address of PRT_OC_WARN. -/
def PRT_OC_WARN : Nat := 0x10D120
/-- Address of PRT_OC_TRIP. -/
def PRT_OC_TRIP : Nat := 0x10D124
/-- Address of PRT_CBC_PERSIST. -/
def PRT_CBC_PERSIST : Nat := 0x10D128
/-- Address of PRT_CTC_WIN. -/
def PRT_CTC_WIN : Nat := 0x10D12C
/-- Address of PRT_TRIP_CNT. -/
def PRT_TRIP_CNT (n : Nat) : Nat := 0x10D140 + 0x4 * n
/-- Address of CTC_CTL. -/
def CTC_CTL (n : Nat) : Nat := 0x10E100 + 0x20 * n
/-- Address of CTC_STS. -/
def CTC_STS (n : Nat) : Nat := 0x10E104 + 0x20 * n
/-- Address of CTC_CLOSE_CNT. -/
def CTC_CLOSE_CNT (n : Nat) : Nat := 0x10E108 + 0x20 * n
/-- Address of CTC_OPEN_LOAD_CNT. -/
def CTC_OPEN_LOAD_CNT (n : Nat) : Nat := 0x10E10C + 0x20 * n
/-- Address of CTC_CLOSE_STAMP. -/
def CTC_CLOSE_STAMP (n : Nat) : Nat := 0x10E110 + 0x20 * n
/-- Address of CTC_SHIP. -/
def CTC_SHIP : Nat := 0x10E140
/-- Address of BDS_STS. -/
def BDS_STS : Nat := 0x10F100
/-- Address of BDS_CTL. -/
def BDS_CTL : Nat := 0x10F104
/-- Address of BDS_WINDOW. -/
def BDS_WINDOW : Nat := 0x10F108
/-- Address of BDS_SETTLE. -/
def BDS_SETTLE : Nat := 0x10F10C
/-- Address of BDS_RATE_I. -/
def BDS_RATE_I : Nat := 0x10F110
/-- Address of BDS_OWT. -/
def BDS_OWT : Nat := 0x10F114
/-- Address of BDS_OWT_RES. -/
def BDS_OWT_RES : Nat := 0x10F118
/-- Address of BDS_BAL_FORCE. -/
def BDS_BAL_FORCE : Nat := 0x10F11C
/-- Address of BDS_SW_DEV. -/
def BDS_SW_DEV : Nat := 0x10F120
/-- Address of BDS_ANCHOR_INTERVAL. -/
def BDS_ANCHOR_INTERVAL : Nat := 0x10F124
/-- Address of BDS_ANCHOR_AGE. -/
def BDS_ANCHOR_AGE : Nat := 0x10F128
/-- Address of BDS_RESERVE. -/
def BDS_RESERVE : Nat := 0x10F12C
/-- Address of BDS_LIM_OV_WARN. -/
def BDS_LIM_OV_WARN : Nat := 0x10F130
/-- Address of BDS_LIM_OV_TRIP. -/
def BDS_LIM_OV_TRIP : Nat := 0x10F134
/-- Address of BDS_LIM_UV_WARN. -/
def BDS_LIM_UV_WARN : Nat := 0x10F138
/-- Address of BDS_LIM_UV_TRIP. -/
def BDS_LIM_UV_TRIP : Nat := 0x10F13C
/-- Address of BDS_LIM_T_WARN. -/
def BDS_LIM_T_WARN : Nat := 0x10F140
/-- Address of BDS_LIM_T_TRIP. -/
def BDS_LIM_T_TRIP : Nat := 0x10F144
/-- Address of BDS_LIM_T_COLD. -/
def BDS_LIM_T_COLD : Nat := 0x10F148
/-- Address of BDS_TRIP_STS. -/
def BDS_TRIP_STS : Nat := 0x10F150
/-- Address of BDS_CLASS_A. -/
def BDS_CLASS_A : Nat := 0x10F158
/-- Address of BDS_CLASS_B. -/
def BDS_CLASS_B : Nat := 0x10F15C
/-- Address of BDS_CRC_ERR. -/
def BDS_CRC_ERR : Nat := 0x10F160
/-- Address of BDS_BAL_REQ_AGE. -/
def BDS_BAL_REQ_AGE : Nat := 0x10F164
/-- Address of BDS_BAL_REQ. -/
def BDS_BAL_REQ (n : Nat) : Nat := 0x10F300 + 0x4 * n
/-- Address of BDS_CELL_V. -/
def BDS_CELL_V (n : Nat) : Nat := 0x10F400 + 0x4 * n
/-- Address of BDS_TEMP. -/
def BDS_TEMP (n : Nat) : Nat := 0x10F800 + 0x4 * n
/-- Address of BDS_CELL_FLAGS. -/
def BDS_CELL_FLAGS (n : Nat) : Nat := 0x10FA00 + 0x4 * n
/-- Address of BDS_COARSE. -/
def BDS_COARSE (n : Nat) : Nat := 0x10FC00 + 0x4 * n
/-- Address of HVS_STS. -/
def HVS_STS : Nat := 0x110100
/-- Address of HVS_VBUS. -/
def HVS_VBUS : Nat := 0x110104
/-- Address of HVS_IBUS. -/
def HVS_IBUS : Nat := 0x110108
/-- Address of HVS_PBUS. -/
def HVS_PBUS : Nat := 0x11010C
/-- Address of HVS_VSTR. -/
def HVS_VSTR (n : Nat) : Nat := 0x110110 + 0x4 * n
/-- Address of HVS_ISTR. -/
def HVS_ISTR (n : Nat) : Nat := 0x110118 + 0x4 * n
/-- Address of HVS_EOUT. -/
def HVS_EOUT : Nat := 0x110120
/-- Address of HVS_SUM_TOL. -/
def HVS_SUM_TOL : Nat := 0x110128
/-- Address of HVS_CAL_ID. -/
def HVS_CAL_ID : Nat := 0x11012C
/-- Address of CLP_STS. -/
def CLP_STS : Nat := 0x111100
/-- Address of CLP_CTL. -/
def CLP_CTL : Nat := 0x111104
/-- Address of CLP_EPOCH. -/
def CLP_EPOCH : Nat := 0x111108
/-- Address of CLP_PEER_EPOCH. -/
def CLP_PEER_EPOCH : Nat := 0x11110C
/-- Address of CLP_CLAIM_CNT. -/
def CLP_CLAIM_CNT : Nat := 0x111110
/-- Address of CLP_YIELD_CNT. -/
def CLP_YIELD_CNT : Nat := 0x111114
/-- Address of CLP_STALE_CNT. -/
def CLP_STALE_CNT : Nat := 0x111118
/-- Address of CLP_CRC_ERR. -/
def CLP_CRC_ERR : Nat := 0x11111C
/-- Address of CLP_CONTEST_CNT. -/
def CLP_CONTEST_CNT : Nat := 0x111120
/-- Address of CLP_GAP_MAX. -/
def CLP_GAP_MAX : Nat := 0x111124
/-- Address of CLP_LAST_STAMP. -/
def CLP_LAST_STAMP : Nat := 0x111128
/-- Address of CLP_LISTEN. -/
def CLP_LISTEN : Nat := 0x111130
/-- Address of LIN_STS. -/
def LIN_STS : Nat := 0x112100
/-- Address of LIN_CTL. -/
def LIN_CTL : Nat := 0x112104
/-- Address of LIN_RST_CAUSE. -/
def LIN_RST_CAUSE : Nat := 0x112108
/-- Address of LIN_RST_CNT. -/
def LIN_RST_CNT : Nat := 0x11210C
/-- Address of LIN_RTC. -/
def LIN_RTC : Nat := 0x112110
/-- Address of LIN_VKA. -/
def LIN_VKA : Nat := 0x112118
/-- Address of LIN_VMAIN. -/
def LIN_VMAIN : Nat := 0x11211C
/-- Address of LIN_RET_V. -/
def LIN_RET_V : Nat := 0x112120
/-- Address of LIN_WAKE_EN. -/
def LIN_WAKE_EN : Nat := 0x112124
/-- Address of LIN_WAKE_SRC. -/
def LIN_WAKE_SRC : Nat := 0x112128
/-- Address of LIN_SEAM_CNT. -/
def LIN_SEAM_CNT : Nat := 0x11212C
/-- Address of LIN_PD_IMG. -/
def LIN_PD_IMG : Nat := 0x112130
/-- Address of DIN_CFG. -/
def DIN_CFG (n : Nat) : Nat := 0x113100 + 0x8 * n
/-- Address of DIN_STS. -/
def DIN_STS (n : Nat) : Nat := 0x113104 + 0x8 * n
/-- Address of DIN_CHAT_EDGES. -/
def DIN_CHAT_EDGES : Nat := 0x113800
/-- Address of DIN_CHAT_WIN. -/
def DIN_CHAT_WIN : Nat := 0x113804
/-- Address of DIN_CLR. -/
def DIN_CLR : Nat := 0x113808
/-- Address of DIN_CHATTER. -/
def DIN_CHATTER (n : Nat) : Nat := 0x113810 + 0x4 * n
/-- Address of DIN_STUCK. -/
def DIN_STUCK (n : Nat) : Nat := 0x113820 + 0x4 * n
/-- Address of DIN_MODE_CNT. -/
def DIN_MODE_CNT : Nat := 0x113830
/-- Address of SLK_STS. -/
def SLK_STS : Nat := 0x114100
/-- Address of SLK_CTL. -/
def SLK_CTL : Nat := 0x114104
/-- Address of SLK_PEER_SN. -/
def SLK_PEER_SN : Nat := 0x114108
/-- Address of SLK_JNL_LAG. -/
def SLK_JNL_LAG : Nat := 0x114110
/-- Address of SLK_JNL_ACK_SEQ. -/
def SLK_JNL_ACK_SEQ : Nat := 0x114114
/-- Address of SLK_PLAN_AGE. -/
def SLK_PLAN_AGE : Nat := 0x114118
/-- Address of SLK_CAMEO_AGE. -/
def SLK_CAMEO_AGE : Nat := 0x11411C
/-- Address of SLK_RESYNC_PCT. -/
def SLK_RESYNC_PCT : Nat := 0x114120
/-- Address of SLK_RX_ERR. -/
def SLK_RX_ERR : Nat := 0x114124
/-- Address of SLK_TX_DROP. -/
def SLK_TX_DROP : Nat := 0x114128
/-- Address of SLK_UNMIRRORED_CNT. -/
def SLK_UNMIRRORED_CNT : Nat := 0x11412C
/-- Address of BLK_ID of a page (R434). -/
def BLK_ID (page : Nat) : Nat := page * 4096 + 0x0
/-- Address of BLK_CAP of a page (R434). -/
def BLK_CAP (page : Nat) : Nat := page * 4096 + 0x4
/-- Address of BLK_CTL of a page (R434). -/
def BLK_CTL (page : Nat) : Nat := page * 4096 + 0x8
/-- Address of BLK_STS of a page (R434). -/
def BLK_STS (page : Nat) : Nat := page * 4096 + 0xC
/-- Address of IRQ_STS of a page (R434). -/
def IRQ_STS (page : Nat) : Nat := page * 4096 + 0x10
/-- Address of IRQ_EN of a page (R434). -/
def IRQ_EN (page : Nat) : Nat := page * 4096 + 0x14
/-- Address of IRQ_SET of a page (R434). -/
def IRQ_SET (page : Nat) : Nat := page * 4096 + 0x18
/-- Address of ERR_INJ of a page (R434). -/
def ERR_INJ (page : Nat) : Nat := page * 4096 + 0x1C
/-- Address of LAST_EVT_STAMP of a page (R434). -/
def LAST_EVT_STAMP (page : Nat) : Nat := page * 4096 + 0x20
/-- Address of LOCK of a page (R434). -/
def LOCK (page : Nat) : Nat := page * 4096 + 0x28
/-- Address of WR_SEQ of a page (R434). -/
def WR_SEQ (page : Nat) : Nat := page * 4096 + 0x2C
end Reg

/-- Block-specific registers of page 0x000: GLB_STS, GLB_RESET, GLB_DECODE_ERR, GLB_WR_REJ, GLB_UPTIME, GLB_SCRATCH, GLB_HW_REV. -/
def rows000 : List RegRow :=
  [rRO 0x100 1 0x4 false 0x0 false,
   rMix 0x104 1 0x4 false 0x0 0x0 0x0 0x0 0x0 0xFFFFFFFF 0x0,
   rRO 0x108 1 0x4 false 0x0 true,
   rRO 0x10C 1 0x4 false 0x0 true,
   rRO 0x110 1 0x8 true 0x0 false,
   rMix 0x118 1 0x4 false 0x0 0xFFFFFFFF 0x0 0x0 0x0 0x0 0x0,
   rRO 0x11C 1 0x4 false 0x0 false]

/-- Block-specific registers of page 0x001: TIM_STS, TIM_CTL, TIM_PTP_CFG, TIM_NOW, TIM_PTP_OFFSET, TIM_CHAIN_OFFSET, TIM_HOLD_STAMP, TIM_UTC_OFFSET, TIM_STEP_CNT, TIM_DISAGREE_CNT. -/
def rows001 : List RegRow :=
  [rRO 0x100 1 0x4 false 0x0 false,
   rMix 0x104 1 0x4 false 0x3 0x3 0x0 0x0 0x0 0x0 0x0,
   rMix 0x108 1 0x4 false 0x0 0x0 0x77F 0x0 0x0 0x0 0x0,
   rRO 0x110 1 0x8 true 0x0 false,
   rRO 0x118 1 0x4 false 0x0 false,
   rRO 0x11C 1 0x4 false 0x0 false,
   rRO 0x120 1 0x8 true 0x0 false,
   rRO 0x128 1 0x4 false 0x0 false,
   rRO 0x12C 1 0x4 false 0x0 true,
   rRO 0x130 1 0x4 false 0x0 true]

/-- Block-specific registers of page 0x002: EVT_STS, EVT_CTL, EVT_HEAD, EVT_LOST, EVT_COAL_MS, EVT_SEL, EVT_DATA, EVT_IRQ_SUM, EVT_ROUTE_BASE, EVT_ROUTE_PULSE, EVT_ROUTE_LAST. -/
def rows002 : List RegRow :=
  [rRO 0x100 1 0x4 false 0x0 false,
   rMix 0x104 1 0x4 false 0x1 0x1 0x0 0x0 0x2 0x0 0x0,
   rRO 0x108 1 0x4 false 0x0 false,
   rRO 0x10C 1 0x4 false 0x0 true,
   rMix 0x110 1 0x4 false 0x3E8 0xFFFFFFFF 0x0 0x0 0x0 0x0 0x0,
   rMix 0x114 1 0x4 false 0x0 0xFFF 0x0 0x0 0x0 0x0 0x0,
   rRO 0x120 8 0x4 false 0x0 false,
   rRO 0x180 9 0x4 false 0x0 false,
   rMix 0x400 64 0x4 false 0x1010101 0x87878787 0x0 0x0 0x0 0x0 0x0,
   rMix 0x500 5 0x4 false 0x5050505 0x87878787 0x0 0x0 0x0 0x0 0x0,
   rMix 0x514 1 0x4 false 0x5 0x87 0x0 0x0 0x0 0x0 0x0]

/-- Block-specific registers of page 0x003: AUD_STS, AUD_CTL, AUD_HEAD, AUD_LOST, AUD_PD_FILL, AUD_SEL, AUD_DATA, AUD_JNL_SEQ. -/
def rows003 : List RegRow :=
  [rRO 0x100 1 0x4 false 0x0 false,
   rMix 0x104 1 0x4 false 0x0 0x0 0x0 0x0 0x1 0x0 0x0,
   rRO 0x108 1 0x4 false 0x0 false,
   rRO 0x10C 1 0x4 false 0x0 true,
   rRO 0x110 1 0x4 false 0x0 false,
   rMix 0x114 1 0x4 false 0x0 0x1FFF 0x0 0x0 0x0 0x0 0x0,
   rRO 0x120 8 0x4 false 0x0 false,
   rRO 0x140 1 0x4 false 0x0 false]

/-- Block-specific registers of page 0x004: OPT_ORDER, OPT_ARRAYS, OPT_PORTS, OPT_PMAX, OPT_SEAM, OPT_BUDGET_LIQ, OPT_BUDGET_AIR, OPT_FUSE_REV. -/
def rows004 : List RegRow :=
  [rRO 0x100 1 0x4 false 0x0 false,
   rRO 0x104 1 0x4 false 0x0 false,
   rRO 0x108 1 0x4 false 0x0 false,
   rRO 0x10C 1 0x4 false 0x0 false,
   rRO 0x110 1 0x4 false 0x0 false,
   rRO 0x114 1 0x4 false 0x0 false,
   rRO 0x118 1 0x4 false 0x0 false,
   rRO 0x11C 1 0x4 false 0x0 false]

/-- Block-specific registers of page 0x005: PWR_STS, PWR_CTL, PWR_BUDGET_PEAK_LIQ, PWR_BUDGET_MEAN_LIQ, PWR_BUDGET_PEAK_AIR, PWR_BUDGET_MEAN_AIR, PWR_PROFILE_PEAK, PWR_PROFILE_MEAN, PWR_ICORE, PWR_ICORE_MAX, PWR_INPUT, PWR_TEMP_CD, PWR_TEMP_BASE, PWR_TEMP_PULSE, PWR_DROOP_CNT. -/
def rows005 : List RegRow :=
  [rRO 0x100 1 0x4 false 0x0 false,
   rMix 0x104 1 0x4 false 0x0 0x1 0x0 0x0 0x0 0x0 0x0,
   rMix 0x108 1 0x4 false 0x0 0x0 0xFFFFFFFF 0x0 0x0 0x0 0x0,
   rMix 0x10C 1 0x4 false 0x0 0x0 0xFFFFFFFF 0x0 0x0 0x0 0x0,
   rMix 0x110 1 0x4 false 0x0 0x0 0xFFFFFFFF 0x0 0x0 0x0 0x0,
   rMix 0x114 1 0x4 false 0x0 0x0 0xFFFFFFFF 0x0 0x0 0x0 0x0,
   rRO 0x118 1 0x4 false 0x0 false,
   rRO 0x11C 1 0x4 false 0x0 false,
   rRO 0x120 1 0x4 false 0x0 false,
   rRO 0x124 1 0x4 false 0x0 false,
   rRO 0x128 1 0x4 false 0x0 false,
   rRO 0x130 4 0x4 false 0x0 false,
   rRO 0x140 1 0x4 false 0x0 false,
   rRO 0x144 1 0x4 false 0x0 false,
   rRO 0x148 1 0x4 false 0x0 true]

/-- Block-specific registers of page 0x010: SEQ_STS, SEQ_SWAP, SEQ_LOAD, SEQ_LOAD_STS, SEQ_WARM, SEQ_FAILED, SEQ_FRAME, SEQ_OVERRUN_CNT, SEQ_SKIP_CNT, SEQ_LATE_MAX, SEQ_STRETCH_CNT, SEQ_HANDOFF_LATE, SEQ_WITHHELD. -/
def rows010 : List RegRow :=
  [rRO 0x100 1 0x4 false 0x300000 false,
   rMix 0x104 1 0x4 false 0x0 0x1 0x0 0xC 0x12 0x0 0x0,
   rMix 0x108 1 0x4 false 0x0 0x0 0x0 0x0 0x3 0x0 0x0,
   rRO 0x10C 1 0x4 false 0x0 false,
   rMix 0x110 1 0x4 false 0x30 0xFF 0x0 0x0 0x0 0x0 0x0,
   rMix 0x114 1 0x4 false 0x0 0x0 0x0 0xFFFFF 0x0 0x0 0x0,
   rRO 0x118 1 0x8 true 0x0 false,
   rRO 0x120 1 0x4 false 0x0 true,
   rRO 0x124 1 0x4 false 0x0 true,
   rRO 0x128 1 0x4 false 0x0 true,
   rRO 0x12C 1 0x4 false 0x0 true,
   rRO 0x130 1 0x4 false 0x0 true,
   rRO 0x134 1 0x4 false 0x0 true]

/-- Block-specific registers of page 0x011: SEQ_LOAD_ADDR, SEQ_LOAD_LEN. -/
def rows011 : List RegRow :=
  [rMix 0x100 1 0x8 true 0x0 0x0 0xFFFFFFFFFFFFFFFF 0x0 0x0 0x0 0x0,
   rMix 0x108 1 0x4 false 0x0 0xFFFFFFFF 0x0 0x0 0x0 0x0 0x0]

/-- Block-specific registers of page 0x012: SEQ_VARIANTS. -/
def rows012 : List RegRow :=
  [rRO 0x100 176 0x4 false 0x0 false]

/-- Block-specific registers of pages 0x020 to 0x02F: MAC_STS, MAC_RES_CNT, MAC_FAIL_STAMP, MAC_INF_CNT, MAC_CLASH_CNT, MAC_DEPTH_CNT, MAC_EARLY_CNT, MAC_NAN_CNT. -/
def rows020to02F : List RegRow :=
  [rRO 0x100 1 0x4 false 0x0 false,
   rRO 0x104 1 0x4 false 0x0 true,
   rRO 0x108 1 0x8 true 0x0 false,
   rRO 0x110 1 0x4 false 0x0 true,
   rRO 0x114 1 0x4 false 0x0 true,
   rRO 0x118 1 0x4 false 0x0 true,
   rRO 0x11C 1 0x4 false 0x0 true,
   rRO 0x120 1 0x4 false 0x0 true]

/-- Block-specific registers of pages 0x030 to 0x033: VEC_STS, VEC_RES_CNT, VEC_ECC_CE, VEC_ECC_UE, VEC_INF_CNT, VEC_TAB_REV. -/
def rows030to033 : List RegRow :=
  [rRO 0x100 1 0x4 false 0x0 false,
   rRO 0x104 1 0x4 false 0x0 true,
   rRO 0x108 1 0x4 false 0x0 true,
   rRO 0x10C 1 0x4 false 0x0 true,
   rRO 0x110 1 0x4 false 0x0 true,
   rRO 0x114 1 0x4 false 0x0 false]

/-- Block-specific registers of pages 0x040 to 0x04C: ENG_STS, ENG_OPS_CNT, ENG_DROP_CNT, ENG_POISON_CNT, ENG_NONFIN_CNT, ENG_SPEC_CNT, ENG_DESC_CNT, ENG_LAST_STAMP. -/
def rows040to04C : List RegRow :=
  [rRO 0x100 1 0x4 false 0x0 false,
   rRO 0x104 1 0x4 false 0x0 true,
   rRO 0x108 1 0x4 false 0x0 true,
   rRO 0x10C 1 0x4 false 0x0 true,
   rRO 0x110 1 0x4 false 0x0 true,
   rRO 0x114 1 0x4 false 0x0 true,
   rRO 0x118 1 0x4 false 0x0 false,
   rRO 0x120 1 0x8 true 0x0 false]

/-- Block-specific registers of pages 0x049 to 0x04C: DMA_ASYNC_DEPTH, DMA_ASYNC_DONE. -/
def rows049to04C : List RegRow :=
  [rRO 0x130 1 0x4 false 0x0 false,
   rRO 0x134 1 0x4 false 0x0 true]

/-- Block-specific registers of page 0x050: SHM_STS, SHM_ECC_CE, SHM_ECC_UE, SHM_POISON_RD, SHM_APAR_CNT, SHM_WIN_REJ, SHM_ERR_ADDR, SHM_ERR_STAMP. -/
def rows050 : List RegRow :=
  [rRO 0x100 1 0x4 false 0x0 false,
   rRO 0x104 1 0x4 false 0x0 true,
   rRO 0x108 1 0x4 false 0x0 true,
   rRO 0x10C 1 0x4 false 0x0 true,
   rRO 0x110 1 0x4 false 0x0 true,
   rRO 0x114 1 0x4 false 0x0 true,
   rRO 0x118 1 0x8 true 0x0 false,
   rRO 0x120 1 0x8 true 0x0 false]

/-- Block-specific registers of page 0x051: SHM_SCRUB_CTL, SHM_SCRUB_PASS_CNT, SHM_SCRUB_MAX_MS. -/
def rows051 : List RegRow :=
  [rMix 0x100 1 0x4 false 0x1 0x0 0x1 0x0 0x0 0x0 0x0,
   rRO 0x104 1 0x4 false 0x0 true,
   rRO 0x108 1 0x4 false 0x0 false]

/-- Block-specific registers of page 0x052: SHM_BANK_CE. -/
def rows052 : List RegRow :=
  [rRO 0x100 128 0x4 false 0x0 false]

/-- Block-specific registers of page 0x053: WIN_GRANT, EGR_DROP, ING_CARRY, ING_DROP, ING_STS, ING_OPS_CNT, ING_DROP_CNT, ING_POISON_CNT, ING_NONFIN_CNT, ING_SPEC_CNT, ING_DESC_CNT, ING_LAST_STAMP, EGR_STS, EGR_OPS_CNT, EGR_DROP_CNT, EGR_POISON_CNT, EGR_NONFIN_CNT, EGR_SPEC_CNT, EGR_DESC_CNT, EGR_LAST_STAMP. -/
def rows053 : List RegRow :=
  [rRO 0x100 4 0x4 false 0x0 true,
   rRO 0x110 1 0x4 false 0x0 true,
   rRO 0x114 1 0x4 false 0x0 true,
   rRO 0x200 32 0x4 false 0x0 true,
   rRO 0x300 1 0x4 false 0x0 false,
   rRO 0x304 1 0x4 false 0x0 true,
   rRO 0x308 1 0x4 false 0x0 true,
   rRO 0x30C 1 0x4 false 0x0 true,
   rRO 0x310 1 0x4 false 0x0 true,
   rRO 0x314 1 0x4 false 0x0 true,
   rRO 0x318 1 0x4 false 0x0 false,
   rRO 0x320 1 0x8 true 0x0 false,
   rRO 0x340 1 0x4 false 0x0 false,
   rRO 0x344 1 0x4 false 0x0 true,
   rRO 0x348 1 0x4 false 0x0 true,
   rRO 0x34C 1 0x4 false 0x0 true,
   rRO 0x350 1 0x4 false 0x0 true,
   rRO 0x354 1 0x4 false 0x0 true,
   rRO 0x358 1 0x4 false 0x0 false,
   rRO 0x360 1 0x8 true 0x0 false]

/-- Block-specific registers of page 0x058: FR_CTL, FR_STS, FR_POST, FR_SLOTS, FR_TRIG_FRAME, FR_HELD_FIRST, FR_HELD_LAST, FR_LATE_CNT, FR_DUP_CNT, FR_MISS_CNT, FR_TRIG_CNT. -/
def rows058 : List RegRow :=
  [rMix 0x200 1 0x4 false 0x1 0x1 0x0 0x0 0x6 0x0 0x0,
   rRO 0x204 1 0x4 false 0x0 false,
   rMix 0x208 1 0x4 false 0x186A0 0xFFFFFFFF 0x0 0x0 0x0 0x0 0x0,
   rRO 0x20C 1 0x4 false 0x0 false,
   rRO 0x210 1 0x8 true 0x0 false,
   rRO 0x218 1 0x8 true 0x0 false,
   rRO 0x220 1 0x8 true 0x0 false,
   rRO 0x228 1 0x4 false 0x0 true,
   rRO 0x22C 1 0x4 false 0x0 true,
   rRO 0x230 1 0x4 false 0x0 true,
   rRO 0x234 1 0x4 false 0x0 true]

/-- Block-specific registers of pages 0x058 to 0x05B: DDC_STS, DDC_CAP, DDC_ECC_CE, DDC_ECC_UE, DDC_HOLE_CNT, DDC_TEMP, DDC_ERR_ADDR. -/
def rows058to05B : List RegRow :=
  [rRO 0x100 1 0x4 false 0x0 false,
   rRO 0x104 1 0x4 false 0x0 false,
   rRO 0x108 1 0x4 false 0x0 true,
   rRO 0x10C 1 0x4 false 0x0 true,
   rRO 0x110 1 0x4 false 0x0 true,
   rRO 0x114 1 0x4 false 0x0 false,
   rRO 0x118 1 0x8 true 0x0 false]

/-- Block-specific registers of pages 0x060 to 0x07F: STR_STS, STR_CTL, STR_TRAY_ID, STR_AGG_SN, STR_ADMIT_STAMP, STR_RX_FLITS, STR_TX_FLITS, STR_FEC_CE, STR_FEC_UE, STR_HCRC_ERR, STR_BAD_TYPE, STR_PRE_ADMIT, STR_LATE, STR_TIME_OFFSET, STR_LINK_DELAY, STR_LAPSE, STR_BURST_CFG, STR_BURST_RAILS, STR_BURST_START, STR_BURST_STS. -/
def rows060to07F : List RegRow :=
  [rRO 0x100 1 0x4 false 0x0 false,
   rMix 0x104 1 0x4 false 0x1 0x1 0x0 0x0 0x6 0x0 0x0,
   rRO 0x108 1 0x4 false 0x0 false,
   rRO 0x110 1 0x8 true 0x0 false,
   rRO 0x118 1 0x8 true 0x0 false,
   rRO 0x120 1 0x4 false 0x0 true,
   rRO 0x124 1 0x4 false 0x0 true,
   rRO 0x128 1 0x4 false 0x0 true,
   rRO 0x12C 1 0x4 false 0x0 true,
   rRO 0x130 1 0x4 false 0x0 true,
   rRO 0x134 1 0x4 false 0x0 true,
   rRO 0x138 1 0x4 false 0x0 true,
   rRO 0x13C 1 0x4 false 0x0 true,
   rRO 0x140 1 0x4 false 0x0 false,
   rRO 0x144 1 0x4 false 0x0 false,
   rRO 0x148 1 0x4 false 0x0 true,
   rMix 0x150 1 0x4 false 0x0 0x7FF03 0x0 0x0 0x0 0x0 0x0,
   rMix 0x158 1 0x8 true 0x0 0xFFFFFFFFFFFFFFFF 0x0 0x0 0x0 0x0 0x0,
   rMix 0x160 1 0x8 true 0x0 0xFFFFFFFFFFFFFFFF 0x0 0x0 0x0 0x0 0x0,
   rRO 0x168 1 0x4 false 0x0 false]

/-- Block-specific registers of pages 0x080 to 0x083: CHN_STS, CHN_CTL, CHN_PEER_SN, CHN_PEER, CHN_DELAY, CHN_ASYM, CHN_RX_FRAMES, CHN_TX_FRAMES, CHN_FWD, CHN_FEC_CE, CHN_FEC_UE, CHN_HCRC_ERR, CHN_CRC_ERR, CHN_DUP, CHN_CMIS_TEMP, CHN_CMIS_RXPWR, CHN_CMIS_FLAGS. -/
def rows080to083 : List RegRow :=
  [rRO 0x100 1 0x4 false 0x0 false,
   rMix 0x104 1 0x4 false 0x1 0x1 0x0 0x0 0x2 0x0 0x0,
   rRO 0x108 1 0x8 true 0x0 false,
   rRO 0x110 1 0x4 false 0x0 false,
   rRO 0x114 1 0x4 false 0x0 false,
   rRO 0x118 1 0x4 false 0x0 false,
   rRO 0x11C 1 0x4 false 0x0 true,
   rRO 0x120 1 0x4 false 0x0 true,
   rRO 0x124 1 0x4 false 0x0 true,
   rRO 0x128 1 0x4 false 0x0 true,
   rRO 0x12C 1 0x4 false 0x0 true,
   rRO 0x130 1 0x4 false 0x0 true,
   rRO 0x134 1 0x4 false 0x0 true,
   rRO 0x138 1 0x4 false 0x0 true,
   rRO 0x140 1 0x4 false 0x0 false,
   rRO 0x144 1 0x4 false 0x0 false,
   rRO 0x148 1 0x4 false 0x0 false]

/-- Block-specific registers of page 0x084: JRJ_STS, JRJ_CTL, JRJ_NODE, JRJ_ROOT, JRJ_LIMIT, JRJ_CAP, JRJ_RAMP, JRJ_ABSORB, JRJ_MEMBERS, JRJ_SILENT, JRJ_PLAN_VER, JRJ_STEP_KW, JRJ_INCOMPLETE_CNT, JRJ_OVERSUB_CNT, JRJ_TRIP_CNT, JRJ_SHORTFALL_CNT, JRJ_SILENT_MAP. -/
def rows084 : List RegRow :=
  [rRO 0x100 1 0x4 false 0x0 false,
   rMix 0x104 1 0x4 false 0x1 0x3 0x0 0x0 0x0 0x0 0x0,
   rRO 0x108 1 0x4 false 0xFF false,
   rRO 0x10C 1 0x4 false 0xFF false,
   rRO 0x110 1 0x4 false 0x0 false,
   rRO 0x114 1 0x4 false 0x0 false,
   rRO 0x118 1 0x4 false 0x0 false,
   rRO 0x11C 1 0x4 false 0x0 false,
   rRO 0x120 1 0x4 false 0x0 false,
   rRO 0x124 1 0x4 false 0x0 false,
   rRO 0x128 1 0x4 false 0x0 false,
   rMix 0x12C 1 0x4 false 0x41F00000 0xFFFFFFFF 0x0 0x0 0x0 0x0 0x0,
   rRO 0x130 1 0x4 false 0x0 true,
   rRO 0x134 1 0x4 false 0x0 true,
   rRO 0x138 1 0x4 false 0x0 true,
   rRO 0x13C 1 0x4 false 0x0 true,
   rRO 0x180 6 0x4 false 0x0 false]

/-- Block-specific registers of page 0x088: MGP_STS, MGP_CTL, MGP_SESS_MAX, MGP_TLS_FAIL, MGP_DB_PORT. -/
def rows088 : List RegRow :=
  [rRO 0x100 1 0x4 false 0x0 false,
   rMix 0x104 1 0x4 false 0xF 0xF 0x0 0x0 0x0 0x0 0x0,
   rMix 0x108 1 0x4 false 0x40 0xFFFFFFFF 0x0 0x0 0x0 0x0 0x0,
   rRO 0x10C 1 0x4 false 0x0 true,
   rMix 0x110 1 0x4 false 0x1CF2 0x0 0xFFFFFFFF 0x0 0x0 0x0 0x0]

/-- Block-specific registers of pages 0x090 to 0x093: MBX_CFG, MBX_STS, MBX_SEQ, MBX_FETCH_SEQ, MBX_ACK, MBX_ACK_CODE, MBX_ACK_SEQ, MBX_COLLIDE_CNT, MBX_POST_STAMP, MBX_ACK_STAMP, MBX_DSEL, MBX_WDATA, MBX_RDATA, MBX_POST, MBX_FETCH. -/
def rows090to093 : List RegRow :=
  [rMix 0x100 16 0x40 false 0x0 0x0 0xFF1F07 0x0 0x0 0x0 0x0,
   rMix 0x104 16 0x40 false 0x0 0x0 0x0 0x2 0x0 0x0 0x705,
   rRO 0x108 16 0x40 false 0x0 false,
   rRO 0x10C 16 0x40 false 0x0 false,
   rMix 0x110 16 0x40 false 0x0 0x0 0x0 0x0 0x0 0xFFFF 0x0,
   rRO 0x114 16 0x40 false 0x0 false,
   rRO 0x118 16 0x40 false 0x0 false,
   rRO 0x11C 16 0x40 false 0x0 true,
   rRO 0x120 16 0x40 true 0x0 false,
   rRO 0x128 16 0x40 true 0x0 false,
   rMix 0x800 1 0x4 false 0x0 0x3FF 0x0 0x0 0x0 0x0 0x0,
   rMix 0x804 1 0x4 false 0x0 0x0 0x0 0x0 0x0 0xFFFFFFFF 0x0,
   rRO 0x808 1 0x4 false 0x0 false,
   rMix 0x80C 1 0x4 false 0x0 0x0 0x0 0x0 0x0 0xF 0x0,
   rMix 0x810 1 0x4 false 0x0 0x0 0x0 0x0 0x0 0xF 0x0]

/-- Block-specific registers of page 0x0A0: SIG_STS, SIG_JOBS, SIG_VERIFY_FAIL, SIG_TRNG_FAIL_CNT, SIG_SEAL_MAX. -/
def rows0A0 : List RegRow :=
  [rRO 0x100 1 0x4 false 0x0 false,
   rRO 0x104 1 0x4 false 0x0 true,
   rRO 0x108 1 0x4 false 0x0 true,
   rRO 0x10C 1 0x4 false 0x0 true,
   rRO 0x110 1 0x4 false 0x0 false]

/-- Block-specific registers of page 0x0A1: LKT_STS, LKT_CNT, LKT_CNT_PATTERN, LKT_SN, LKT_OWNER_ID, LKT_AUDIT_ROOT, LKT_AUDIT_SEQ. -/
def rows0A1 : List RegRow :=
  [rRO 0x100 1 0x4 false 0x0 false,
   rRO 0x104 1 0x4 false 0x0 false,
   rRO 0x108 1 0x4 false 0x0 false,
   rRO 0x110 1 0x8 true 0x0 false,
   rRO 0x120 8 0x4 false 0x0 false,
   rRO 0x140 8 0x4 false 0x0 false,
   rRO 0x160 1 0x8 true 0x0 false]

/-- Block-specific registers of page 0x0A2: LCS_STATE, LCS_OPEN, LCS_NONCE, LCS_NONCE_STAMP, LCS_REJ_CNT. -/
def rows0A2 : List RegRow :=
  [rRO 0x100 1 0x4 false 0x0 false,
   rRO 0x104 1 0x4 false 0x0 false,
   rRO 0x110 8 0x4 false 0x0 false,
   rRO 0x130 1 0x8 true 0x0 false,
   rRO 0x138 1 0x4 false 0x0 true]

/-- Block-specific registers of page 0x0A3: HMK_STS, HMK_CTL, HMK_EPOCH, HMK_CHAIN_SEQ, HMK_ACK, HMK_REC_CNT, HMK_REC_MAX, HMK_RECON_FAIL_CNT, HMK_SEAL_LATE_CNT, HMK_LOSS_CNT, HMK_ARCHIVE_FILL, HMK_POLICY, HMK_RES_MAX, HMK_ROOT. -/
def rows0A3 : List RegRow :=
  [rRO 0x100 1 0x4 false 0x0 false,
   rMix 0x104 1 0x4 false 0x1 0x1 0x0 0x0 0x0 0x0 0x0,
   rRO 0x108 1 0x8 true 0x0 false,
   rRO 0x110 1 0x8 true 0x0 false,
   rMix 0x118 1 0x8 true 0x0 0xFFFFFFFFFFFFFFFF 0x0 0x0 0x0 0x0 0x0,
   rRO 0x120 1 0x4 false 0x0 false,
   rRO 0x124 1 0x4 false 0x0 false,
   rRO 0x128 1 0x4 false 0x0 true,
   rRO 0x12C 1 0x4 false 0x0 true,
   rRO 0x130 1 0x4 false 0x0 true,
   rRO 0x134 1 0x4 false 0x0 false,
   rMix 0x138 1 0x4 false 0x1 0x0 0xFFFFFFFF 0x0 0x0 0x0 0x0,
   rMix 0x13C 1 0x4 false 0x5DC 0x0 0xFFFFFFFF 0x0 0x0 0x0 0x0,
   rRO 0x140 8 0x4 false 0x0 false]

/-- Block-specific registers of page 0x0B0: NUG_STS, NUG_CTL, NUG_BOOT, NUG_WDOG, NUG_WDOG_KICK, NUG_RESTART_CNT, NUG_REVERT_CNT, NUG_IMG_ROLLBACK, NUG_BOOT_STAMP. -/
def rows0B0 : List RegRow :=
  [rRO 0x100 1 0x4 false 0x0 false,
   rMix 0x104 1 0x4 false 0x0 0x0 0x0 0x0 0x3 0x0 0x0,
   rMix 0x108 1 0x4 false 0x0 0x0 0x8 0x0 0x6 0x0 0x1,
   rMix 0x10C 1 0x4 false 0x3E8 0xFFFFFFFF 0x0 0x0 0x0 0x0 0x0,
   rMix 0x110 1 0x4 false 0x0 0x0 0x0 0x0 0x0 0xFFFFFFFF 0x0,
   rRO 0x114 1 0x4 false 0x0 true,
   rRO 0x118 1 0x4 false 0x0 true,
   rRO 0x11C 1 0x4 false 0x0 false,
   rRO 0x120 1 0x8 true 0x0 false]

/-- Block-specific registers of page 0x0C0: JNL_STS, JNL_CTL, JNL_FILL, JNL_COMPACT_AT, JNL_SEQ, JNL_LIVE, JNL_COMPACT_CNT, JNL_REFUSED, JNL_POCKET_CNT, JNL_POCKET_LOST, JNL_CRC_ERR, JNL_HOLDUP, JNL_HOLDUP_CAP, JNL_PROG_MAX, JNL_CAMEO_SEQ, JNL_CAMEO_CNT, JNL_CAMEO_SKIP. -/
def rows0C0 : List RegRow :=
  [rRO 0x100 1 0x4 false 0x0 false,
   rMix 0x104 1 0x4 false 0x1 0x1 0x0 0x0 0x2 0x0 0x0,
   rRO 0x108 1 0x4 false 0x0 false,
   rMix 0x10C 1 0x4 false 0x2EE 0x0 0xFFFFFFFF 0x0 0x0 0x0 0x0,
   rRO 0x110 1 0x8 true 0x0 false,
   rRO 0x118 1 0x4 false 0x0 false,
   rRO 0x11C 1 0x4 false 0x0 true,
   rRO 0x120 1 0x4 false 0x0 true,
   rRO 0x124 1 0x4 false 0x0 true,
   rRO 0x128 1 0x4 false 0x0 true,
   rRO 0x12C 1 0x4 false 0x0 true,
   rRO 0x130 1 0x4 false 0xFFFFFFFF false,
   rRO 0x134 1 0x4 false 0x0 false,
   rRO 0x138 1 0x4 false 0x0 false,
   rRO 0x140 1 0x8 true 0x0 false,
   rRO 0x148 1 0x4 false 0x0 true,
   rRO 0x14C 1 0x4 false 0x0 true]

/-- Block-specific registers of page 0x0C1: EVR_STS, EVR_CTL, EVR_LAST_1S, EVR_REC_CNT, EVR_GAP_CNT, EVR_RET_1S, EVR_RET_1M, EVR_RET_1H. -/
def rows0C1 : List RegRow :=
  [rRO 0x100 1 0x4 false 0x0 false,
   rMix 0x104 1 0x4 false 0x1 0x1 0x0 0x0 0x0 0x0 0x0,
   rRO 0x108 1 0x8 true 0x0 false,
   rRO 0x110 1 0x4 false 0x0 true,
   rRO 0x114 1 0x4 false 0x0 true,
   rMix 0x118 1 0x4 false 0x78 0xFFFFFFFF 0x0 0x0 0x0 0x0 0x0,
   rMix 0x11C 1 0x4 false 0x78 0xFFFFFFFF 0x0 0x0 0x0 0x0 0x0,
   rMix 0x120 1 0x4 false 0xA8 0xFFFFFFFF 0x0 0x0 0x0 0x0 0x0]

/-- Block-specific registers of page 0x100: PLS_STS, PLS_HOLD_CNT, PLS_HOLD_STAMP, PLS_PLAN_FRAME, PLS_PLAN_REJ, PLS_FLOOR_OUT, PLS_FLOOR_FORCE, PLS_FLOOR_ALL, PLS_RECT_SP, PLS_PLOAD, PLS_S_A, PLS_S_B. -/
def rows100 : List RegRow :=
  [rRO 0x100 1 0x4 false 0x0 false,
   rRO 0x104 1 0x4 false 0x0 true,
   rRO 0x108 1 0x8 true 0x0 false,
   rRO 0x110 1 0x8 true 0x0 false,
   rRO 0x118 1 0x4 false 0x0 true,
   rRO 0x11C 1 0x4 false 0x0 false,
   rMix 0x120 1 0x4 false 0x0 0xFFFFFFFF 0x0 0x0 0x0 0x0 0x0,
   rMix 0x124 1 0x4 false 0x0 0x80000000 0x0 0x0 0x0 0x0 0x3,
   rRO 0x128 1 0x4 false 0x0 false,
   rRO 0x12C 1 0x4 false 0x0 false,
   rRO 0x130 1 0x4 false 0x0 false,
   rRO 0x134 1 0x4 false 0x0 false]

/-- Block-specific registers of page 0x101: PTB_STS, PTB_TIME, PTB_STEP, PTB_SLEW, PTB_OFFSET, PTB_PULSE, PTB_UNLOCK_CNT. -/
def rows101 : List RegRow :=
  [rRO 0x100 1 0x4 false 0x0 false,
   rRO 0x108 1 0x8 true 0x0 false,
   rMix 0x110 1 0x8 true 0x0 0xFFFFFFFFFFFFFFFF 0x0 0x0 0x0 0x0 0x0,
   rMix 0x118 1 0x4 false 0x0 0xFFFFFFFF 0x0 0x0 0x0 0x0 0x0,
   rRO 0x11C 1 0x4 false 0x0 false,
   rRO 0x120 1 0x8 true 0x0 false,
   rRO 0x128 1 0x4 false 0x0 true]

/-- Block-specific registers of pages 0x102 to 0x107: PCM_CTL, PCM_STS, PCM_BLANK, PCM_SLOPE, PCM_TRIM, PCM_LIMIT, PCM_HARD, PCM_MAX_ON, PCM_CODE, PCM_IPK, PCM_MEAN, PCM_DS, PCM_CBC_CNT. -/
def rows102to107 : List RegRow :=
  [rMix 0x100 8 0x40 false 0x1 0x5 0x0 0x0 0x2 0x0 0x0,
   rRO 0x104 8 0x40 false 0x0 false,
   rMix 0x108 8 0x40 false 0xFA 0x3FF 0x0 0x0 0x0 0x0 0x0,
   rMix 0x10C 8 0x40 false 0x30 0xFF 0x0 0x0 0x0 0x0 0x0,
   rMix 0x110 8 0x40 false 0x0 0xFF 0x0 0x0 0x0 0x0 0x0,
   rMix 0x114 8 0x40 false 0xC800C80 0x0 0xFFF0FFF 0x0 0x0 0x0 0x0,
   rMix 0x118 8 0x40 false 0xED8 0x0 0xFFF 0x0 0x0 0x0 0x0,
   rMix 0x11C 8 0x40 false 0x2328 0x3FFF 0x0 0x0 0x0 0x0 0x0,
   rRO 0x120 8 0x40 false 0x0 false,
   rRO 0x124 8 0x40 false 0x0 false,
   rRO 0x128 8 0x40 false 0x0 false,
   rRO 0x12C 8 0x40 false 0x0 false,
   rRO 0x130 8 0x40 false 0x0 true]

/-- Block-specific registers of page 0x108: VMC_CTL, VMC_STS, VMC_TARGET, VMC_SS_TIME, VMC_ILIM, VMC_SHORT, VMC_HICCUP_OFF, VMC_TIMEOUT, VMC_VOUT, VMC_IOUT, VMC_DUTY, VMC_RETRY_CNT. -/
def rows108 : List RegRow :=
  [rMix 0x100 4 0x40 false 0x1 0x3 0x0 0x0 0x4 0x0 0x0,
   rRO 0x104 4 0x40 false 0x0 false,
   rMix 0x108 4 0x40 false 0x0 0xFFFFFFFF 0x0 0x0 0x0 0x0 0x0,
   rMix 0x10C 4 0x40 false 0xC8 0xFFFFFFFF 0x0 0x0 0x0 0x0 0x0,
   rMix 0x110 4 0x40 false 0xC8 0x0 0xFFFFFFFF 0x0 0x0 0x0 0x0,
   rMix 0x114 4 0x40 false 0x30A07D0 0xFFFFFFF 0x0 0x0 0x0 0x0 0x0,
   rMix 0x118 4 0x40 false 0x64 0xFFFFFFFF 0x0 0x0 0x0 0x0 0x0,
   rMix 0x11C 4 0x40 false 0x1F4 0xFFFFFFFF 0x0 0x0 0x0 0x0 0x0,
   rRO 0x120 4 0x40 false 0x0 false,
   rRO 0x124 4 0x40 false 0x0 false,
   rRO 0x128 4 0x40 false 0x0 false,
   rRO 0x12C 4 0x40 false 0x0 true]

/-- Block-specific registers of page 0x109: PLT_CTL, PLT_PERIOD, PLT_ROT, PLT_STS, PLT_ROT_CNT, PLT_MAP, PLT_ORDER. -/
def rows109 : List RegRow :=
  [rMix 0x100 1 0x4 false 0x1 0x1 0x0 0x0 0x0 0x0 0x0,
   rMix 0x104 1 0x4 false 0x40 0xFFFFFFFF 0x0 0x0 0x0 0x0 0x0,
   rRO 0x108 1 0x4 false 0x0 false,
   rRO 0x10C 1 0x4 false 0x0 false,
   rRO 0x110 1 0x4 false 0x0 true,
   rMix 0x140 12 0x4 false 0x0 0xFFFFFFFF 0x0 0x0 0x0 0x0 0x0,
   rRO 0x180 12 0x4 false 0x0 false]

/-- Block-specific registers of page 0x10A: SHD_STS, SHD_CTL, SHD_MIN, SHD_OFF_KW, SHD_ADD_KW, SHD_DWELL, SHD_STEP_KW, SHD_VDEV, SHD_HOLDOFF, SHD_STEP_CNT, SHD_ABORT_CNT, SHD_STEP_STAMP. -/
def rows10A : List RegRow :=
  [rRO 0x100 1 0x4 false 0x0 false,
   rMix 0x104 1 0x4 false 0x1 0x1 0x0 0x0 0x0 0x0 0x0,
   rMix 0x108 1 0x4 false 0x6 0xFFFFFFFF 0x0 0x0 0x0 0x0 0x0,
   rMix 0x10C 1 0x4 false 0x3D4CCCCD 0xFFFFFFFF 0x0 0x0 0x0 0x0 0x0,
   rMix 0x110 1 0x4 false 0x40800000 0xFFFFFFFF 0x0 0x0 0x0 0x0 0x0,
   rMix 0x114 1 0x4 false 0xA 0xFFFFFFFF 0x0 0x0 0x0 0x0 0x0,
   rMix 0x118 1 0x4 false 0x41200000 0xFFFFFFFF 0x0 0x0 0x0 0x0 0x0,
   rMix 0x11C 1 0x4 false 0x3F000000 0xFFFFFFFF 0x0 0x0 0x0 0x0 0x0,
   rMix 0x120 1 0x4 false 0x32 0xFFFFFFFF 0x0 0x0 0x0 0x0 0x0,
   rRO 0x124 1 0x4 false 0x0 true,
   rRO 0x128 1 0x4 false 0x0 true,
   rRO 0x130 1 0x8 true 0x0 false]

/-- Block-specific registers of page 0x10B: CLE_STS, CLE_MISS_CNT, CLE_SWAP, CLE_SWAP_PEND, CLE_WADDR, CLE_WDATA, CLE_UTIL, CLE_OUT, CLE_MISS, CLE_REC0, CLE_REC1, CLE_REC2, CLE_REC3. -/
def rows10B : List RegRow :=
  [rRO 0x100 1 0x4 false 0x0 false,
   rRO 0x104 1 0x4 false 0x0 true,
   rMix 0x108 1 0x4 false 0x0 0x0 0x0 0x0 0x0 0x13F 0x0,
   rRO 0x110 1 0x8 true 0x0 false,
   rMix 0x118 1 0x4 false 0x0 0x3FFF 0x0 0x0 0x0 0x0 0x0,
   rMix 0x11C 1 0x4 false 0x0 0xFFFFFFFF 0x0 0x0 0x0 0x0 0x0,
   rRO 0x120 1 0x4 false 0x0 false,
   rRO 0x200 64 0x4 false 0x0 false,
   rRO 0x300 64 0x4 false 0x0 true,
   rMix 0x400 64 0x10 false 0x0 0x7FFFFFD 0x0 0x0 0x0 0x0 0x2,
   rMix 0x404 64 0x10 false 0x0 0xFFFFFFFF 0x0 0x0 0x0 0x0 0x0,
   rMix 0x408 64 0x10 false 0x0 0xFFFF00FF 0x0 0x0 0x0 0x0 0x0,
   rRO 0x40C 64 0x10 false 0x0 false]

/-- Block-specific registers of page 0x10C: GOV_STS, GOV_ACCEPT_CNT, GOV_REJ_CNT, GOV_LAST_FRAME, GOV_T_A, GOV_T_B, GOV_ROW0_SMIN, GOV_ROW0_SMAX, GOV_ROW0_SLEW, GOV_ROW0_RMAX, GOV_ROW1_SMIN, GOV_ROW1_SMAX, GOV_ROW1_SLEW, GOV_ROW1_RMAX, GOV_ROW2_SMIN, GOV_ROW2_SMAX, GOV_ROW2_SLEW, GOV_ROW2_RMAX, GOV_ROW3_SMIN, GOV_ROW3_SMAX, GOV_ROW3_SLEW, GOV_ROW3_RMAX. -/
def rows10C : List RegRow :=
  [rRO 0x100 1 0x4 false 0x0 false,
   rRO 0x104 1 0x4 false 0x0 true,
   rRO 0x108 6 0x4 false 0x0 true,
   rRO 0x120 1 0x8 true 0x0 false,
   rRO 0x128 1 0x4 false 0x0 false,
   rRO 0x12C 1 0x4 false 0x0 false,
   rMix 0x200 1 0x4 false 0xC3520000 0x0 0xFFFFFFFF 0x0 0x0 0x0 0x0,
   rMix 0x204 1 0x4 false 0x43520000 0x0 0xFFFFFFFF 0x0 0x0 0x0 0x0,
   rMix 0x208 1 0x4 false 0x42200000 0x0 0xFFFFFFFF 0x0 0x0 0x0 0x0,
   rMix 0x20C 1 0x4 false 0x40000000 0x0 0xFFFFFFFF 0x0 0x0 0x0 0x0,
   rMix 0x210 1 0x4 false 0xC3520000 0x0 0xFFFFFFFF 0x0 0x0 0x0 0x0,
   rMix 0x214 1 0x4 false 0x43520000 0x0 0xFFFFFFFF 0x0 0x0 0x0 0x0,
   rMix 0x218 1 0x4 false 0x42F00000 0x0 0xFFFFFFFF 0x0 0x0 0x0 0x0,
   rMix 0x21C 1 0x4 false 0x40800000 0x0 0xFFFFFFFF 0x0 0x0 0x0 0x0,
   rMix 0x220 1 0x4 false 0xC3520000 0x0 0xFFFFFFFF 0x0 0x0 0x0 0x0,
   rMix 0x224 1 0x4 false 0x43520000 0x0 0xFFFFFFFF 0x0 0x0 0x0 0x0,
   rMix 0x228 1 0x4 false 0x41A00000 0x0 0xFFFFFFFF 0x0 0x0 0x0 0x0,
   rMix 0x22C 1 0x4 false 0x40000000 0x0 0xFFFFFFFF 0x0 0x0 0x0 0x0,
   rMix 0x230 1 0x4 false 0xC2C80000 0x0 0xFFFFFFFF 0x0 0x0 0x0 0x0,
   rMix 0x234 1 0x4 false 0x42C80000 0x0 0xFFFFFFFF 0x0 0x0 0x0 0x0,
   rMix 0x238 1 0x4 false 0x41200000 0x0 0xFFFFFFFF 0x0 0x0 0x0 0x0,
   rMix 0x23C 1 0x4 false 0x3F800000 0x0 0xFFFFFFFF 0x0 0x0 0x0 0x0]

/-- Block-specific registers of page 0x10D: PRT_STS, PRT_CLR, PRT_OV_WARN, PRT_OV_TRIP, PRT_UV_WARN, PRT_UV_TRIP, PRT_OC_WARN, PRT_OC_TRIP, PRT_CBC_PERSIST, PRT_CTC_WIN, PRT_TRIP_CNT. -/
def rows10D : List RegRow :=
  [rRO 0x100 1 0x4 false 0x0 false,
   rMix 0x104 1 0x4 false 0x0 0x0 0x0 0x3F00 0x0 0x0 0x0,
   rMix 0x110 1 0x4 false 0x42540000 0x0 0xFFFFFFFF 0x0 0x0 0x0 0x0,
   rMix 0x114 1 0x4 false 0x42600000 0x0 0xFFFFFFFF 0x0 0x0 0x0 0x0,
   rMix 0x118 1 0x4 false 0x42380000 0x0 0xFFFFFFFF 0x0 0x0 0x0 0x0,
   rMix 0x11C 1 0x4 false 0x42300000 0x0 0xFFFFFFFF 0x0 0x0 0x0 0x0,
   rMix 0x120 1 0x4 false 0x43960000 0x0 0xFFFFFFFF 0x0 0x0 0x0 0x0,
   rMix 0x124 1 0x4 false 0x43B40000 0x0 0xFFFFFFFF 0x0 0x0 0x0 0x0,
   rMix 0x128 1 0x4 false 0x40 0x0 0xFFFFFFFF 0x0 0x0 0x0 0x0,
   rMix 0x12C 1 0x4 false 0x14 0x0 0xFFFFFFFF 0x0 0x0 0x0 0x0,
   rRO 0x140 8 0x4 false 0x0 true]

/-- Block-specific registers of page 0x10E: CTC_CTL, CTC_STS, CTC_CLOSE_CNT, CTC_OPEN_LOAD_CNT, CTC_CLOSE_STAMP, CTC_SHIP. -/
def rows10E : List RegRow :=
  [rMix 0x100 2 0x20 false 0x0 0x1 0x0 0x0 0x2 0x0 0x0,
   rRO 0x104 2 0x20 false 0x0 false,
   rRO 0x108 2 0x20 false 0x0 true,
   rRO 0x10C 2 0x20 false 0x0 true,
   rRO 0x110 2 0x20 true 0x0 false,
   rMix 0x140 1 0x4 false 0x0 0x0 0x0 0x0 0x6 0x0 0x1]

/-- Block-specific registers of page 0x10F: BDS_STS, BDS_CTL, BDS_WINDOW, BDS_SETTLE, BDS_RATE_I, BDS_OWT, BDS_OWT_RES, BDS_BAL_FORCE, BDS_SW_DEV, BDS_ANCHOR_INTERVAL, BDS_ANCHOR_AGE, BDS_RESERVE, BDS_LIM_OV_WARN, BDS_LIM_OV_TRIP, BDS_LIM_UV_WARN, BDS_LIM_UV_TRIP, BDS_LIM_T_WARN, BDS_LIM_T_TRIP, BDS_LIM_T_COLD, BDS_TRIP_STS, BDS_CLASS_A, BDS_CLASS_B, BDS_CRC_ERR, BDS_BAL_REQ_AGE, BDS_BAL_REQ, BDS_CELL_V, BDS_TEMP, BDS_CELL_FLAGS, BDS_COARSE. -/
def rows10F : List RegRow :=
  [rRO 0x100 1 0x4 false 0x0 false,
   rMix 0x104 1 0x4 false 0x1 0x1 0x0 0x0 0x6 0x0 0x0,
   rMix 0x108 1 0x4 false 0x10 0x7FF 0x0 0x0 0x0 0x0 0x0,
   rMix 0x10C 1 0x4 false 0x22 0xFF 0x0 0x0 0x0 0x0 0x0,
   rMix 0x110 1 0x4 false 0x3FC00000 0xFFFFFFFF 0x0 0x0 0x0 0x0 0x0,
   rMix 0x114 1 0x4 false 0x0 0x3FF 0x0 0x0 0x0 0x0 0x0,
   rRO 0x118 1 0x4 false 0x0 false,
   rMix 0x11C 1 0x4 false 0x0 0x0 0xFFFF001F 0x0 0x0 0x0 0x0,
   rMix 0x120 1 0x4 false 0x3D75C28F 0xFFFFFFFF 0x0 0x0 0x0 0x0 0x0,
   rMix 0x124 1 0x4 false 0x6 0xFFFFFFFF 0x0 0x0 0x0 0x0 0x0,
   rRO 0x128 1 0x4 false 0x0 false,
   rRO 0x12C 1 0x4 false 0x0 false,
   rMix 0x130 1 0x4 false 0x40300000 0x0 0xFFFFFFFF 0x0 0x0 0x0 0x0,
   rMix 0x134 1 0x4 false 0x40366666 0x0 0xFFFFFFFF 0x0 0x0 0x0 0x0,
   rMix 0x138 1 0x4 false 0x3FECCCCD 0x0 0xFFFFFFFF 0x0 0x0 0x0 0x0,
   rMix 0x13C 1 0x4 false 0x3FE00000 0x0 0xFFFFFFFF 0x0 0x0 0x0 0x0,
   rMix 0x140 1 0x4 false 0x425C0000 0x0 0xFFFFFFFF 0x0 0x0 0x0 0x0,
   rMix 0x144 1 0x4 false 0x42820000 0x0 0xFFFFFFFF 0x0 0x0 0x0 0x0,
   rMix 0x148 1 0x4 false 0xC1A00000 0x0 0xFFFFFFFF 0x0 0x0 0x0 0x0,
   rRO 0x150 1 0x4 false 0x0 false,
   rRO 0x158 1 0x4 false 0x0 false,
   rRO 0x15C 1 0x4 false 0x0 false,
   rRO 0x160 1 0x4 false 0x0 true,
   rRO 0x164 1 0x4 false 0x0 false,
   rMix 0x300 15 0x4 false 0x0 0xFFFFFFFF 0x0 0x0 0x0 0x0 0x0,
   rRO 0x400 240 0x4 false 0x0 false,
   rRO 0x800 120 0x4 false 0x0 false,
   rRO 0xA00 120 0x4 false 0x0 false,
   rRO 0xC00 15 0x4 false 0x0 false]

/-- Block-specific registers of page 0x110: HVS_STS, HVS_VBUS, HVS_IBUS, HVS_PBUS, HVS_VSTR, HVS_ISTR, HVS_EOUT, HVS_SUM_TOL, HVS_CAL_ID. -/
def rows110 : List RegRow :=
  [rRO 0x100 1 0x4 false 0x0 false,
   rRO 0x104 1 0x4 false 0x0 false,
   rRO 0x108 1 0x4 false 0x0 false,
   rRO 0x10C 1 0x4 false 0x0 false,
   rRO 0x110 2 0x4 false 0x0 false,
   rRO 0x118 2 0x4 false 0x0 false,
   rRO 0x120 1 0x8 true 0x0 false,
   rMix 0x128 1 0x4 false 0x3F99999A 0x0 0xFFFFFFFF 0x0 0x0 0x0 0x0,
   rRO 0x12C 1 0x4 false 0x0 false]

/-- Block-specific registers of page 0x111: CLP_STS, CLP_CTL, CLP_EPOCH, CLP_PEER_EPOCH, CLP_CLAIM_CNT, CLP_YIELD_CNT, CLP_STALE_CNT, CLP_CRC_ERR, CLP_CONTEST_CNT, CLP_GAP_MAX, CLP_LAST_STAMP, CLP_LISTEN. -/
def rows111 : List RegRow :=
  [rRO 0x100 1 0x4 false 0x0 false,
   rMix 0x104 1 0x4 false 0x2 0x2 0x4 0x0 0x9 0x0 0x0,
   rRO 0x108 1 0x4 false 0x0 false,
   rRO 0x10C 1 0x4 false 0x0 false,
   rRO 0x110 1 0x4 false 0x0 true,
   rRO 0x114 1 0x4 false 0x0 true,
   rRO 0x118 1 0x4 false 0x0 true,
   rRO 0x11C 1 0x4 false 0x0 true,
   rRO 0x120 1 0x4 false 0x0 true,
   rRO 0x124 1 0x4 false 0x0 false,
   rRO 0x128 1 0x8 true 0x0 false,
   rRO 0x130 1 0x4 false 0x0 false]

/-- Block-specific registers of page 0x112: LIN_STS, LIN_CTL, LIN_RST_CAUSE, LIN_RST_CNT, LIN_RTC, LIN_VKA, LIN_VMAIN, LIN_RET_V, LIN_WAKE_EN, LIN_WAKE_SRC, LIN_SEAM_CNT, LIN_PD_IMG. -/
def rows112 : List RegRow :=
  [rRO 0x100 1 0x4 false 0x0 false,
   rMix 0x104 1 0x4 false 0x0 0x0 0x0 0x0 0xF 0x0 0x0,
   rRO 0x108 1 0x4 false 0x0 false,
   rRO 0x10C 1 0x4 false 0x0 true,
   rRO 0x110 1 0x8 true 0x0 false,
   rRO 0x118 1 0x4 false 0x0 false,
   rRO 0x11C 1 0x4 false 0x0 false,
   rRO 0x120 1 0x4 false 0x0 false,
   rMix 0x124 1 0x4 false 0x1F 0x1F 0x0 0x0 0x0 0x0 0x0,
   rMix 0x128 1 0x4 false 0x0 0x0 0x0 0x1F 0x0 0x0 0x0,
   rRO 0x12C 1 0x4 false 0x0 true,
   rRO 0x130 1 0x4 false 0x0 false]

/-- Block-specific registers of page 0x113: DIN_CFG, DIN_STS, DIN_CHAT_EDGES, DIN_CHAT_WIN, DIN_CLR, DIN_CHATTER, DIN_STUCK, DIN_MODE_CNT. -/
def rows113 : List RegRow :=
  [rMix 0x100 88 0x8 false 0x0 0x0 0xFFFF7FFF 0x0 0x0 0x0 0x0,
   rRO 0x104 88 0x8 false 0x0 false,
   rMix 0x800 1 0x4 false 0x8 0x0 0xFFFFFFFF 0x0 0x0 0x0 0x0,
   rMix 0x804 1 0x4 false 0xA 0x0 0xFFFFFFFF 0x0 0x0 0x0 0x0,
   rMix 0x808 1 0x4 false 0x0 0x0 0x0 0x0 0x0 0x7F 0x0,
   rRO 0x810 3 0x4 false 0x0 false,
   rRO 0x820 3 0x4 false 0x0 false,
   rRO 0x830 1 0x4 false 0x0 true]

/-- Block-specific registers of page 0x114: SLK_STS, SLK_CTL, SLK_PEER_SN, SLK_JNL_LAG, SLK_JNL_ACK_SEQ, SLK_PLAN_AGE, SLK_CAMEO_AGE, SLK_RESYNC_PCT, SLK_RX_ERR, SLK_TX_DROP, SLK_UNMIRRORED_CNT. -/
def rows114 : List RegRow :=
  [rRO 0x100 1 0x4 false 0x0 false,
   rMix 0x104 1 0x4 false 0x1 0x1 0x0 0x0 0x2 0x0 0x0,
   rRO 0x108 1 0x8 true 0x0 false,
   rRO 0x110 1 0x4 false 0x0 false,
   rRO 0x114 1 0x4 false 0x0 false,
   rRO 0x118 1 0x4 false 0x0 false,
   rRO 0x11C 1 0x4 false 0x0 false,
   rRO 0x120 1 0x4 false 0x0 false,
   rRO 0x124 1 0x4 false 0x0 true,
   rRO 0x128 1 0x4 false 0x0 true,
   rRO 0x12C 1 0x4 false 0x0 true]

/-- The common header of every allocated page (R434, R435, R440); BLK_ID and BLK_CAP read by R433. -/
def headerRows : List RegRow :=
  [rRO 0x0 1 4 false 0 false,
   rRO 0x4 1 4 false 0 false,
   rMix 0x8 1 4 false 0 0x3 0 0 0x4 0 0,
   rRO 0xC 1 4 false 0 false,
   rMix 0x10 1 4 false 0 0 0 0x1F 0 0 0,
   rMix 0x14 1 4 false 0 0x1F 0 0 0 0 0,
   rMix 0x18 1 4 false 0 0 0 0 0x1F 0 0,
   rMix 0x1C 1 4 false 0 0 0 0 0 0 0,
   rRO 0x20 1 8 true 0 false,
   rMix 0x28 1 4 false 0 0 0 0 0x1 0 0x2,
   rRO 0x2C 1 4 false 0 false]

/-- The block-specific rows of a page. -/
def blockRows (page : Nat) : List RegRow :=
  if page < 0x89 then
   if page < 0x49 then
    if page < 0x10 then
     if page < 0x3 then
      if page < 0x1 then
       rows000
      else
       if page < 0x2 then
        rows001
       else
        rows002
     else
      if page < 0x5 then
       if page < 0x4 then
        rows003
       else
        rows004
      else
       if page < 0x6 then
        rows005
       else
        []
    else
     if page < 0x20 then
      if page < 0x12 then
       if page < 0x11 then
        rows010
       else
        rows011
      else
       if page < 0x13 then
        rows012
       else
        []
     else
      if page < 0x34 then
       if page < 0x30 then
        rows020to02F
       else
        rows030to033
      else
       if page < 0x40 then
        []
       else
        rows040to04C
   else
    if page < 0x58 then
     if page < 0x51 then
      if page < 0x4D then
       rows040to04C ++ rows049to04C
      else
       if page < 0x50 then
        []
       else
        rows050
     else
      if page < 0x53 then
       if page < 0x52 then
        rows051
       else
        rows052
      else
       if page < 0x54 then
        rows053
       else
        []
    else
     if page < 0x80 then
      if page < 0x5C then
       if page < 0x59 then
        rows058 ++ rows058to05B
       else
        rows058to05B
      else
       if page < 0x60 then
        []
       else
        rows060to07F
     else
      if page < 0x85 then
       if page < 0x84 then
        rows080to083
       else
        rows084
      else
       if page < 0x88 then
        []
       else
        rows088
  else
   if page < 0x102 then
    if page < 0xA4 then
     if page < 0xA0 then
      if page < 0x90 then
       []
      else
       if page < 0x94 then
        rows090to093
       else
        []
     else
      if page < 0xA2 then
       if page < 0xA1 then
        rows0A0
       else
        rows0A1
      else
       if page < 0xA3 then
        rows0A2
       else
        rows0A3
    else
     if page < 0xC1 then
      if page < 0xB1 then
       if page < 0xB0 then
        []
       else
        rows0B0
      else
       if page < 0xC0 then
        []
       else
        rows0C0
     else
      if page < 0x100 then
       if page < 0xC2 then
        rows0C1
       else
        []
      else
       if page < 0x101 then
        rows100
       else
        rows101
   else
    if page < 0x10E then
     if page < 0x10A then
      if page < 0x108 then
       rows102to107
      else
       if page < 0x109 then
        rows108
       else
        rows109
     else
      if page < 0x10C then
       if page < 0x10B then
        rows10A
       else
        rows10B
      else
       if page < 0x10D then
        rows10C
       else
        rows10D
    else
     if page < 0x112 then
      if page < 0x110 then
       if page < 0x10F then
        rows10E
       else
        rows10F
      else
       if page < 0x111 then
        rows110
       else
        rows111
     else
      if page < 0x114 then
       if page < 0x113 then
        rows112
       else
        rows113
      else
       if page < 0x115 then
        rows114
       else
        []

/-- The order code and the values fixed per module at the factory (R1, R3, R433, R449): the fuse map, the ROM
revision and the identifiers the spec gives "per module" or "per ROM". -/
structure Fuses where
  /-- true: QW-SC9-F, false: QW-SC9-B -/
  full : Bool
  serial : BitVec 64
  calId : BitVec 32
  hwRev : BitVec 32
  fuseRev : BitVec 32
  tabRev : BitVec 8
  deriving DecidableEq, Repr

/-- Is the page allocated in the register window (R433)? -/
def pageAllocated (p : Nat) : Bool :=
  (p ≤ 0x5) || (0x10 ≤ p && p ≤ 0x13) || (0x20 ≤ p && p ≤ 0x33) || (0x40 ≤ p && p ≤ 0x4C) ||
  (0x50 ≤ p && p ≤ 0x53) || (0x58 ≤ p && p ≤ 0x5B) || (0x60 ≤ p && p ≤ 0x84) || (p = 0x88) ||
  (0x90 ≤ p && p ≤ 0x93) || (0xA0 ≤ p && p ≤ 0xA3) || (p = 0xB0) || (0xC0 ≤ p && p ≤ 0xC1) ||
  (0x100 ≤ p && p ≤ 0x114)

/-- Is the page marked absent on QW-SC9-B (R433)? -/
def pageAbsentOnB (p : Nat) : Bool :=
  (0x28 ≤ p && p ≤ 0x2F) || p = 0x32 || p = 0x33 || p = 0x5A || p = 0x5B || (0x70 ≤ p && p ≤ 0x7F)

/-- Is the unit of the page fitted under this order code? -/
def pagePresent (fx : Fuses) (p : Nat) : Bool := pageAllocated p && (fx.full || !pageAbsentOnB p)

/-- Is the page on the pulse die (R433)? -/
def onPulseDie (p : Nat) : Bool := 0x100 ≤ p

/-- The first page of the page's block and its INSTANCE (R433). -/
def blockOf (p : Nat) : Nat × Nat :=
  if p < 0x10 then (p, 0) else if p < 0x20 then (0x10, p - 0x10) else if p < 0x30 then (0x20, p - 0x20)
  else if p < 0x40 then (0x30, p - 0x30) else if p < 0x49 then (p, 0) else if p < 0x50 then (0x49, p - 0x49)
  else if p < 0x58 then (0x50, p - 0x50) else if p < 0x60 then (0x58, p - 0x58)
  else if p < 0x80 then (0x60, p - 0x60) else if p < 0x84 then (0x80, p - 0x80)
  else if p < 0x90 then (p, 0) else if p < 0xA0 then (0x90, p - 0x90)
  else if 0x102 ≤ p ∧ p ≤ 0x107 then (0x102, p - 0x102) else (p, 0)

/-- Is this page the one whose BLK_CTL governs its unit? A block of several pages is governed by its first page (R434);
the MAC arrays, vector units, DMA channels, DRAM channels, Strand ports and Chain lanes are one unit a page, and their
pages carry INSTANCE k for the unit itself, so each page governs its own unit (DEDUCED, log 12). -/
def ownBlkCtl (p : Nat) : Bool :=
  let b := (blockOf p).1
  p = b || b = 0x20 || b = 0x30 || b = 0x49 || b = 0x58 || b = 0x60 || b = 0x80

/-- Does the page implement ERR_INJ (R102: MAC and vector pages)? -/
def hasErrInj (p : Nat) : Bool := 0x20 ≤ p && p ≤ 0x33

/-- The header row of ERR_INJ on a page that implements it (R102). -/
def errInjRow : RegRow := rMix 0x1C 1 4 false 0 0x7FF8 0 0 0x7 0 0

/-- The rows of an offset's half of the page: header below 0x100, block registers above. -/
def rowsAt (page off : Nat) : List RegRow :=
  if off < 0x100 then (if off = 0x1C && hasErrInj page then [errInjRow] else headerRows) else blockRows page

/-- Does a row hold the byte offset as one of its registers' own offsets? -/
def RegRow.hits (r : RegRow) (off : Nat) : Bool :=
  r.off ≤ off && off < r.off + r.count * r.stride && (off - r.off) % r.stride = 0

/-- Does the offset name the high word of one of the row's 64-bit registers? -/
def RegRow.hitsHigh (r : RegRow) (off : Nat) : Bool :=
  r.wide && 4 ≤ off && r.hits (off - 4)

/-- The row whose register lies at the offset itself, if any. -/
def findRow (page off : Nat) : Option RegRow := (rowsAt page off).find? (·.hits off)

/-- The row of the 64-bit register whose high word lies at the offset, if any. -/
def findHigh (page off : Nat) : Option RegRow := (rowsAt page off).find? (·.hitsHigh off)

/-- OPT registers by order code (R449), by offset. -/
def optReset (fx : Fuses) (off : Nat) : Option Nat :=
  match off with
  | 0x100 => some (if fx.full then 0xF1 else 0x30)
  | 0x104 => some (if fx.full then 0xFFFF else 0xFF)
  | 0x108 => some (if fx.full then 0x4F20 else 0x4310)
  | 0x10C => some (if fx.full then 0x00B401E0 else 0x00B4012C)
  | 0x110 => some (if fx.full then 1 else 0)
  | 0x114 => some (if fx.full then 0x07800A00 else 0x04B00640)
  | 0x118 => some 0x02580320
  | 0x11C => some fx.fuseRev.toNat
  | _ => none

/-- PWR budget registers reset to the OPT limits (R450). -/
def pwrReset (fx : Fuses) (off : Nat) : Option Nat :=
  match off with
  | 0x108 => some (if fx.full then 0x0A00 else 0x0640)
  | 0x10C => some (if fx.full then 0x0780 else 0x04B0)
  | 0x110 => some 0x0320
  | 0x114 => some 0x0258
  | _ => none

/-- Reset byte p of PLT_MAP: brick (p mod 2) * 24 + p div 2 at position p (R200). -/
def pltResetByte (p : Nat) : Nat := (p % 2) * 24 + p / 2

/-- Reset word of PLT_MAP. -/
def pltResetWord (w : Nat) : Nat :=
  pltResetByte (4 * w) + 0x100 * pltResetByte (4 * w + 1) + 0x10000 * pltResetByte (4 * w + 2) +
  0x1000000 * pltResetByte (4 * w + 3)

/-- Record word k of control-law instance i in the shipped law table (R209, R212); 0 for instances 7 to 63. -/
def cleResetWord (i k : Nat) : Nat :=
  if i < 4 then
    if k = 0 then 0x0288000D else if k = 1 then (0x08 + i) + 0x100 * (0x14 + i)
    else if k = 2 then (0x01 + i) + 0x10000 * 400 else 0
  else if i = 4 then
    if k = 0 then 0x02000009 else if k = 1 then 0x01 else if k = 2 then 0x08 + 0x10000 * 120 else 0
  else if i < 7 then
    if k = 0 then 0x02880009 else if k = 1 then (0x10 + (i - 5)) + 0x100 * (0x05 + (i - 5))
    else if k = 2 then (0x09 + (i - 5)) + 0x10000 * 160 else 0
  else 0

/-- VMC registers whose reset depends on the channel (R219). -/
def vmcReset (n o : Nat) : Option Nat :=
  match o with
  | 0x00 => some (if n < 2 then 2 else 1)
  | 0x08 => some (if n = 2 then 1200 else if n = 3 then 1500 else 0)
  | 0x0C => some (if n < 2 then 200 else if n = 2 then 10 else 20)
  | 0x10 => some (if n = 2 then 4000 else 200)
  | 0x1C => some (if n < 2 then 500 else 100)
  | _ => none

/-- DIN_CFG reset of input n: deglitch in 0.1 microseconds, CHAT_EN, stuck timeout in ms (R421, R426). -/
def dinReset (n : Nat) : Nat :=
  let c := 0x4000
  if n = 0 then 10000 else if n = 1 then 10000 + c else if n = 2 then 1000 + c
  else if n = 3 then 10 + c + 10000 * 0x10000 else if n < 8 then 2000 + c
  else if n < 56 then 20 + c + 100 * 0x10000 else 5 + c + 10000 * 0x10000

/-- MBX_CFG reset of mailbox n: receiving agent, TX_MASK and PEER_MBX of R357 and R380. Agents: 0 Nugen, 1 sequencer,
2 CLE, 3 host, 4 peer (R356). WAKE_EN is 1 and IRQ_EN 0: the spec gives them no reset value (DESIGN CHOICE, log 5). -/
def mbxReset (n : Nat) : Nat :=
  let cfg (rx tx : Nat) : Nat := rx + 0x100 * tx + 0x10000 + 0x40000 * (if 8 ≤ n ∧ n ≤ 11 then n + 4 else n)
  if n < 8 then cfg 0 0x08 else if n < 12 then cfg 4 0x01 else if n < 16 then cfg 0 0x10
  else if n < 24 then cfg 1 0x01 else if n < 32 then cfg 0 0x02 else if n < 36 then cfg 2 0x01
  else if n < 40 then cfg 0 0x04 else if n < 48 then cfg 3 0x01 else cfg 0 0x1F

/-- BLK_CTL reset of a page's block: 1 for blocks that run from power-up (R435). The sequencer is taken not to, since
it starts OFF without a Pattern and is enabled by firmware (R79); every other block runs from power-up (DEDUCED, log 6). -/
def blkCtlReset (p : Nat) : Nat := if (blockOf p).1 = 0x10 || !ownBlkCtl p then 0 else 1

/-- Resets that depend on the instance, the order code or the module. -/
def specialReset (fx : Fuses) (page off : Nat) : Option Nat :=
  if off = 0x8 then some (if pagePresent fx page then blkCtlReset page else 0)
  else if page = 0x4 then optReset fx off
  else if page = 0x5 then pwrReset fx off
  else if page = 0 ∧ off = 0x11C then some fx.hwRev.toNat
  else if 0x30 ≤ page ∧ page ≤ 0x33 ∧ off = 0x114 then some fx.tabRev.toNat
  else if 0x90 ≤ page ∧ page ≤ 0x93 ∧ 0x100 ≤ off ∧ off < 0x500 ∧ off % 0x40 = 0 then
    some (mbxReset (16 * (page - 0x90) + (off - 0x100) / 0x40))
  else if page = 0xA1 ∧ off = 0x110 then some fx.serial.toNat
  else if page = 0x108 ∧ 0x100 ≤ off ∧ off < 0x200 then vmcReset ((off - 0x100) / 0x40) (off % 0x40)
  else if page = 0x109 ∧ 0x140 ≤ off ∧ off < 0x170 then some (pltResetWord ((off - 0x140) / 4))
  else if page = 0x10B ∧ 0x400 ≤ off ∧ off < 0x800 then some (cleResetWord ((off - 0x400) / 16) (off % 16 / 4))
  else if page = 0x110 ∧ off = 0x12C then some fx.calId.toNat
  else if page = 0x113 ∧ 0x100 ≤ off ∧ off < 0x3C0 ∧ off % 8 = 0 then some (dinReset ((off - 0x100) / 8))
  else none

/-- The reset value of the register at an address of the register window: the tables' value; 0 where the address names
no register (a reserved offset reads 0, R430); block-specific registers of a unit that is not fitted read 0 (R433). -/
def regReset (fx : Fuses) (addr : Nat) : Nat :=
  let page := addr / 4096
  let off := addr % 4096
  if !pagePresent fx page && 0x100 ≤ off then 0
  else match specialReset fx page off with
    | some v => v
    | none => match findRow page off with
      | some r => r.reset
      | none => 0

end Sys2Proof.Machine
end

