-- ==== Sys2Proof/Machine/State.lean ====
section
/-!
DEFINITION. The machine's state as plain data: everything the spec gives the module, in groups that follow the spec's
chapters. A register the spec numbers lives in ONE place: the sparse register table `State.regs`, keyed by its address in
the register window (page * 4096 + offset); an unlisted register holds its reset value (`regReset`). The groups below hold
what the spec names beside the registers: sequencer state, buffers, rings, timers, queues and what a block remembers.
Instants are site time in ns; a timer is kept as the instant it began.
-/
namespace Sys2Proof.Machine

/-- A fault of the model. No command of this block ends in one: every event the spec describes has an effect, and an event
row whose precondition does not hold leaves the machine as it is (log 4). The type is kept closed and named for the host. -/
inductive Fault
  /-- Never raised by any meaning; safe (it could only stop a run). -/
  | unused
  deriving DecidableEq, Repr

/-- Why a command has no meaning. -/
inductive Refusal
  /-- Raised by a dispatch arm whose row is not modelled, under the row's mnemonic; safe. -/
  | notModelled (mnemonic : String)
  deriving DecidableEq, Repr

/-! ## Chapter 2: time -/

/-- The next instants at which the boundaries of each grid may fall: a boundary command moves to the first grid instant at
or after both `now` and this (R34, log 1). -/
structure Grid where
  pulse : Nat
  ctl : Nat
  plan : Nat
  epoch : Nat
  admission : Nat
  clasp : Nat
  deriving DecidableEq, Repr

/-- TSTATE of R25. -/
inductive TState
  | unset
  | rtc
  | acquiring
  | lockedPtp
  | lockedChain
  | holdover
  deriving DecidableEq, Repr

/-- Site time beside its registers (R26 to R32): the time state, UNC, whether the clock is being slewed with an offset
above 100 ns, the source followed, the start of a holdover, the run of plan frames in which PTP and Chain disagree, and
the RTC of the Lining (valid, and the last disciplined STAMP64, R406). -/
structure TimeSt where
  tstate : TState
  unc : BitVec 2
  slewing : Bool
  source : TimeSource
  holdSince : Nat
  disagreeRun : Nat
  disagreeFrame : Nat
  disagree : Bool
  fault : Bool
  rtcValid : Bool
  rtcBase : Nat
  ptpSeen : Bool
  upSince : Nat
  deriving DecidableEq, Repr

/-! ## Chapter 15: events and audit -/

/-- An event record of R441 (its CRC is computed when it is read). `jnl`: already journalled (R442). -/
structure EvRec where
  stamp : DWord
  src : Half
  qual : Byte
  sev : Byte
  code : Half
  rep : Half
  unit : Byte
  cause : Byte
  v0 : Word
  v1 : Word
  v2 : Word
  jnl : Bool
  deriving DecidableEq, Repr

/-- The event fabric (R442): the ring (oldest first), the pulse-die buffer (oldest first), and how many records
Nugen has announced over Redfish. -/
structure EvtSt where
  ring : List EvRec
  pd : List EvRec
  announced : Nat
  deriving DecidableEq, Repr

/-- A write-audit entry of R38 (its CRC is computed when it is read). -/
structure AudRec where
  stamp : DWord
  src : Half
  qual : Byte
  path : Byte
  addr : Word
  value : DWord
  wrSeq : Word
  wide : Bool
  rejected : Bool
  pulse : Bool
  deriving DecidableEq, Repr

/-- The write audit (R38, R39): the ring and the pulse-die buffer, oldest first, how many ring entries the journal has
already (counted from the ring's newest end as entries since the last copy), the low words held per path for a write, and the high words
latched per path by a read (R430). -/
structure AudSt where
  ring : List AudRec
  pd : List AudRec
  sinceCopy : Nat
  held : List (Nat × (Nat × Word))
  latched : List (Nat × (Nat × Word))
  deriving DecidableEq, Repr

/-! ## Chapter 14: power -/

/-- How far the base die has come (R407). -/
inductive BasePhase
  | off
  | rom
  | up
  deriving DecidableEq, Repr

/-- How far the pulse die has come (R407, R408). -/
inductive PulsePhase
  | off
  | powered
  | up
  deriving DecidableEq, Repr

/-! ## Chapter 12: mailboxes -/

/-- A mailbox beside its registers (R356 to R359): the message held, whether a fetch has happened since the last
acknowledgement, the session that posted it (R361), and the agent and session that posted the message last fetched. -/
structure MbxSt where
  msg : BitVec 2048
  fetched : Bool
  poster : Option (Fin 64)
  fromAgent : Nat
  fromSess : Option (Fin 64)
  deriving DecidableEq, Repr

/-- The mailbox block: the 64 mailboxes, the staging and read buffers of each path (R358, R359), MBX_DSEL per page and
path (R380; index 7 * page + path), the messages the pulse die holds for a sleeping base die (R360: at most 4), and the
NOTIFY frames sent. -/
structure MbxGrp where
  box : Vector MbxSt 64
  staging : Vector (BitVec 2048) 7
  readBuf : Vector (BitVec 2048) 7
  dsel : Vector (BitVec 10) 28
  heldMsgs : List (Nat × BitVec 2048)
  notified : Nat
  deriving DecidableEq, Repr


/-! ## Chapter 3: the sequencer -/

/-- A variant-table entry (R58). -/
structure VariantRow where
  code : Nat
  stackN : Nat
  frameCyc : Nat
  arrays : Nat
  air : Bool
  steer : Bool
  deriving DecidableEq, Repr

/-- What the module keeps of a Pattern (R57 to R60): its identity, class, super-frame, tail and swap mode, its variant
table, the declared peak and mean of each variant (R63), its regions as (start, length, persistent), and its
mailbox-buffer table (R48). -/
structure PatDesc where
  id : BitVec 128
  version : Word
  rollback : Word
  targetF : Bool
  cls : Nat
  superN : Nat
  tailMin : Nat
  hot : Bool
  layout : BitVec 128
  variants : List VariantRow
  profile : List (Nat × Nat × Nat)
  regions : List (Nat × Nat × Bool)
  mbxDesc : List Nat
  deriving DecidableEq, Repr

/-- What a Stitch-store bank holds (R66, R77). -/
inductive BankKind
  | empty
  | staged
  | previous
  | warm
  | loading
  | active
  deriving DecidableEq, Repr

/-- A Stitch-store bank: its kind, the Pattern, the variant and the compressed stream (R51). -/
structure BankSt where
  kind : BankKind
  pat : Option PatDesc
  variant : Nat
  steer : Nat
  stream : List Byte
  deriving DecidableEq, Repr

/-- A variant switch under way (R68, R70, R72): none; the warm variant at the next control-frame boundary; a copy during
HOLD; or a load without HOLD, with its VARIANT_SWITCH cause (2 cooling, 3 return of a unit). -/
inductive SwitchKind
  | none
  | warm
  | copy
  | noHold (cause : Nat)
  deriving DecidableEq, Repr

/-- The running body (R55, R56, R73, R74): whether it is being issued, its control frame, its lateness in cycles, the
cycles stretched in it, the cycle from its boundary at which its FRAME_END issued, and how many control-frame boundaries
have arrived while it was being issued. -/
structure BodySt where
  active : Bool
  frame : Nat
  late : Nat
  stretch : Nat
  ended : Option Nat
  missed : Nat
  deriving DecidableEq, Repr

/-- The sequencer beside its registers: the loader at work (with the signature verdicts and whether it only checks), the
two banks, the Pattern store's copy of the running Pattern (R68) and of the previous one (R66), the switch and the swap under way, whether handoffs are
withheld, the flags the next body carries (R56), the body, the last frame a body ran for, the trace ring and the awake and
sleeping stacks. -/
structure SeqSt where
  loadBusy : Bool
  loadCheckOnly : Bool
  loadSig : SigVerdict
  bank0 : BankSt
  bank1 : BankSt
  store : List Byte
  storePrev : List Byte
  sw : SwitchKind
  swVariant : Nat
  swSteer : Nat
  swReadyAt : Option Nat
  swapDue : Option Nat
  coldHold : Bool
  withheld : Bool
  nextFlags : Nat
  stretchPrev : Nat
  body : BodySt
  lastFrame : Option Nat
  trace : List (Nat × Byte)
  awake : BitVec 4
  deriving DecidableEq, Repr


/-! ## Chapter 4: the MAC arrays -/

/-- A weight row of an array as loaded (R82, R85, R89): element codes, stored radii b' (FP16, ball only), the E8M0 scales of
its block (MX only), its format, the serial, LEN and DEPTH of the WLOAD it came with, and the cycle from which a STREAM
uses it (R83). -/
structure MacRow where
  elems : List Nat
  rad : List Nat
  scale : List Nat
  fmt : Nat
  ball : Bool
  tile : Nat
  tileLen : Nat
  depth : Nat
  usable : Nat
  deriving DecidableEq, Repr

/-- One column's accumulator (R91): the FP32 value or midpoint, the FP16 radius entry, and UFL. -/
structure AccCol where
  val : Nat
  rad : Nat
  ufl : Bool
  deriving DecidableEq, Repr

/-- An accumulator entry (R91, R92): the latched mode, the columns, rows counted, least declared depth, and whether a mode
clash restarted it since its last ball DRAIN. -/
structure AccEntry where
  mode : Option (Nat × Bool)
  cols : List AccCol
  rows : Nat
  depth : Option Nat
  clash : Bool
  deriving DecidableEq, Repr

/-- A contribution on its way to an entry (R83): when it lands, where, whether it replaces, and what it brings; `flip` is an
accumulator bit that an injection inverts at the write (R102). -/
structure MacFlight where
  lands : Nat
  set : Nat
  entry : Nat
  replace : Bool
  ball : Bool
  cols : List AccCol
  rows : Nat
  depth : Option Nat
  clash : Bool
  flip : Option (Nat × Nat)
  deriving DecidableEq, Repr

/-- A MAC array: both weight buffers (each row with the row it replaced), both accumulator sets by (set * 256 + entry), the
contributions in flight and the serial of the last WLOAD. -/
structure MacSt where
  buf0 : List (Option MacRow × Option MacRow)
  buf1 : List (Option MacRow × Option MacRow)
  entries : List (Nat × AccEntry)
  flight : List MacFlight
  serial : Nat
  deriving DecidableEq, Repr

/-- An array right after power-up: nothing loaded. -/
def MacSt.empty : MacSt := ⟨[], [], [], [], 0⟩


/-! ## Chapter 5: engines, shared memory, MRDIMM and the flight recorder -/

/-- The FFT engine's buffer (R120): length, batch, direction, the points as FP32 codes, and whether poison was read. -/
structure FftSt where
  n : Nat
  b : Nat
  inverse : Bool
  data : List (Nat × Nat)
  poison : Bool
  deriving DecidableEq, Repr

/-- The QP engine's store (R121 to R123): sizes, the arrays as FP32 codes or indices, the iterates, the iterations since
LOAD, and whether the problem was infeasible or poisoned. -/
structure QpSt where
  n : Nat
  w : Nat
  mD : Nat
  mG : Nat
  cg : Nat
  sets : List Nat
  pDiag : List Nat
  q : List Nat
  lo : List Nat
  hi : List Nat
  pairs : List (Nat × Nat)
  rowStart : List Nat
  colIdx : List Nat
  vals : List Nat
  x : List Nat
  z : List Nat
  y : List Nat
  iters : Nat
  infeasible : Bool
  poison : Bool
  deriving DecidableEq, Repr

/-- A span of the integrator's table (R128): endpoint, start and end instants (none: open), weight in 2^-15, energy
accumulator (signed) and uncertainty accumulator in 2^-79 microjoule, sample and missing counts. -/
structure SpanT where
  ep : Nat
  start : Nat
  stop : Option Nat
  w : Nat
  energy : Int
  unc : Nat
  samples : Nat
  missing : Nat
  deriving DecidableEq, Repr

/-- A histogram set (R130): bins by index (absent 0), the four counts, and the extremes with their stamps. -/
structure HstSet where
  bins : List (Nat × Nat)
  under : Nat
  ovr : Nat
  nan : Nat
  count : Nat
  least : Option (Nat × Nat)
  most : Option (Nat × Nat)
  deriving DecidableEq, Repr

/-- A one-dimensional spline segment (R131), FP32 codes. -/
structure SplSeg where
  knot : Nat
  coef : List Nat
  slope : Nat
  err : Nat
  deriving DecidableEq, Repr

/-- A bicubic cell (R131), FP32 codes: 16 coefficients (row-major in x then y), L_x, L_y and E. -/
structure SplCell where
  coef : List Nat
  lx : Nat
  ly : Nat
  err : Nat
  deriving DecidableEq, Repr

/-- A spline table (R131): 1-D segments and the end of the last one, or 2-D knots and cells. -/
structure SplTab where
  segs : List SplSeg
  stop : Nat
  xs : List Nat
  ys : List Nat
  cells : List SplCell
  deriving DecidableEq, Repr

/-- A queued asynchronous transfer (R135): direction (true: MRDIMM to group 15), the byte addresses, bytes, status granule,
op code, descriptor and frame. -/
structure AsyncX where
  read : Bool
  shm : Nat
  mr : Nat
  len : Nat
  sts : Nat
  desc : Nat
  frame : Nat
  deriving DecidableEq, Repr

/-- The engines' local memories and queues (R115 to R138): descriptor memory by offset, the absolute cycle at which each
engine is free, FFT, QP, integrator spans and rail coefficients, histogram sets, spline tables, the asynchronous queues of
the DMA channels with their sequence numbers, the receive rings' written, published, copied and mover counts, and the
egress queues of the Strand ports, the Chain directions and the slot link; `refOut` is the last reference handed to the
pulse die. -/
structure EngSt where
  descMem : List Host.Cell
  freeAt : Vector Nat 15
  fft : FftSt
  qp : QpSt
  spans : List (Nat × SpanT)
  coef : List (Nat × (Nat × Nat))
  hst : List (Nat × HstSet)
  spl : List (Nat × SplTab)
  async : Vector (List AsyncX) 4
  asyncSeq : Vector Nat 4
  ringWritten : Vector Nat 34
  ringPublished : Vector Nat 34
  ringCopied : Vector Nat 34
  ringMoved : Vector Nat 34
  strandQ : Vector (List (List Byte)) 32
  chainQ : Vector (List (List Byte)) 2
  slotQ : List (List Byte)
  refOut : Option (List Byte × Bool)
  planOut : List (List Byte)
  vecFlip : BitVec 4
  deriving DecidableEq, Repr

/-- Engines right after power-up. -/
def EngSt.empty : EngSt :=
  ⟨[], Vector.replicate 15 0, ⟨0, 0, false, [], false⟩,
   ⟨0, 0, 0, 0, 0, [], [], [], [], [], [], [], [], [], [], [], [], 0, false, false⟩, [], [], [], [],
   Vector.replicate 4 [], Vector.replicate 4 0, Vector.replicate 34 0, Vector.replicate 34 0, Vector.replicate 34 0,
   Vector.replicate 34 0, Vector.replicate 32 [], Vector.replicate 2 [], [], none, [], 0⟩

/-- A frame slot of the flight recorder (R143): its frame, whether the mover has completed it, the export flags, and the
samples present by position (1,920 n + 40 r + 4 k over 4); a position not listed is a missing sample (0x8000_FFFF). -/
structure FrSlot where
  frame : Nat
  done : Bool
  post : Bool
  air : Bool
  late : Bool
  ue : Bool
  samples : List (Nat × Word)
  deriving DecidableEq, Repr

/-- An entry of the late log (R143). -/
structure LateEnt where
  stamp : Nat
  ep : Nat
  rail : Nat
  sample : Word
  deriving DecidableEq, Repr

/-- The flight recorder beside its registers (R143 to R147): the slots by slot number, the frozen ring's slots while the
AIR ring records, post-trigger frames left, the late log, and the frames exported with their session. -/
structure FrSt where
  slots : List (Nat × FrSlot)
  frozen : List (Nat × FrSlot)
  left : Nat
  lateLog : List LateEnt
  exported : List (Nat × Nat)
  exports : Nat
  deriving DecidableEq, Repr

/-- Shared-memory scrubbing (R113): lines read per bank, and the row whose corrected line awaits its write-back. -/
structure ScrubSt where
  lines : List (Nat × Nat)
  back : List (Nat × Nat)
  passStart : Nat
  deriving DecidableEq, Repr

/-! ## Chapter 6: endpoints, intents and the budget -/

/-- What an aggregator's IDENT says of an endpoint (R156): rails, P_FLOOR and P_MAX in 0.25 W, slews in W per ms. -/
structure EpIdent where
  rails : Nat
  pFloor : Nat
  pMax : Nat
  slewDn : Nat
  slewUp : Nat
  deriving DecidableEq, Repr

/-- A rail's description (R163): kind, uncertainty in ppm, FP32 codes of the voltage and current scales, and the instant it
landed. -/
structure RailDesc where
  kind : Nat
  acc : Nat
  vLsb : Nat
  iLsb : Nat
  landed : Nat
  deriving DecidableEq, Repr

/-- An endpoint's STATUS (R165) and the stamp of its flit. -/
structure EpStatus where
  stamp : Nat
  phase : Nat
  state : Nat
  gseq : Nat
  eAcc : Nat
  pNow : Nat
  deriving DecidableEq, Repr

/-- An intent (R167): powers in 0.25 W, rates in W per microsecond, duration in microseconds; `out`: consecutive windows
outside its envelope (R169). -/
structure IntentRec where
  created : Nat
  start : Nat
  dur : Nat
  cls : Nat
  conf : Nat
  iid : Nat
  lo : Nat
  mean : Nat
  hi : Nat
  rise : Nat
  fall : Nat
  cancel : Bool
  out : Nat
  deriving DecidableEq, Repr

/-- The short forecast of an endpoint beside its intents (R172): the mean power measured over the last control frame, exact;
the free value that stands for the load model's last run and the control frame
of that run; and the errors of the frames since. -/
structure FcSt where
  pLast : Fv
  run : Nat
  runFrame : Nat
  errs : List (Fv)
  longRun : Nat
  deriving DecidableEq, Repr

/-- An endpoint (R156 to R183): identity, rails, status, pending intents, instants of falsified intents, the bar on its
intents, the counts of R168 and R171, the power measured in the frame and in the 100 microsecond window in progress, the
forecast, its grants (0.25 W per class), their effect and expiry, whether it stands in the plan and at its lapse level, and
whether the arbiter holds it at its floor grant after a release (R188). -/
structure EpSt where
  ident : EpIdent
  rails : List (Nat × RailDesc)
  status : Option EpStatus
  intents : List IntentRec
  falsified : List Nat
  barUntil : Option Nat
  cntDiscarded : Nat
  cntRejected : Nat
  cntLate : Nat
  cntSpan : Nat
  acc : Fv
  accFrames : Nat
  win : Fv
  winFrames : Nat
  fc : FcSt
  grants : List Nat
  effect : Nat
  expiry : Nat
  planFrom : Option Nat
  lapsed : Bool
  held : Bool
  deriving DecidableEq, Repr

/-- An outbound flit or frame as last sent: type, sequence, stamp and the payload from offset 0x10. -/
structure TxFlit where
  ty : Nat
  seq : Nat
  stamp : Nat
  body : List Byte
  deriving DecidableEq, Repr

/-- A Strand port beside its registers (R151 to R166): outbound sequence, when IDENT was last sent and IDENT_WAIT entered,
the cause of a mismatch (0: the check passed), the echoes sent and when the last was, the t1 of echoes not yet answered,
the last 16 delays, the plan frame in which a flit was discarded before admission, the grant sequence, the endpoint and slot
of a burst capture and the bytes stored, and the last flit sent of each type. -/
structure PortSt where
  txSeq : Nat
  identAt : Nat
  waitSince : Nat
  mismatch : Nat
  proto : Nat
  echoes : Nat
  lastEcho : Nat
  t1s : List Nat
  delays : List Int
  preFrame : Option Nat
  gseq : Nat
  burstSlot : Nat
  burstBytes : Nat
  sent : List (Nat × TxFlit)
  deriving DecidableEq, Repr

/-- The plan in force (R175 to R178) as the QP engine left it: rectifier output per interval in W, storage power per
interval in W (positive discharges), and the plan frame from which it counts. -/
structure PlanSt where
  g : List Nat
  storage : List Int
  frame : Nat
  deriving DecidableEq, Repr

/-- The shelf's budget (R174 to R188): the port after which admission goes on, landed intents waiting for the next control
frame (endpoint, landing frame, intent), the policy in force and the one committed and not yet in effect, the standing
policy, POLICY_LAPSED, loss of the AC input, the plan, plan frames without SOLVED, the cap in force and the setpoint, trays
floored by the arbiter (last first), what the last plan frame gave the Pattern, and whether a component above 4 Hz holds the ramp at
the lower rate (R176). The cap is in W, the setpoint in mW. -/
structure ArbSt where
  lastPort : Nat
  landed : List (Nat × (Nat × IntentRec))
  policy : Option (List Byte)
  pendingPolicy : Option (List Byte)
  standing : Option (List Byte)
  policyLapsed : Bool
  gridLoss : Bool
  acLost : BitVec 12
  plan : Option PlanSt
  unsolved : Nat
  cold : Bool
  cap : Nat
  setpoint : Nat
  floored : List Nat
  lastIn : Option PlanIn
  toned : Bool
  deriving DecidableEq, Repr

/-- An endpoint no one has identified. -/
def EpSt.empty : EpSt :=
  ⟨⟨0, 0, 0, 0, 0⟩, [], none, [], [], none, 0, 0, 0, 0, Fv.zero, 0, Fv.zero, 0, ⟨Fv.zero, 0, 0, [], 0⟩, [], 0, 0, none, false,
   false⟩

/-- A port right after reset. -/
def PortSt.empty : PortSt := ⟨0, 0, 0, 0, 0, 0, 0, [], [], none, 0, 0, 0, []⟩

/-! ## Chapter 7: the pulse die -/

/-- A phase brick beside its registers (R194 to R198): switched on within a period and since when, comparator armed, a
cycle-by-cycle hit in the period, consecutive periods ended by that limit, its turn-on offset in ticks, the pulse-period
number at which a threshold ramp to 0 began, that ramp's first code, the last 16 downslopes measured (FP32 codes, oldest
first), and whether a STARTING brick waits for a rotation boundary. -/
structure BrickSt where
  on : Bool
  onAt : Nat
  armed : Bool
  hit : Bool
  cbcRun : Nat
  offset : Nat
  ramp : Option Nat
  rampCode : Nat
  m2 : List Nat
  waitRot : Bool
  deriving DecidableEq, Repr

/-- Pleat, shedding and the storage command beside their registers (R191, R196 to R206): the bricks, the values sensed in the
last pulse period, the strings' thresholds with the ones before and the picosecond of the last write, the bus-law output,
the strings running a period at threshold 0 before turning, the active counts, whether each string had a brick in service at
the last boundary, the map in force and the path of the last word written to the pending one, the last rotation boundary
met, rotations deferred, since when shedding's condition holds, the pulse period of the last shed, a detected step that
awaits its B0, that B0, the last step, the earliest B0 after a gain of ownership, and the run of bus samples outside
SHD_VDEV. -/
structure PleatSt where
  brick : Vector BrickSt 48
  sense : Sense
  thr : Nat × Nat
  thrPrev : Nat × Nat
  thrAt : Nat × Nat
  busLaw : Nat
  turn : Bool × Bool
  n : Nat × Nat
  entered : Bool × Bool
  map : List Nat
  mapPath : Path
  rotAt : Nat
  deferred : Nat
  lowSince : Option Nat
  shedPulse : Option Nat
  stepAt : Option Nat
  b0 : Option Nat
  lastStep : Option Nat
  b0Min : Nat
  vRun : Nat
  deriving DecidableEq, Repr

/-- The control-law engine beside its registers (R208 to R215): coefficient words that differ from the shipped ones (by
instance, bank and word), states, swaps that wait (true: bank B), consecutive misses and consecutive samples that met their
deadline, and the cycles used in the pulse period in progress and the most in the present second. -/
structure CleSt where
  bank : List (Nat × DWord)
  x : List (Nat × List Nat)
  swap : List (Nat × Bool)
  missRun : List (Nat × Nat)
  metRun : List (Nat × Nat)
  utilPulse : Nat
  utilCycles : Nat
  utilSecond : Nat
  utilMax : Nat
  deriving DecidableEq, Repr

/-- A voltage-mode channel beside its registers (R216 to R218): the voltage from which its soft start began (FP32 code), the
instant of the attempt, since when it runs, when its stop ramp and its hiccup began, and the brick-side cycle it last
turned on. -/
structure VmSt where
  v0 : Nat
  startAt : Nat
  runAt : Nat
  stopAt : Nat
  holdAt : Nat
  cycleAt : Nat
  deriving DecidableEq, Repr

/-- The last telemetry read of a rectifier (R37): its read sequence, stamp with ARRIVAL set, and what was read. -/
structure RectTel where
  seq : Nat
  stamp : Nat
  qual : Nat
  data : RectIn
  deriving DecidableEq, Repr

/-- Governor, holdover, plan buffer, floors and setpoints beside their registers (R220 to R230, R9 to R12): reference records
by frame with their poison mark, the last record that passed checks 1 to 5, the last accepted midpoints, the targets of t
and whether a move is due and since when, whether the last judgement's target is still being approached, runs of accepted
and of missed frames, the plan in force and the granules of the next, the floor masks by source, tray alerts with the instant
each became inactive, who sends setpoints, the setpoint computed (FP32 code), RAMP and RECT_N of the last valid plan, the
RS-485 line, rectifiers answering and rectifiers with a short hold, since when each string's command stands at its limit, and
the plan frame of the last floor asserted one at a time. -/
structure GovSt where
  refs : List (Nat × (List Byte × Bool))
  passed : Option (Nat × (Nat × Nat))
  accepted : Option (Nat × Nat)
  target : Nat × Nat
  due : Option Nat
  moving : Bool
  accRun : Nat
  missRun : Nat
  plan : Option (List Byte)
  next : Option (List Byte)
  planMask : Nat
  holdMask : Nat
  alertMask : Nat
  alerts : Nat
  alertEnd : List (Nat × Nat)
  selfSp : Bool
  g : Nat
  ramp : Nat
  rectN : Nat
  lineOk : Bool
  lineFail : Nat
  lineGood : Option Nat
  rectUp : BitVec 12
  rectBad : BitVec 12
  limSince : Option Nat × Option Nat
  lastFloor : Option Nat
  rectTel : List (Nat × RectTel)
  deriving DecidableEq, Repr

/-- Protection beside its registers (R231, R232): PLL lock and since when, the bricks that each latched trip stopped (trips
by their PRT_STS bit; 16 + x for the cell trips of string x), and strings whose contactor opens once the current allows, since
the trip; and ship mode's entry (1) or exit (2) under way. -/
structure PrtSt where
  pll : Bool
  pllSince : Nat
  stopped : List (Nat × List Nat)
  opening : Option Nat × Option Nat
  ship : Nat
  deriving DecidableEq, Repr

/-- A brick right after reset. -/
def BrickSt.empty : BrickSt := ⟨false, 0, false, false, 0, 0, none, 0, [], false⟩

/-- Nothing sensed yet. -/
def Sense.empty : Sense := ⟨[], 0, 0, 0, 0, 0, 0, 0, 0, 0, [], [], [], []⟩

/-- Pleat right after reset: the map of R200. -/
def PleatSt.empty : PleatSt :=
  ⟨Vector.replicate 48 BrickSt.empty, Sense.empty, (0, 0), (0, 0), (0, 0), 0, (false, false), (0, 0), (false, false),
   (List.range 48).map pltResetByte, .nugen, 0, 0, none, none, none, none, none, 0, 0⟩

/-- Governor right after reset: 33 kW/s of R6 until a plan is valid; 12 rectifiers until a plan names their number. -/
def GovSt.empty : GovSt :=
  ⟨[], none, none, (0, 0), none, false, 0, 0, none, none, 0, 0, 0, 0, [], true, 0, 0x42040000, 12, true, 0, none,
   0#12, 0#12, (none, none), none, []⟩

/-! ## Chapter 8: storage strings -/

/-- A contactor block beside its registers (R258 to R261, R267 to R270): when the main and the precharge coil commands last
changed, a close that waits for the other string, the plan frame from which a closed string runs, an open that waits for its plan
frame, the instant every brick was OFF, the start of a rest window and of the last one, the last anchor with its sigma (0.01 %),
the plan frames of overload of the other string in a window, since when the shelf's storage power has suited one, the start of an
excitation burst and the end of the last, the last journal of learned values and one that is due. -/
structure CtcSt where
  mainAt : Nat
  preAt : Nat
  waiting : Bool
  runFrame : Option Nat
  leaving : Bool
  bricksOff : Option Nat
  restAt : Option Nat
  lastRest : Option Nat
  anchorAt : Nat
  anchorSigma : Option Nat
  overFrames : Nat
  quietSince : Option Nat
  excAt : Option Nat
  excEnd : Option Nat
  learnedAt : Nat
  journalDue : Bool
  deriving DecidableEq, Repr

/-- A Bead (R239 to R252): awake, serial reported, window and settle in force, balance request mask, its last valid reply,
consecutive replies with a balance mismatch and with PLAUS_FAIL, and the masks forced on it with the cycle of a release. -/
structure BeadSt where
  awake : Bool
  reach : Bool
  serial : BitVec 48
  window : Nat
  settle : Nat
  bal : BitVec 16
  force : BitVec 16
  taintFrom : Option Nat
  taintUntil : Nat
  taintMask : BitVec 16
  lastReply : Nat
  mismatchRun : Nat
  plausRun : Nat
  plausSign : Bool
  thermal : Bool
  dieTemp : Nat
  diag : Nat
  deriving DecidableEq, Repr

/-- A string's Bead loop (R239 to R257): the hops failed with their runs of good probes, the cycle number, since when the
current has been at or below BDS_RATE_I, a return to fast cadence that waits for its plan frame, the open-wire test in progress
(Bead, wire, cycle of its start with 0 before it, evidence), wires found open and verdicts unresolved (Bead, wire, instant of the
next test), consecutive readings per condition, runs of the string-sum check, the temperature inputs excluded, cold and warned,
Beads whose coarse path is ignored, the Bead frames heard since the last sum (2 * Bead + parity), the instant of the last balance
request, and the largest deviation (FP32 code, V) that asked for the test in progress. -/
structure LoopSt where
  bead : Vector BeadSt 15
  hopFailed : List Nat
  hopGood : List (Nat × Nat)
  cycle : Nat
  lowSince : Option Nat
  fastDue : Bool
  owt : Option (Nat × (Nat × (Nat × Nat)))
  openWires : List (Nat × Nat)
  unresolved : List (Nat × (Nat × Nat))
  runs : List (Nat × Nat)
  sumBad : Nat
  sumGood : Nat
  tempFault : List Nat
  coldInputs : List Nat
  warnTemps : List Nat
  coarseBad : List Nat
  got : List Nat
  balWritten : Nat
  evid : Nat
  deriving DecidableEq, Repr

/-- The estimators of a string as the module keeps them (R264 to R273): filter steps taken, filters restarted, the largest sigma
of z in 0.01 %, capacity updates, updates of Rs from bursts, and ANCHOR_REQUIRED. -/
structure EstSt where
  steps : Nat
  restarts : Nat
  sigma : Nat
  capUpdates : Nat
  rsUpdates : Nat
  anchorReq : Bool
  deriving DecidableEq, Repr

/-- A contactor block right after reset. -/
def CtcSt.empty : CtcSt :=
  ⟨0, 0, false, none, false, none, none, none, 0, none, 0, none, none, none, 0, false⟩

/-- A Bead asleep. -/
def BeadSt.empty : BeadSt := ⟨false, false, 0, 16, 34, 0, 0, none, 0, 0, 0, 0, 0, false, false, 0, 0⟩

/-- A loop right after reset. -/
def LoopSt.empty : LoopSt :=
  ⟨Vector.replicate 15 BeadSt.empty, [], [], 0, none, false, none, [], [], [], 0, 0, [], [], [], [], [], 0, 0⟩

/-! ## Chapter 9: Hallmark -/

/-- What the standard Pattern keeps of a request span beside the integrator's table (R279, R171, R298): endpoint, SPAN_ID,
REQ_ID, the weight last commanded, whether it is open, and what its request's record is to be told (FLAGS bits of R285). -/
structure SpanTag where
  ep : Nat
  sid : Nat
  req : Nat
  w : Nat
  isOpen : Bool
  flags : Nat
  deriving DecidableEq, Repr

/-- The sums of a request within one epoch (R284, R285): REQ_ID, EP_SET, earliest start and latest end of its spans, the
exact sums of both accumulators (2^-79 uJ), sample and missing counts, and FLAGS so far. -/
structure ReqAcc where
  req : Nat
  eps : Nat
  start : Nat
  stop : Nat
  energy : Int
  unc : Nat
  samples : Nat
  missing : Nat
  flags : Nat
  deriving DecidableEq, Repr

/-- A record (R285), in uJ. -/
structure HmkRec where
  req : Nat
  eps : Nat
  start : Nat
  stop : Nat
  energy : Int
  unc : Nat
  residual : Int
  resUnc : Nat
  policy : Nat
  flags : Nat
  missing : Nat
  samples : Nat
  rseq : Nat
  deriving DecidableEq, Repr

/-- How far an epoch has come (R295). -/
inductive EpochStage
  | metering
  | read
  | reconciled
  | rooted
  | journalled
  | sealed
  deriving DecidableEq, Repr

/-- An epoch not yet released (R288 to R297): its header's fields as they become known, the sums per request and per endpoint
span, the bus energy of the frames integrated and of those skipped, the records, the journal SEQ of its header, the E_ACC
of each endpoint whose STATUS lay nearest its END (R298), and the instant at which its header went to Signet (R295). -/
structure EpochSt where
  epoch : Nat
  part : Nat
  start : Nat
  stop : Option Nat
  flags : Nat
  policy : Nat
  qual : Nat
  reqs : List ReqAcc
  eps : List (Nat × (Int × Nat))
  bus : Nat
  skip : Nat
  framesSkip : Nat
  recs : List HmkRec
  eBus : Int
  uBus : Nat
  eEp : Int
  uEp : Nat
  eAttr : Int
  unassigned : Int
  root : List Byte
  prevRoot : List Byte
  chainSeq : Nat
  patternId : Nat
  keyGen : Nat
  jseq : Nat
  sealIdx : Nat
  eacc : List (Nat × (Nat × Nat))
  sealFrom : Nat
  stage : EpochStage
  deriving DecidableEq, Repr

/-- A released epoch in the archive (R302): its header, its seal's index of free bytes, its records and the bytes it takes. -/
structure ArcEpoch where
  seq : Nat
  epoch : Nat
  part : Nat
  hdr : List Byte
  sealIdx : Nat
  recs : List HmkRec
  size : Nat
  deriving DecidableEq, Repr

/-- The chain's tip (R297): ROOT, CHAIN_SEQ, EPOCH and END of the last header. -/
structure ChainTip where
  root : List Byte
  seq : Nat
  epoch : Nat
  stop : Nat
  deriving DecidableEq, Repr

/-- Hallmark beside its registers: request spans by index, the telemetry landed and not yet integrated (frame, endpoint,
sub-type, samples), weights that wait for their frame, HVS_EOUT at the last control-frame boundary, the bus energy of the last
frames, HVS_EOUT at epoch ends, the epochs in hand (oldest first), the chain's tip, the next RSEQ of each request, the
archive, what each collector session has been sent, whether an unacknowledged epoch was overwritten since the last header,
and, for the epoch after a takeover, G0 with the E_ACC known there, the instant of the gain, and G1 with E_ACC per endpoint; and
the generation of the Hallmark key pair (0: none), and whether a collector has acknowledged any epoch. -/
structure HmkSt where
  spans : List (Nat × SpanTag)
  telem : List (Nat × (Nat × (Nat × List Nat)))
  weights : List (Nat × (Nat × Nat))
  eoutPrev : Nat
  frames : List (Nat × Nat)
  eoutAt : List (Nat × Nat)
  epochs : List EpochSt
  tip : Option ChainTip
  rseq : List (Nat × Nat)
  archive : List ArcEpoch
  sent : List (Nat × Nat)
  loss : Bool
  takeover : Bool
  gainAt : Nat
  g0 : Nat
  g0Eacc : List (Nat × (Nat × Nat))
  g1 : List (Nat × (Nat × Nat))
  keyGen : Nat
  acked : Bool
  deriving DecidableEq, Repr

/-- Hallmark with no chain and nothing in hand. -/
def HmkSt.empty : HmkSt := ⟨[], [], [], 0, [], [], [], none, [], [], [], false, false, 0, 0, [], [], 0, false⟩

/-! ## Chapter 10: Chain and Jarrojo -/

/-- A Chain lane beside its registers (R310 to R317): when IDENT was last sent, echoes sent, when the last was, the t1 of those
not answered, the last 16 delays, a suitable application, held down after a second alarm, the last alarm, the instant the data
path is initialised again, the nodes its peer lies beyond, and the last frame sent of each type. -/
structure LaneSt where
  identAt : Nat
  echoes : Nat
  lastEcho : Nat
  t1s : List Nat
  delays : List Int
  app : Bool
  held : Bool
  lastAlarm : Option Nat
  initAt : Option Nat
  bypassed : List Nat
  sent : List (Nat × TxFlit)
  deriving DecidableEq, Repr

/-- A REPORT (R322). -/
structure Report where
  node : Nat
  seq : Nat
  frame : Nat
  d : Int
  f : Int
  gHi : Int
  g : Int
  h : Int
  ramp : Int
  weight : Nat
  flags : Nat
  digest : List Byte
  deriving DecidableEq, Repr

/-- A member in the set of a plan frame (R323) and whether it is SILENT. -/
structure SetMember where
  rep : Report
  silent : Bool
  deriving DecidableEq, Repr

/-- A LIMIT in hand (R321). -/
structure LimitSt where
  l : Nat
  effect : Nat
  leaseEnd : Nat
  stamp : Nat
  origin : Nat
  deriving DecidableEq, Repr

/-- A TRIP landed (R325): origin, event and the watts lost. -/
structure TripSt where
  origin : Nat
  event : Nat
  lost : Nat
  deriving DecidableEq, Repr

/-- A STEP of classes 0 to 2 landed, a feature of the load model (R320): origin, class, CONF, EVENT, DP, T_STEP. -/
structure StepFeature where
  origin : Nat
  cls : Nat
  conf : Nat
  event : Nat
  dp : Int
  tStep : Nat
  deriving DecidableEq, Repr

/-- Chain and Jarrojo beside their registers (R306 to R325): the lanes; a stage change whose path still trains; the drive
released for quarantine, and since when every lane of both directions is quarantined; the own 24-bit SEQ, the last 4,096 pairs
seen; the TIME last taken (origin, SEQ, hops), when one last landed, whether the root's state is bad and since when this member
is eligible; the last REPORT of each node, the plan frame before which none was expected, the last set, its digest, cap (mW) and
rho; the absorption in force (mW), the setpoint's rise at the coming boundary (W); the last measured grid draw; STEP events
numbered, a continuing change (rise, EVENT, T_STEP); TRIPs seen and TRIPs to absorb; limits in hand; and features for the load
model. -/
structure ChainSt where
  lane : Vector LaneSt 4
  training : Bool
  released : Bool
  quarSince : Option Nat
  seq : Nat
  seen : List (Nat × Nat)
  timeTaken : Nat × (Nat × Nat)
  lastTime : Nat
  badRoot : Bool
  eligSince : Option Nat
  reports : List (Nat × Report)
  joined : Nat
  set : List SetMember
  digest : List Byte
  capMw : Nat
  rho : Nat
  absorbMw : Nat
  raise : Nat
  gLast : Nat
  event : Nat
  change : Option (Bool × (Nat × Nat))
  tripsSeen : List (Nat × Nat)
  trips : List TripSt
  limits : List LimitSt
  features : List StepFeature
  deriving DecidableEq, Repr

/-- A lane with nothing in hand. -/
def LaneSt.empty : LaneSt := ⟨0, 0, 0, [], [], false, false, none, none, [], []⟩

/-- Chain right after reset. -/
def ChainSt.empty : ChainSt :=
  ⟨Vector.replicate 4 LaneSt.empty, false, false, none, 0, [], (0, (0, 0)), 0, false, none, [], 0, [], [], 0, 0, 0, 0, 0, 0,
   none, [], [], [], []⟩

/-! ## Chapter 11: Clasp -/

/-- The lease and the OWNER lines beside their registers (R328 to R338): the role in force (codes of R328), the peer's lease
(valid, end of the last renewing frame, role and flags of its last frame, EPOCH after a lapse free), the guard in progress
and since when, what was heard in it, whether the driver commands OWNER and when the hold timer was last retriggered, the
lines as read, the start of listening, a contest and since when the peer's line has been released, a yield that waits for
its plan frame (cause) and the instant it was made, the instant the module last lost ownership, errors and the instant of the last good
frame per path, whether the lease checker passed at the last frame, whether the guard follows a YIELDING frame, the last EPOCH per path,
the instant of the last plan mirrored to this module, the last frame sent (48 bits),
and the restore of R342: the instant of the gain while it lasts, its steps reported late, tries of the Pattern load and the instant the
Cameo was restored. -/
structure ClaspSt where
  role : Nat
  peerValid : Bool
  renewAt : Nat
  peerRole : Nat
  peerEpoch : Nat
  peerLapsed : Bool
  peerBase : Bool
  peerPlan : Bool
  peerLineOk : Bool
  peerContest : Bool
  peerSeen : Nat
  guardAt : Option Nat
  guardHeard : Bool
  drive : Bool
  timerAt : Nat
  line : Bool
  peerLine : Bool
  listenAt : Option Nat
  contest : Bool
  contestPeerLow : Option Nat
  recordOwner : Bool
  yieldCause : Nat
  yieldDue : Option Nat
  yieldAt : Option Nat
  lostAt : Nat
  wireErr : Nat
  slkErr : Nat
  wireAt : Nat
  slkAt : Nat
  checkOk : Bool
  guardYield : Bool
  wireEpoch : Nat
  slkEpoch : Nat
  planAt : Option Nat
  txFrame : BitVec 48
  restoreAt : Option Nat
  restoreLate : List Nat
  patTries : Nat
  cameoAt : Option Nat
  deriving DecidableEq, Repr

/-! ## Chapter 12: Nugen, sessions, Signet and Locket -/

/-- An open session of the management port (R352 to R361): its role, whether it is a doorbell connection, whether it subscribes
to export, the instants of its doorbell operations of the last second, and the last RESULT code and HTTP status it was sent. -/
structure SessSt where
  role : Role
  doorbell : Bool
  subscribed : Bool
  ops : List Nat
  result : Nat
  http : Nat
  deriving DecidableEq, Repr

/-- A boot image in a NOR device (R369): ROLLBACK, and the SHA-384 of its header and of its pulse-die firmware. -/
structure ImgSt where
  rollback : Nat
  header : BitVec 384
  pulse : BitVec 384
  deriving DecidableEq, Repr

/-- A service command that takes longer than its acknowledgement (R363). -/
inductive LongCmd
  | stage
  | image (i : BootImage)
  | attest (nonce : BitVec 256)
  | keygen
  deriving DecidableEq, Repr

/-- A long command on its way: its TAG, the command, and how many Signet jobs it still waits for. -/
structure SvcJob where
  tag : Word
  cmd : LongCmd
  waits : Nat
  deriving DecidableEq, Repr

/-- A job queued in Signet (R365): engine, priority, and the TAG of the command that waits for it. -/
structure SigJob where
  engine : SigEngine
  prio : Nat
  tag : Word
  deriving DecidableEq, Repr

/-- Whom a service command's return code goes to: the sender behind a mailbox, a Redfish session, or the console. -/
inductive AckTo
  | box (n : Fin 64)
  | redfish (i : Fin 64)
  | uart
  deriving DecidableEq, Repr

/-- An acknowledgement that waits for a record (R384): whom it goes to, and the record by type, payload and the least SEQ it can
have. -/
structure PendAck where
  dest : AckTo
  ty : Nat
  payload : List Byte
  fromSeq : Nat
  deriving DecidableEq, Repr

/-- Nugen, Signet and Locket beside their registers (R350 to R379): sessions; the last kick of the watchdog; the boot images in the
NOR devices A and B; the image last confirmed, the one selected for the next start and the one that runs (true: B), whether the next
start and the running one are trials, and since when the trial runs; a restart and a new pulse-die firmware that wait for the end of
ownership; the pulse-die firmware image in use; the owner's key IDs and whether the TLS CA is enrolled; Hallmark key statements
(KEY_GEN, stamp, index of the free bytes of keys and signatures); long commands and Signet jobs; DRBG requests since the last reseed;
whether LCS_NONCE is valid; the last quote with the index of its free signatures; messages and acknowledgements for the peer (mailbox,
message; mailbox, code); the return code last given to the UART console; and acknowledgements that wait for a record (R384). -/
structure NugSt where
  sess : Vector (Option SessSt) 64
  kickAt : Nat
  imgA : Option ImgSt
  imgB : Option ImgSt
  confirmedB : Bool
  nextB : Bool
  runB : Bool
  nextTrial : Bool
  trialAt : Option Nat
  restartDue : Bool
  pulseDue : Bool
  pulseB : Bool
  owner : Option (BitVec 256 × BitVec 256)
  statements : List (Nat × (Nat × Nat))
  jobs : List SvcJob
  sigJobs : List SigJob
  drbg : Nat
  nonceOk : Bool
  quote : List Byte
  quoteIdx : Nat
  toPeer : List (Nat × BitVec 2048)
  acksToPeer : List (Nat × Nat)
  uartCode : Nat
  acks : List PendAck
  deriving DecidableEq, Repr

/-- Nugen of a module that has one boot image, A, and no sessions. -/
def NugSt.empty : NugSt :=
  ⟨Vector.replicate 64 none, 0, some ⟨0, 0, 0⟩, none, false, false, false, false, none, false, false, false, none, [], [], [], 0,
   false, [], 0, [], [], 0, []⟩


/-! ## Chapter 13: the journal and the event recorder -/

/-- A record in the journal's queue (R384): the record, the instant by which it is programmed, and whether it has its SEQ
(records queued before the first mount are numbered then). -/
structure JEnt where
  item : JRec
  due : Nat
  numbered : Bool
  deriving DecidableEq, Repr

/-- The persistent regions as a Pattern froze them (R395, R396): PATTERN_ID, LAYOUT_ID, plan frame, variant, the regions'
lengths and their bytes. -/
structure CameoSt where
  pattern : Nat
  layout : Nat
  frame : Nat
  variant : Nat
  lens : List Nat
  data : List Byte
  deriving DecidableEq, Repr

/-- A recorder record (R401) by its fields; bins by index, absent 0. -/
structure EvrRec where
  interval : Nat
  channel : Nat
  start : Nat
  count : Nat
  under : Nat
  ovr : Nat
  nan : Nat
  least : Option (Nat × Nat)
  most : Option (Nat × Nat)
  src : Nat × Nat
  flags : Nat
  bins : List (Nat × Nat)
  deriving DecidableEq, Repr

/-- The journal beside its registers (R381 to R398): queue and program in progress, the records programmed with the generation
of their segment, the newest segment (generation, pages programmed), the generation of the first live one, a compaction under
way (CUT, generation of its COMPACT_BEGIN) and one asked for, the Pocket's four slots, records sent to the standby and not acknowledged, this standby's own
records on their way to the owner, the newest SEQ this standby has acknowledged, the copy of R341 (records still to come),
the Cameo snapshot frozen in this plan frame, whether it was spoilt, each string's charge count (R397: its
current summed over pulse periods, A times 4 us) and its last three latches, the correction of the last restore, and the recorder's records retained. -/
structure JnlSt where
  queue : List JEnt
  prog : Option (List JRec)
  log : List (Nat × JRec)
  gen : Nat
  pages : Nat
  first : Nat
  compact : Option (Nat × Nat)
  compactReq : Bool
  pocket : Vector (Option JRec) 4
  unacked : List Nat
  toOwner : List JNew
  acked : Nat
  resync : Bool
  snap : Option CameoSt
  spoilt : Bool
  charge : Fv × Fv
  latches : List (Nat × (Fv × Fv))
  restored : Fv × Fv
  evr : List EvrRec
  deriving DecidableEq, Repr

/-- An empty journal, not mounted. -/
def JnlSt.empty : JnlSt :=
  ⟨[], none, [], 0, 4, 1, none, false, Vector.replicate 4 none, [], [], 0, false, none, false, (Fv.zero, Fv.zero), [],
   (Fv.zero, Fv.zero), []⟩

/-- Power of a compute stack (R414, R412). -/
inductive StackPower
  | off
  | on
  | retention
  deriving DecidableEq, Repr

/-- One entry of RESET_LOG (R406): kind, detail, instant. -/
structure ResetRec where
  kind : Nat
  detail : Nat
  stamp : DWord
  deriving DecidableEq, Repr

/-- Power, Lining and cooling (R404 to R416, R450): the supplies as judged, how far the dies have come, the slot-link
island, the parked mark, the Lining's retained records and failure marks, the pending resets, the power of the compute
stacks, the causes and timers of the cooling mode, a
wake request and service wake of a standby, the role at the last loss of keep-alive, both pulse-die images failed, the later of main
power in range and PWR_GOOD active, whether the Lining runs, the resets that the journal has not yet received, and
whether SLOT_ID has been sampled since the Lining started, and the cages whose plug is held in low power (R453; numbers of
R471). -/
structure PowerSt where
  kaOk : Bool
  mainOk : Bool
  pwrGood : Bool
  onHoldup : Bool
  holdupSince : Nat
  base : BasePhase
  pulse : PulsePhase
  island : Bool
  parked : Bool
  standby : Bool
  retOk : Bool
  retLost : Bool
  lxtFail : Bool
  pocketOk : Bool
  resetLog : List ResetRec
  glbResetAt : Option Nat
  stack : Vector StackPower 4
  air : Bool
  causeFlow : Bool
  causeDie : Bool
  causeDimm : Bool
  coolSince : Option Nat
  base115 : Bool
  seamPtr : Nat
  seamHeld : Bool
  wakeReq : Bool
  nugSleep : Bool
  lastService : Nat
  lastRole : Nat
  pdFailed : Bool
  baseReady : Nat
  linUp : Bool
  resetNew : Nat
  slotKnown : Bool
  overclass : List Nat
  deriving DecidableEq, Repr


/-- The discrete inputs beside their registers (R421 to R424), by input: the raw edges within the last DIN_CHAT_WIN, the instant of
the last raw edge, and the instant at which the filtered value became active. -/
structure DinSt where
  edges : List (Nat × List Nat)
  last : List (Nat × Nat)
  since : List (Nat × Nat)
  deriving DecidableEq, Repr


/-- The factory values of the modelled module: a QW-SC9-F; the spec states the per-module identifiers of none, so they
are 0 here (DESIGN CHOICE, log 2). -/
def resetFuses : Fuses := ⟨true, 0, 0, 0, 0, 0⟩

/-- The machine's state. -/
structure State where
  /-- the commands that wait, first in first out -/
  pending : List Instr
  /-- site time in ns, the STAMP64 counter (R22, R26) -/
  now : Nat
  /-- how many free values have been taken (the model's own field, log 9) -/
  free : Nat
  /-- order code and factory values -/
  fx : Fuses
  /-- life-cycle state (R374) -/
  lc : LifeCycle
  /-- SLOT_ID as sampled when the Lining started: true is slot B (R15) -/
  slotB : Bool
  /-- frame grids (R34) -/
  grid : Grid
  /-- site-time state (R25 to R32) -/
  time : TimeSt
  /-- the register table, unlisted registers at their reset value -/
  regs : List (Nat × DWord)
  /-- shared memory, tile SRAM and MRDIMM by the address map of R427; unlisted bytes read 0 (log 8) -/
  mem : List Host.Cell
  /-- addresses of 64-bit words marked poisoned (R112), rising -/
  poison : List Nat
  /-- event fabric (R442) -/
  evt : EvtSt
  /-- write audit (R38, R39, R430) -/
  aud : AudSt
  /-- mailboxes (R356 to R361) -/
  mbx : MbxGrp
  /-- the sequencer beside its registers (R51 to R79) -/
  seq : SeqSt
  /-- the MAC arrays (R81 to R92) -/
  mac : Vector MacSt 16
  /-- engines, DMA, ingress and egress (R114 to R138) -/
  eng : EngSt
  /-- the flight recorder (R143 to R147) -/
  fr : FrSt
  /-- shared-memory scrubbing (R113) -/
  scrub : ScrubSt
  /-- endpoints (R156 to R183) -/
  ep : Vector EpSt 128
  /-- Strand ports (R151 to R166) -/
  port : Vector PortSt 32
  /-- forecasts, plan and arbiter (R172 to R188) -/
  arb : ArbSt
  /-- bricks, Pleat and shedding (R191 to R207) -/
  pd : PleatSt
  /-- control-law engine (R208 to R215) -/
  cle : CleSt
  /-- voltage-mode channels (R216 to R219) -/
  vm : Vector VmSt 4
  /-- governor, holdover, plan buffer, floors, setpoints (R9 to R12, R220 to R230) -/
  gov : GovSt
  /-- protection (R231, R232) -/
  prt : PrtSt
  /-- contactor blocks of strings A and B (R258 to R270) -/
  ctc : Vector CtcSt 2
  /-- Bead loops of strings A and B (R239 to R257) -/
  loop : Vector LoopSt 2
  /-- estimators (R262 to R273) -/
  est : Vector EstSt 2
  /-- Hallmark (R279 to R303) -/
  hmk : HmkSt
  /-- the wiring plan in force (R312, R313) -/
  wiring : Option (List Byte)
  /-- the pending wiring plan (R313) -/
  wiringNext : Option (List Byte)
  /-- Chain and Jarrojo (R306 to R325) -/
  chn : ChainSt
  /-- Clasp (R328 to R338) -/
  clp : ClaspSt
  /-- Nugen, Signet and Locket beside their registers (R350 to R379) -/
  nug : NugSt
  /-- the journal, Cameos and the event recorder (R381 to R402) -/
  jnl : JnlSt
  /-- power, Lining and cooling (R404 to R416) -/
  pw : PowerSt
  /-- the discrete inputs (R421 to R424) -/
  din : DinSt
  deriving DecidableEq, Repr

/-- The machine right after reset: every register at its reset value, memory with nothing listed, both dies unpowered
before the keep-alive input comes into range (R404, R407, log 10). -/
def State.reset : State where
  pending := []
  now := 0
  free := 0
  fx := resetFuses
  lc := .field
  slotB := false
  grid := ⟨0, 0, 0, 0, 0, 0⟩
  time := ⟨.unset, 3#2, false, .none, 0, 0, 0, false, false, false, 0, false, 0⟩
  regs := []
  mem := []
  poison := []
  evt := ⟨[], [], 0⟩
  aud := ⟨[], [], 0, [], []⟩
  mbx := ⟨Vector.replicate 64 ⟨0, false, none, 0, none⟩, Vector.replicate 7 0, Vector.replicate 7 0, Vector.replicate 28 0, [], 0⟩
  seq := ⟨false, false, ⟨false, false⟩, ⟨.empty, none, 0, 0, []⟩, ⟨.empty, none, 0, 0, []⟩, [], [], .none, 0, 0, none, none, false, false, 0, 0, ⟨false, 0, 0, 0, none, 0⟩, none, [], 0⟩
  mac := Vector.replicate 16 MacSt.empty
  eng := EngSt.empty
  fr := ⟨[], [], 0, [], [], 0⟩
  scrub := ⟨[], [], 0⟩
  ep := Vector.replicate 128 EpSt.empty
  port := Vector.replicate 32 PortSt.empty
  arb := ⟨31, [], none, none, none, false, false, 0, none, 0, false, 330000, 0, [], none, false⟩
  pd := PleatSt.empty
  cle := ⟨[], [], [], [], [], 0, 0, 0, 0⟩
  vm := Vector.replicate 4 ⟨0, 0, 0, 0, 0, 0⟩
  gov := GovSt.empty
  prt := ⟨true, 0, [], (none, none), 0⟩
  ctc := Vector.replicate 2 CtcSt.empty
  loop := Vector.replicate 2 LoopSt.empty
  est := Vector.replicate 2 ⟨0, 0, 0, 0, 0, false⟩
  hmk := HmkSt.empty
  wiring := none
  wiringNext := none
  chn := ChainSt.empty
  clp := ⟨1, false, 0, 0, 0, true, false, false, false, false, 0, none, false, false, 0, false, false, none, false, none, false, 0, none, none, 0, 0, 0, 0, 0, true, false, 0, 0, none, 0, none, [], 0, none⟩
  nug := NugSt.empty
  jnl := JnlSt.empty
  pw := ⟨false, false, false, false, 0, .off, .off, false, false, false, true, false, false, true, [], none, Vector.replicate 4 .off, false, false, false, false, none, false, 0, false, false, false, 0, 1, false, 0, false, 0, false, []⟩
  din := ⟨[], [], []⟩

end Sys2Proof.Machine
end

