-- ==== Sys2Proof/Machine/Ops.lean ====
section
/-!
DEFINITION. The named operations over the state that every family uses: the passage of time, the register table and its
fields and counters, the event fabric (R441 to R444), block states (R436, R438), the mailbox deposit (R358, R360), the
free values, and memory bytes (R427).
-/
namespace Sys2Proof.Machine

/-! ## Registers -/

/-- What an unlisted register holds. -/
def regDefault (fx : Fuses) (a : Nat) : DWord := BitVec.ofNat 64 (regReset fx a)

/-- The value a register holds. -/
def State.reg (s : State) (a : Nat) : Nat := (sparseGet (regDefault s.fx) s.regs a).toNat

/-- Give a register a value. -/
def State.setReg (s : State) (a v : Nat) : State :=
  { s with regs := sparseSet (regDefault s.fx) s.regs a (BitVec.ofNat 64 v) }

/-- A field of a register. -/
def State.fld (s : State) (a lo w : Nat) : Nat := fieldOf (s.reg a) lo w

/-- Give a field of a register a value. -/
def State.setFld (s : State) (a lo w x : Nat) : State := s.setReg a (withField (s.reg a) lo w x)

/-- A bit of a register. -/
def State.bit (s : State) (a i : Nat) : Bool := bitOf (s.reg a) i

/-- Give a bit of a register a value. -/
def State.setBit (s : State) (a i : Nat) (b : Bool) : State := s.setFld a i 1 (b2n b)

/-- The signed reading of a 32-bit register. -/
def State.regS (s : State) (a : Nat) : Int := sext 32 (s.reg a)

/-- Put a register back to its reset value. -/
def State.clrReg (s : State) (a : Nat) : State := s.setReg a (regReset s.fx a)

/-- A STAMP64 register takes the present instant. -/
def State.stampReg (s : State) (a : Nat) : State := s.setReg a s.now

/-- A fold of an update over a list. -/
def State.forAll {α : Type} (s : State) (l : List α) (f : State → α → State) : State := l.foldl f s

/-! ## Who is up -/

/-- The base die runs (Nugen running, R407). -/
def State.baseUp (s : State) : Bool := s.pw.base == .up

/-- The base die has power. -/
def State.basePowered (s : State) : Bool := s.pw.base != .off

/-- Is the plug of a cage held in low power (R453): Strand cages 0 to 7, 8 Chain E, 9 Chain W, 10 management? -/
def State.plugHeld (s : State) (cage : Nat) : Bool := s.pw.overclass.contains cage

/-- The management port is enabled and its plug is not held in low power (R380, R453). -/
def State.mgmtUp (s : State) : Bool := s.bit Reg.MGP_CTL 0 && !s.plugHeld 10

/-- The pulse die runs its verified firmware. -/
def State.pulseUp (s : State) : Bool := s.pw.pulse == .up

/-! ## Time -/

/-- STAMP64 of the present instant. -/
def State.stamp (s : State) : DWord := BitVec.ofNat 64 s.now

/-- TSTATE's code (R25). -/
def TState.code : TState → Nat
  | .unset => 0
  | .rtc => 1
  | .acquiring => 2
  | .lockedPtp => 3
  | .lockedChain => 4
  | .holdover => 5

/-- QUAL of a stamp taken now (R25): TSTATE, SLEW and UNC; ARRIVAL and LATE are the record's own. -/
def State.qual (s : State) : Byte :=
  BitVec.ofNat 8 (s.time.tstate.code * 32 + b2n s.time.slewing * 4 + s.time.unc.toNat)

/-- Time moves to an instant, never back (log 1). -/
def State.at (s : State) (t : Nat) : State := { s with now := max s.now t }

/-- What a command leaves alone, whatever its effect: the queue of waiting commands and the factory values; and the
instant is the command's own (log 1). -/
def State.seal (s0 s1 : State) : State := { s1 with pending := s0.pending, fx := s0.fx, now := s0.now }

/-- A command at instant `t` with its effect. -/
def run (t : Nat) (s : State) (f : State → State) : Host.Outcome State Fault Refusal :=
  .next (State.seal (s.at t) (f (s.at t)))

/-- A boundary command: it happens at the first instant of its grid (period `p`) that is not before now and not before the
grid's next instant `g`; `set` records that this boundary is handled. -/
def runGrid (p g : Nat) (set : Grid → Nat → Grid) (s : State) (f : State → State) : Host.Outcome State Fault Refusal :=
  let b := alignUp p (max s.now g)
  let s0 := { s with now := b, grid := set s.grid (b + 1) }
  .next (State.seal s0 (f s0))

/-! ## Free values -/

/-- Take the next free value's index. -/
def State.fresh (s : State) : Nat × State := (s.free, { s with free := s.free + 1 })

/-! ## Interrupts (R439, R444) -/

/-- Does a page assert its interrupt? -/
def State.irqAsserted (s : State) (page : Nat) : Bool :=
  (s.reg (Reg.IRQ_STS page) &&& s.reg (Reg.IRQ_EN page)) != 0

/-- The EVT_ROUTE byte of a page (R444). -/
def State.routeByte (s : State) (page : Nat) : Nat :=
  let w := page / 4
  let a := if w < 64 then Reg.EVT_ROUTE_BASE w else if w < 69 then Reg.EVT_ROUTE_PULSE (w - 64) else Reg.EVT_ROUTE_LAST
  s.fld a (8 * (page % 4)) 8

/-- The interrupt target of a page: 0 none, 1 to 4 a Nugen core, 5 the Lining service core. -/
def State.irqTarget (s : State) (page : Nat) : Nat := s.routeByte page % 8

/-- Place a message in a mailbox (R358): sequence, stamp, FULL, ACKED and a collision with a message still held. -/
def State.mbxPut (s : State) (n : Fin 64) (agent : Nat) (msg : BitVec 2048) (poster : Option (Fin 64)) : State :=
  let full := s.bit (Reg.MBX_STS n) 0
  let s := if full then ((s.setBit (Reg.MBX_STS n) 1 true).setReg (Reg.MBX_COLLIDE_CNT n)
    (satAdd 32 (s.reg (Reg.MBX_COLLIDE_CNT n)) 1)) else s
  let s := s.setReg (Reg.MBX_SEQ n) ((s.reg (Reg.MBX_SEQ n) + 1) % 2 ^ 32)
  let s := s.stampReg (Reg.MBX_POST_STAMP n)
  let s := ((s.setBit (Reg.MBX_STS n) 0 true).setBit (Reg.MBX_STS n) 2 false).setFld (Reg.MBX_STS n) 8 3 agent
  { s with mbx := { s.mbx with box := s.mbx.box.set n { s.mbx.box[n] with msg := msg, poster := poster } } }

/-- Change a mailbox's record. -/
def State.updBox (s : State) (n : Fin 64) (f : MbxSt → MbxSt) : State :=
  { s with mbx := { s.mbx with box := s.mbx.box.set n (f s.mbx.box[n]) } }

/-- NOTIFY frames to doorbell sessions that a predicate picks (R360, R361). -/
def State.notify (s : State) (p : Fin 64 → SessSt → Bool) : State :=
  let k := ((List.finRange 64).filter (fun i => match s.nug.sess[i] with
    | some e => e.doorbell && p i e
    | none => false)).length
  { s with mbx := { s.mbx with notified := s.mbx.notified + k } }

/-- Change a session's record. -/
def State.updSess (s : State) (i : Fin 64) (f : SessSt → SessSt) : State :=
  { s with nug := { s.nug with sess := s.nug.sess.set i (s.nug.sess[i].map f) } }

/-- A session's answer: the code in the OEM field and the HTTP status (R355). -/
def State.answer (s : State) (i : Fin 64) (code http : Nat) : State := s.updSess i (fun e => { e with result := code, http := http })

/-- An acknowledgement of the message last fetched (R359): code, sequence and stamp; FULL clears if no newer message has come;
the sender is told: the peer by its acknowledgement, a session by NOTIFY. -/
def State.mbxAck (s : State) (n : Fin 64) (code : Nat) : State :=
  let q := s.reg (Reg.MBX_FETCH_SEQ n)
  let s := ((s.setReg (Reg.MBX_ACK_CODE n) (code % 65536)).setReg (Reg.MBX_ACK_SEQ n) q).stampReg (Reg.MBX_ACK_STAMP n)
  let s := s.setBit (Reg.MBX_STS n) 2 true
  let s := if s.reg (Reg.MBX_SEQ n) = q then s.setBit (Reg.MBX_STS n) 0 false else s
  let b : MbxSt := s.mbx.box[n]
  let s := s.updBox n (fun x => { x with fetched := false })
  if b.fromAgent = 4 then { s with nug := { s.nug with acksToPeer := s.nug.acksToPeer ++ [(n.val, code % 65536)] } }
  else if b.fromAgent = 3 then s.notify (fun i _ => some i == b.fromSess)
  else s

/-- The message of a mailbox is taken (R359): by a fetch, or by its forwarding. -/
def State.mbxTaken (s : State) (n : Fin 64) : State :=
  (s.setReg (Reg.MBX_FETCH_SEQ n) (s.reg (Reg.MBX_SEQ n))).updBox n (fun x => { x with
    fetched := true, fromAgent := s.fld (Reg.MBX_STS n) 8 3, fromSess := x.poster })

/-- A message that has arrived takes effect at its receiver (R356, R360): a wake, NOTIFY frames, or its forwarding to the peer,
which a slot link that is down answers with PEER_UNREACHABLE. -/
def State.mbxArrive (s : State) (n : Fin 64) (agent : Nat) (msg : BitVec 2048) (poster : Option (Fin 64)) : State :=
  let s := s.mbxPut n agent msg poster
  let wake := s.bit (Reg.MBX_CFG n) 16
  match s.fld (Reg.MBX_CFG n) 0 3 with
  | 0 => if wake && s.pw.nugSleep then { s with pw := { s.pw with nugSleep := false } }.setBit Reg.NUG_STS 0 true else s
  | 3 => if wake then s.notify (fun _ e => e.role == .admin || e.role == .operator) else s
  | 4 =>
    if agent = 4 then s else
    let s := s.mbxTaken n
    if s.fld Reg.SLK_STS 0 3 = 4 && s.bit Reg.SLK_CTL 0 then
      { s with nug := { s.nug with toPeer := s.nug.toPeer ++ [(s.fld (Reg.MBX_CFG n) 18 6, msg)] } }
    else s.mbxAck n 0x0102
  | _ => s

/-- May an agent post to a mailbox (R357)? -/
def State.mbxAdmits (s : State) (n agent : Nat) : Bool := s.bit (Reg.MBX_CFG n) (8 + agent)

/-- A message the module's own agents post (R362, R363, R444): into a mailbox that admits them, with the base die running. -/
def State.mbxSelf (s : State) (n : Fin 64) (agent : Nat) (msg : BitVec 2048) : State :=
  if s.baseUp && s.mbxAdmits n agent then s.mbxArrive n agent msg none else s

/-- A notice of an interrupt assertion to mailbox 40 (R444): the page number in its first two bytes (the spec gives a
notice no layout; DESIGN CHOICE, log 13). -/
def State.irqNotice (s : State) (page : Nat) : State :=
  if bitOf (s.routeByte page) 7 then s.mbxSelf 40 0 (BitVec.ofNat 2048 page) else s

/-- Set bits of a page's IRQ_STS; at a new assertion the notice follows (R439, R444). -/
def State.irqSet (s : State) (page mask : Nat) : State :=
  let was := s.irqAsserted page
  let s := s.setReg (Reg.IRQ_STS page) (s.reg (Reg.IRQ_STS page) ||| mask)
  if !was && s.irqAsserted page then s.irqNotice page else s

/-- Advance a saturating 32-bit counter of a page (R439: SAT when it reaches saturation). -/
def State.addCnt (s : State) (a n : Nat) : State :=
  let old := s.reg a
  let v := satAdd 32 old n
  let s := s.setReg a v
  if old < 2 ^ 32 - 1 ∧ v = 2 ^ 32 - 1 then s.irqSet (a / 4096) 8 else s

/-- Advance a saturating counter by one. -/
def State.inc (s : State) (a : Nat) : State := s.addCnt a 1

/-! ## Events (R441, R442, R471) -/

/-- The event record of an event posted now by a page. -/
def State.evRec (s : State) (page sev code unit cause v0 v1 v2 : Nat) : EvRec :=
  { stamp := s.stamp, src := BitVec.ofNat 16 page, qual := s.qual, sev := BitVec.ofNat 8 sev, code := BitVec.ofNat 16 code,
    rep := 0, unit := BitVec.ofNat 8 unit, cause := BitVec.ofNat 8 cause, v0 := BitVec.ofNat 32 v0,
    v1 := BitVec.ofNat 32 v1, v2 := BitVec.ofNat 32 v2, jnl := false }

/-- May a record take a further occurrence of an event (R442 Coalescing): same SRC and CODE, not a FAULT record, opened
within the coalescing window. -/
def evCoalesces (now winNs : Nat) (e r : EvRec) : Bool :=
  (r.src == e.src) && (r.code == e.code) && (r.sev.toNat < 2) && decide (now < r.stamp.toNat + winNs)

/-- Count a further occurrence in the newest record that takes it (the list is newest first). -/
def evBump (now winNs : Nat) (e : EvRec) : List EvRec → Option (List EvRec)
  | [] => none
  | r :: rs =>
    if evCoalesces now winNs e r then some ({ r with rep := BitVec.ofNat 16 (satAdd 16 r.rep.toNat 1) } :: rs)
    else (evBump now winNs e rs).map (r :: ·)

/-- Write a record into the ring, overwriting the oldest when it is full (R442 Overflow). -/
def State.evRingPut (s : State) (e : EvRec) : State :=
  let s := if 4096 ≤ s.evt.ring.length then s.inc Reg.EVT_LOST else s
  let s := s.setReg Reg.EVT_HEAD ((s.reg Reg.EVT_HEAD + 1) % 2 ^ 32)
  { s with evt := { s.evt with ring := lastN 4096 (s.evt.ring ++ [e]) } }

/-- Write a record into the pulse-die buffer (R442). -/
def State.evPdPut (s : State) (e : EvRec) : State :=
  let s := if 128 ≤ s.evt.pd.length then s.inc Reg.EVT_LOST else s
  { s with evt := { s.evt with pd := lastN 128 (s.evt.pd ++ [e]) } }

/-- The 32 bytes of an event record, its CRC among them (R441). -/
def evBytes (e : EvRec) : List Byte :=
  let b := leBytes 8 e.stamp.toNat ++ leBytes 2 e.src.toNat ++ [e.qual, e.sev] ++ leBytes 2 e.code.toNat ++
    leBytes 2 e.rep.toNat ++ [e.unit, e.cause] ++ leBytes 4 e.v0.toNat ++ leBytes 4 e.v1.toNat ++ leBytes 4 e.v2.toNat
  b ++ leBytes 2 (crc16 b).toNat

/-- The EVENT record (type 0x0051) of an event: its payload is the event record (R385, log 35). -/
def evJRec (seq : Nat) (e : EvRec) : JRec :=
  ⟨0x51, seq, e.stamp.toNat, e.src.toNat, false, false, false, false, evBytes e⟩

/-- Pocket slot 3 takes a pulse-die FAULT event: the newest replaces the older one (R385, R392, R442); it takes the next SEQ
(log 36). -/
def State.pocketFault (s : State) (e : EvRec) : State :=
  let q := s.reg Reg.JNL_SEQ
  let s := s.setReg Reg.JNL_SEQ (q + 1)
  { s with jnl := { s.jnl with pocket := s.jnl.pocket.set 3 (some (evJRec q e)) } }

/-- The record of a posted event: counted in a record that takes it, or written into the buffer or the ring of its die (R442). -/
def State.postRecord (s : State) (page sev code unit cause v0 v1 v2 : Nat) : State :=
  if !s.bit Reg.EVT_CTL 0 then s else
  let e := s.evRec page sev code unit cause v0 v1 v2
  let win := s.reg Reg.EVT_COAL_MS * 1000000
  let bumpRing := if sev < 2 ∧ win ≠ 0 then evBump s.now win e s.evt.ring.reverse else none
  let bumpPd := if sev < 2 ∧ win ≠ 0 then evBump s.now win e s.evt.pd.reverse else none
  match bumpPd, bumpRing with
  | some l, _ => { s with evt := { s.evt with pd := l.reverse } }
  | none, some l => { s with evt := { s.evt with ring := l.reverse } }
  | none, none =>
    if onPulseDie page then
      let s := s.evPdPut e
      if sev = 2 then s.pocketFault e else s
    else if s.basePowered then s.evRingPut e else s

/-- A block posts an event (R438, R439, R442). -/
def State.post (s : State) (page sev code unit cause v0 v1 v2 : Nat) : State :=
  let s := if 1 ≤ sev then s.irqSet page 4 else s
  (s.stampReg (Reg.LAST_EVT_STAMP page)).postRecord page sev code unit cause v0 v1 v2

/-- Severities of R441. -/
def sevInfo : Nat := 0
def sevWarn : Nat := 1
def sevFault : Nat := 2

/-! ## Block states (R436 to R438) -/

/-- STATE codes of R436. -/
def stOff : Nat := 0
def stStarting : Nat := 1
def stRunning : Nat := 2
def stStopping : Nat := 3
def stQuiesced : Nat := 4
def stFault : Nat := 5
def stHold : Nat := 6

/-- STATE of a page's block. -/
def State.blk (s : State) (page : Nat) : Nat := s.fld (Reg.BLK_STS page) 0 3

/-- A transition of STATE: stamped and posted, with the interrupt bits of R439 (R438). -/
def State.setBlk (s : State) (page st cause : Nat) : State :=
  let old := s.blk page
  if old = st then s.setFld (Reg.BLK_STS page) 8 8 cause else
  let s := (s.setFld (Reg.BLK_STS page) 0 3 st).setFld (Reg.BLK_STS page) 8 8 cause
  let s := s.irqSet page (if st = stFault then 3 else 1)
  s.post page (if st = stFault then sevFault else sevInfo) 0x0002 st cause old 0 0

/-! ## Memory (R427, R112) -/

/-- A byte of memory no one has written reads 0 (log 8). -/
def memDefault (_ : Nat) : Byte := 0#8

/-- The byte at a physical address. -/
def State.byte (s : State) (a : Nat) : Byte := sparseGet memDefault s.mem a

/-- Write the byte at a physical address. -/
def State.setByte (s : State) (a : Nat) (b : Byte) : State := { s with mem := sparseSet memDefault s.mem a b }

/-- The memory's canonical form. -/
abbrev Memory.wf (m : List Host.Cell) : Prop := sparseWf memDefault m = true

/-- `n` bytes from an address. -/
def State.bytes (s : State) : Nat → Nat → List Byte
  | _, 0 => []
  | a, n + 1 => s.byte a :: s.bytes (a + 1) n

/-- Write bytes from an address up. -/
def State.setBytes (s : State) : Nat → List Byte → State
  | _, [] => s
  | a, b :: bs => State.setBytes (s.setByte a b) (a + 1) bs

/-- The little-endian number of `n` bytes at an address. -/
def State.le (s : State) (a n : Nat) : Nat := ofLe (s.bytes a n)

/-- Write a number as `n` little-endian bytes. -/
def State.setLe (s : State) (a n v : Nat) : State := s.setBytes a (leBytes n v)

/-- Is the 64-bit word that holds an address poisoned (R112)? -/
def State.poisoned (s : State) (a : Nat) : Bool := s.poison.contains (a / 8 * 8)

/-- Insert into a rising list of distinct numbers. -/
def insertNat : List Nat → Nat → List Nat
  | [], a => [a]
  | k :: r, a => if a = k then k :: r else if a < k then a :: k :: r else k :: insertNat r a

/-- Mark the 64-bit word of an address poisoned, or clear the mark. -/
def State.setPoison (s : State) (a : Nat) (b : Bool) : State :=
  { s with poison := if b then insertNat s.poison (a / 8 * 8) else s.poison.filter (fun x => !(x = a / 8 * 8)) }

/-- Is any word of `n` bytes from an address poisoned? -/
def State.poisonedIn (s : State) (a n : Nat) : Bool := s.poison.any (fun p => decide (a / 8 * 8 ≤ p ∧ p < a + n))

/-- Clear the poison of every word wholly or partly in `n` bytes from an address. -/
def State.unpoison (s : State) (a n : Nat) : State :=
  { s with poison := s.poison.filter (fun p => !decide (a / 8 * 8 ≤ p ∧ p < a + n)) }

end Sys2Proof.Machine
end

