-- ==== Sys2Proof/Machine/Access.lean ====
section
/-!
DEFINITION. Register access as R428 to R440 judge it: which page an address names, which path reaches it, widths and held
words, reserved bits, locks, and the write-audit entry of R38 that every judged write appends.
-/
namespace Sys2Proof.Machine

/-! ## What a life-cycle state opens (R378) -/

/-- LCS_STATE code (R374). -/
def lcCode : LifeCycle → Nat
  | .fab => 1
  | .provision => 2
  | .field => 3
  | .returned => 4
  | .void => 5

/-- RWL registers writable: PROVISION and RETURN. -/
def lcRwl (l : LifeCycle) : Bool := l == .provision || l == .returned

/-- Error injection open: FAB, PROVISION and RETURN. -/
def lcErrInj (l : LifeCycle) : Bool := l == .fab || l == .provision || l == .returned

/-- UART console with full access: FAB and RETURN. -/
def lcUartFull (l : LifeCycle) : Bool := l == .fab || l == .returned

/-- JTAG open: RETURN. -/
def lcJtag (l : LifeCycle) : Bool := l == .returned

/-- Power-stage ownership allowed: PROVISION and FIELD. -/
def lcOwn (l : LifeCycle) : Bool := l == .provision || l == .field

/-- The Pattern signer classes accepted, as a mask (R61 check 3, R378). -/
def lcSigners : LifeCycle → Nat
  | .fab => 0xB
  | .provision => 0x7
  | .field => 0x5
  | .returned => 0xB
  | .void => 0

/-- Wiring plan, policy and owner keys accepted: PROVISION and FIELD. -/
def lcOwnerData (l : LifeCycle) : Bool := l == .provision || l == .field

/-- Ship mode forced on: FAB, RETURN and VOID. -/
def lcShipForced (l : LifeCycle) : Bool := !(l == .provision || l == .field)

/-- Hallmark sealing: PROVISION and FIELD. -/
def lcSealing (l : LifeCycle) : Bool := l == .provision || l == .field

/-! ## Paths (R38, R429) -/

/-- The PATH code of R38. -/
def pathCode : Path → Nat
  | .nugen => 0
  | .mgmt => 1
  | .slot => 2
  | .uart => 3
  | .jtag => 4
  | .mbp => 5
  | .lining => 6

/-- SRC of a writer (R38, R24). -/
def writerSrc (w : Writer) : Nat :=
  match w.path with
  | .nugen => 0x7000 + w.idx.toNat
  | .mgmt => 0x5000 + w.idx.toNat
  | .slot => 0x6000 + w.idx.toNat
  | .uart => 0x1000
  | .jtag => 0x1001
  | .mbp => 0x0010
  | .lining => 0x0112

/-- Is the page a mailbox page? -/
def isMbxPage (p : Nat) : Bool := 0x90 ≤ p && p ≤ 0x93

/-- May a writer write registers of a page (R429)? -/
def pathWrites (s : State) (w : Writer) (page : Nat) : Bool :=
  match w.path with
  | .nugen => true
  | .mgmt => w.role == .admin
  | .slot => isMbxPage page
  | .uart => lcUartFull s.lc
  | .jtag => lcJtag s.lc
  | .mbp => isMbxPage page
  | .lining => onPulseDie page

/-- Does a write of this writer get to a page at all (R432, R429)? The base die must run, but for path 6; a base-die page
needs base-die power, the peer's path to the mailboxes only the slot-link island (R360). -/
def pathArrives (s : State) (w : Writer) (page : Nat) : Bool :=
  if w.path == .lining then s.pw.linUp else if w.path == .slot && isMbxPage page then s.basePowered || (s.pw.island && s.pulseUp) else if onPulseDie page then s.baseUp || (w.path == .slot && s.basePowered) else s.basePowered

/-- Does a pulse-die page take writes of this writer: a reset pulse die rejects them (R432), but the Lining's own core reaches its
page 0x112 while the Lining runs (R404, R429)? -/
def pulsePageUp (s : State) (w : Writer) (page : Nat) : Bool := s.pulseUp || (w.path == .lining && page = 0x112)

/-! ## The write-audit ring (R38, R39) -/

/-- Append an entry to the ring; a full ring loses its oldest (R39). -/
def State.audRingPut (s : State) (e : AudRec) : State :=
  let s := if 8192 ≤ s.aud.ring.length then s.inc Reg.AUD_LOST else s
  let s := s.setReg Reg.AUD_HEAD ((s.reg Reg.AUD_HEAD + 1) % 2 ^ 32)
  { s with aud := { s.aud with ring := lastN 8192 (s.aud.ring ++ [e]), sinceCopy := min (s.aud.sinceCopy + 1) 8192 } }

/-- Append an entry to the pulse-die buffer; a full buffer loses its oldest (R39). -/
def State.audPdPut (s : State) (e : AudRec) : State :=
  let s := if 256 ≤ s.aud.pd.length then s.inc Reg.AUD_LOST else s
  { s with aud := { s.aud with pd := lastN 256 (s.aud.pd ++ [e]) } }

/-- The entry of a write of `v` at window address `a` (R38). -/
def State.audEntry (s : State) (w : Writer) (a v : Nat) (wide rejected : Bool) : AudRec :=
  { stamp := s.stamp, src := BitVec.ofNat 16 (writerSrc w), qual := s.qual, path := BitVec.ofNat 8 (pathCode w.path),
    addr := BitVec.ofNat 32 a, value := BitVec.ofNat 64 v, wrSeq := BitVec.ofNat 32 (s.reg (Reg.WR_SEQ (a / 4096))),
    wide := wide, rejected := rejected, pulse := onPulseDie (a / 4096) }

/-- Record a write in the ring of its die. -/
def State.audit (s : State) (w : Writer) (a v : Nat) (wide rejected : Bool) : State :=
  let e := s.audEntry w a v wide rejected
  if onPulseDie (a / 4096) && pageAllocated (a / 4096) then s.audPdPut e
  else if s.basePowered then s.audRingPut e else s

/-- A rejected write: recorded as REJECTED, IRQ_STS.REJECT, GLB_WR_REJ (R38, R440, R446). -/
def State.rejectWrite (s : State) (w : Writer) (a v : Nat) (wide : Bool) : State :=
  let s := s.audit w a v wide true
  let s := s.irqSet (a / 4096) 0x10
  if s.basePowered then s.inc Reg.GLB_WR_REJ else s

/-- An accepted write: WR_SEQ advances and the entry is appended (R37, R38). -/
def State.acceptWrite (s : State) (w : Writer) (a v : Nat) (wide : Bool) : State :=
  let s := s.setReg (Reg.WR_SEQ (a / 4096)) ((s.reg (Reg.WR_SEQ (a / 4096)) + 1) % 2 ^ 32)
  s.audit w a v wide false

/-! ## Judgement -/

/-- The bits of a register that a write would have to leave alone (R440): RWL fields while RWL_WRITABLE is 0, and RW and
RWL fields at 0x100 and above, and IRQ_EN, while LOCK.WR_LOCK is set. -/
def lockedMask (s : State) (page off : Nat) (r : RegRow) : Nat :=
  let rwl := if lcRwl s.lc then 0 else r.rwl
  let wl := if s.bit (Reg.LOCK page) 0 ∧ (0x100 ≤ off ∨ off = 0x14) then r.rw ||| r.rwl else 0
  rwl ||| wl

/-- The bits a write may name without setting a reserved bit (R430). -/
def knownMask (r : RegRow) : Nat := r.rw ||| r.rwl ||| r.w1c ||| r.w1s ||| r.wo ||| r.ro

/-- Is the register wholly read-only (R440)? -/
def whollyRO (r : RegRow) : Bool := (r.rw ||| r.rwl ||| r.w1c ||| r.w1s ||| r.wo) = 0

/-- Do reserved bits, access codes and locks admit a write of `v` (R430, R440)? -/
def fieldsAdmit (s : State) (page off : Nat) (r : RegRow) (v : Nat) : Bool :=
  !whollyRO r && (v ||| knownMask r) = knownMask r &&
  ((v ^^^ s.reg (page * 4096 + off)) &&& lockedMask s page off r) = 0 &&
  !(off = 0x1C && !lcErrInj s.lc) && !(off = 0x8 && !ownBlkCtl page)

/-- The value a register holds after an accepted write of `v` (R440). -/
def storedValue (r : RegRow) (old v : Nat) : Nat :=
  let keep := (2 ^ 64 - 1) ^^^ (r.rw ||| r.rwl)
  ((old &&& keep) ||| (v &&& (r.rw ||| r.rwl))) &&& ((2 ^ 64 - 1) ^^^ (v &&& r.w1c))

/-- What becomes of a register write. `take`: it reaches register `a` as one write of `v`, not yet judged by its register's
own rule; `reject`: rejected at the page; `hold`: the low word of a 64-bit register is held; `decode`: a decode error;
`gone`: it does not arrive. -/
inductive Judged
  | take (a v : Nat) (wide : Bool) (r : RegRow)
  | reject (a v : Nat) (wide : Bool)
  | hold (a : Nat) (low : Nat)
  | decode (a v : Nat)
  | gone
  deriving DecidableEq, Repr

/-- The held low word of a path at an address, if any (R430). -/
def State.heldLow (s : State) (w : Writer) (a : Nat) : Option Nat :=
  match sparseFind s.aud.held (pathCode w.path) with
  | some (k, x) => if k = a then some x.toNat else none
  | none => none

/-- Drop the held low word of a path (R430). -/
def State.dropHeld (s : State) (w : Writer) : State :=
  { s with aud := { s.aud with held := sparseErase s.aud.held (pathCode w.path) } }

/-- Hold a low word for a path (R430). -/
def State.putHeld (s : State) (w : Writer) (a low : Nat) : State :=
  { s with aud := { s.aud with
      held := sparseIns (sparseErase s.aud.held (pathCode w.path)) (pathCode w.path) (a, BitVec.ofNat 32 low) } }

/-- Judge a write of `width` bits of `v` at window address `a` (page * 4096 + offset): R428, R429, R430, R432, R433, R440. -/
def judge (s : State) (w : Writer) (a width v : Nat) : Judged :=
  let page := a / 4096
  let off := a % 4096
  if !pathArrives s w page then .gone else
  if !pageAllocated page then .decode a v else
  if !pathWrites s w page || !pagePresent s.fx page || (onPulseDie page && !pulsePageUp s w page) then .reject a v (width == 64) else
  if width = 64 then
    match findRow page off with
    | some r => if r.wide && off % 8 = 0 && fieldsAdmit s page off r v then .take a v true r else .reject a v true
    | none => .reject a v true
  else if width = 32 ∧ off % 4 = 0 then
    match findHigh page off with
    | some r =>
      let low := (s.heldLow w (a - 4)).getD (s.reg (a - 4) % 2 ^ 32)
      let x := low + v * 2 ^ 32
      if fieldsAdmit s page (off - 4) r x then .take (a - 4) x true r else .reject (a - 4) x true
    | none =>
      match findRow page off with
      | some r => if r.wide then .hold a v else if fieldsAdmit s page off r v then .take a v false r else .reject a v false
      | none => .reject a v false
  else .reject a v false

/-- Carry out a judged write: `ok s v` is the register's own range rule (R199, R202 and the like), `eff` its effect beside
the stored value, and `fieldsAdmit` has been judged. -/
def State.doWrite (s : State) (w : Writer) (j : Judged) (ok : State → Nat → Nat → Bool) (eff : State → Nat → Nat → State) :
    State :=
  match j with
  | .gone => s
  | .decode a v =>
    let s := s.dropHeld w
    let s := s.audit w a v false true
    if s.basePowered then s.inc Reg.GLB_DECODE_ERR else s
  | .hold a low => s.putHeld w a low
  | .reject a v wide => (s.dropHeld w).rejectWrite w a v wide
  | .take a v wide r =>
    let s := s.dropHeld w
    if ok s a v then
      let s := s.acceptWrite w a v wide
      eff (s.setReg a (storedValue r (s.reg a) v)) a v
    else s.rejectWrite w a v wide

/-- A write of 32 bits by its own row: the command names the register, whose range rule and effect it carries. -/
def State.ownWrite (s : State) (w : Writer) (a v : Nat) (ok : State → Nat → Bool) (eff : State → Nat → State) : State :=
  s.doWrite w (judge s w a 32 v) (fun s _ v => ok s v) (fun s _ v => eff s v)

/-- A write of 64 bits by its own row. -/
def State.ownWrite64 (s : State) (w : Writer) (a v : Nat) (ok : State → Nat → Bool) (eff : State → Nat → State) : State :=
  s.doWrite w (judge s w a 64 v) (fun s _ v => ok s v) (fun s _ v => eff s v)

/-- No range rule of its own. -/
def anyValue (_ : State) (_ : Nat) : Bool := true

end Sys2Proof.Machine
end

