-- ==== Sys2Proof/Machine/Operands.lean ====
section
/-!
DEFINITION. The operand forms of the Stitch: slot positions (R42), the fields of the MAC slot (R82), the VEC slot (R94) and
the engine slots (R114), the descriptor (R116), and the fixed timing of every op (R49, R83, R94, R117, R126, R134 to R138)
from which the loader expands the shared-memory accesses of R62.
-/
namespace Sys2Proof.Machine

/-! ## Slots (R42) -/

/-- Slot names in the order of R42. -/
inductive Slot
  | mac (k : Nat)
  | vec (d : Nat)
  | eng (e : Nat)
  | mbp
  deriving DecidableEq, Repr

/-- Low bit and width of the slot of engine `e` (numbered as in "Engine slots, descriptors and timing"). -/
def engSlot (e : Nat) : Nat × Nat :=
  match e with
  | 0 => (1440, 48)
  | 1 => (1488, 48)
  | 2 => (1536, 48)
  | 3 => (1584, 32)
  | 4 => (1616, 48)
  | 5 => (1664, 32)
  | 6 => (1696, 32)
  | 7 => (1728, 32)
  | 8 => (1760, 32)
  | 9 => (1792, 40)
  | 10 => (1832, 40)
  | 11 => (1872, 40)
  | 12 => (1912, 40)
  | 13 => (1952, 32)
  | _ => (1984, 32)

/-- Low bit and width of a slot. -/
def Slot.place : Slot → Nat × Nat
  | .mac k => (32 + 64 * k, 64)
  | .vec d => (1056 + 96 * d, 96)
  | .eng e => engSlot e
  | .mbp => (2016, 16)

/-- The bits of a slot in a Stitch. -/
def Slot.bits (sl : Slot) (stitch : Nat) : Nat := fieldOf stitch sl.place.1 sl.place.2

/-- The OP field of a slot (R43). -/
def slotOp (b : Nat) : Nat := b % 64

/-- Every slot with an OP field. -/
def allSlots : List Slot :=
  (List.range 16).map .mac ++ (List.range 4).map .vec ++ (List.range 15).map .eng ++ [.mbp]

/-- Cycles from issue to effect (R49). -/
def Slot.delay : Slot → Nat
  | .mac _ => 7
  | .vec _ => 8
  | .eng e => if e ≤ 12 then 3 else 4
  | .mbp => 5

/-! ## The MAC slot (R82 to R85) -/

/-- Fields of a MAC slot. -/
structure MacOp where
  op : Nat
  fmt : Nat
  ball : Bool
  acc : Bool
  asel : Nat
  wsel : Nat
  addr : Nat
  len : Nat
  stride : Nat
  depth : Nat
  deriving DecidableEq, Repr

/-- Read a MAC slot; LEN 0 means 256. -/
def MacOp.ofBits (b : Nat) : MacOp :=
  { op := slotOp b, fmt := fieldOf b 6 4, ball := bitOf b 10, acc := bitOf b 11, asel := fieldOf b 12 1,
    wsel := fieldOf b 13 1, addr := fieldOf b 14 18, len := if fieldOf b 32 8 = 0 then 256 else fieldOf b 32 8,
    stride := fieldOf b 40 8, depth := fieldOf b 48 16 }

/-- Is a MAC format a half-rate one (R84)? -/
def fmtHalf (fmt : Nat) : Bool := fmt = 3 || fmt = 4

/-- Is a MAC format an MX one? -/
def fmtMx (fmt : Nat) : Bool := 5 ≤ fmt && fmt ≤ 9

/-- Bits of an element of a MAC format (R84, R86). -/
def fmtBits (fmt : Nat) : Nat :=
  if fmtHalf fmt then 16 else if fmt = 7 ∨ fmt = 8 then 6 else if fmt = 9 then 4 else 8

/-- Rows of a tile and elements of a plain activation vector (R84, R85): 256 for plain MXFP4, else 128. -/
def MacOp.rows (o : MacOp) : Nat := if o.fmt = 9 ∧ !o.ball then 256 else 128

/-- Granules of `n` elements of a format. -/
def fmtGranules (fmt n : Nat) : Nat := (n * fmtBits fmt + 511) / 512

/-- Columns of midpoints or plain values. -/
def MacOp.cols (o : MacOp) : Nat := if o.ball then 64 else 128

/-- STRIDE in granules, 0 meaning the natural size `nat` (R82, R85). -/
def MacOp.step (o : MacOp) (nat : Nat) : Nat := if o.stride = 0 then nat else o.stride

/-- Cycles between vectors of a STREAM (R83). -/
def MacOp.vecCycles (o : MacOp) : Nat := (if fmtHalf o.fmt then 2 else 1) * (if o.ball then 2 else 1)

/-! ## The VEC slot (R94) -/

/-- Fields of a VEC slot. -/
structure VecOp where
  op : Nat
  type : Nat
  ball : Bool
  func : Nat
  srcA : Nat
  srcB : Nat
  dst : Nat
  len : Nat
  imm : Int
  deriving DecidableEq, Repr

/-- Read a VEC slot. -/
def VecOp.ofBits (b : Nat) : VecOp :=
  { op := slotOp b, type := fieldOf b 6 3, ball := bitOf b 9, func := fieldOf b 10 4, srcA := fieldOf b 14 20,
    srcB := fieldOf b 34 20, dst := fieldOf b 54 20, len := if fieldOf b 74 8 = 0 then 256 else fieldOf b 74 8,
    imm := sext 8 (fieldOf b 82 8) }

/-- Does the op read SRC_B? ADD, SUB, MUL, FMA, MAX and MIN do. -/
def VecOp.readsB (o : VecOp) : Bool := 1 ≤ o.op && o.op ≤ 6

/-- Quadrants of the accesses of one vector: sources, the old DST of an FMA, and DST. -/
def VecOp.quads (o : VecOp) : List Nat :=
  [o.srcA / 2 ^ 18] ++ (if o.readsB then [o.srcB / 2 ^ 18] else []) ++ (if o.op = 4 then [o.dst / 2 ^ 18] else []) ++
  [o.dst / 2 ^ 18]

/-- Cycles per vector before the factors of type and ball: the busiest quadrant's accesses. -/
def VecOp.perVector (o : VecOp) : Nat :=
  (List.range 4).foldl (fun m q => max m (o.quads.filter (· = q)).length) 1

/-- Cycles an op occupies (R94, R96). -/
def VecOp.cycles (o : VecOp) : Nat :=
  o.len * o.perVector * (if o.type = 2 then 4 else 1) * (if o.ball then (if o.op = 8 then 3 else 2) else 1)

/-! ## Descriptors (R114 to R116) -/

/-- A descriptor. -/
structure Desc where
  inAddr : Nat
  inLen : Nat
  outAddr : Nat
  outLen : Nat
  auxAddr : Nat
  auxLen : Nat
  stsAddr : Nat
  flags : Nat
  par : List Nat
  deriving DecidableEq, Repr

/-- Little-endian number of `n` bytes of a byte source. -/
def srcLe (f : Nat → Nat) (o : Nat) : Nat → Nat
  | 0 => 0
  | n + 1 => f o + 256 * srcLe f (o + 1) n

/-- Read a descriptor from a byte source at an offset. -/
def Desc.read (f : Nat → Nat) (o : Nat) : Desc :=
  let w (i : Nat) : Nat := srcLe f (o + 4 * i) 4
  { inAddr := w 0, inLen := w 1, outAddr := w 2, outLen := w 3, auxAddr := w 4, auxLen := w 5, stsAddr := w 6,
    flags := w 7, par := (List.range 8).map (fun i => w (8 + i)) }

/-- Parameter `i`. -/
def Desc.p (d : Desc) (i : Nat) : Nat := d.par.getD i 0

/-- Offset in the descriptor region (from 0x00_0010_0000) of descriptor `i` of engine `e` (R115). -/
def descOff (e i : Nat) : Nat := e * 0x4000 + i * 64

/-- Offset in the descriptor region of entry `i` of the index table of DMA channel `ch` (R115). -/
def indexOff (ch i : Nat) : Nat := 0x40000 + ch * 0x10000 + i * 4

/-- Fields of an engine slot. -/
structure EngOp where
  op : Nat
  desc : Nat
  arg : Nat
  arg2 : Nat
  deriving DecidableEq, Repr

/-- Read the slot of engine `e` (R114). -/
def EngOp.ofBits (e b : Nat) : EngOp :=
  { op := slotOp b, desc := fieldOf b 6 8, arg := fieldOf b 14 18,
    arg2 := if (engSlot e).2 = 48 then fieldOf b 32 16 else if (engSlot e).2 = 40 then fieldOf b 32 8 else 0 }

/-- Address of a register of engine `e` by its offset on an engine page (R148): pages 0x040 to 0x04C, and the sets of ING at
0x300 and EGR at 0x340 of page 0x053. -/
def engReg (e off : Nat) : Nat :=
  if e ≤ 12 then (0x40 + e) * 4096 + off else if e = 13 then 0x53200 + off else 0x53240 + off

/-- Number of op codes of engine `e`. -/
def engOps (e : Nat) : Nat :=
  match e with
  | 0 => 3
  | 1 => 3
  | 2 => 2
  | 3 => 1
  | 4 => 4
  | 5 => 2
  | 6 => 3
  | 7 => 2
  | 8 => 2
  | 13 => 1
  | 14 => 5
  | _ => 7

/-- Granules per cycle of an engine's port. -/
def engPort (e : Nat) : Nat :=
  match e with
  | 0 => 4
  | 1 => 4
  | 2 => 2
  | 3 => 2
  | 4 => 2
  | 5 => 1
  | 6 => 1
  | 7 => 1
  | 8 => 1
  | 14 => 4
  | _ => 16

/-- Quotient rounded up. -/
def cdiv (a b : Nat) : Nat := (a + b - 1) / b

/-- QP sizes of a descriptor (R123). -/
def qpN (d : Desc) : Nat := d.p 0
def qpW (d : Desc) : Nat := d.p 1
def qpMD (d : Desc) : Nat := d.p 2
def qpMG (d : Desc) : Nat := d.p 3
def qpNnz (d : Desc) : Nat := d.p 4
def qpCg (d : Desc) : Nat := d.p 5
def qpM (d : Desc) : Nat := qpN d + qpMD d + qpMG d

/-- Granules of `n` values of `b` bytes. -/
def gran (n b : Nat) : Nat := cdiv (n * b) 64

/-- The arrays of a QP's IN in granules, in the order of R123. -/
def qpArrays (d : Desc) : List Nat :=
  [1, gran ((qpW d + 1) * qpN d) 4, gran (qpN d) 4, gran (qpN d) 4, gran (qpN d) 4, gran (qpMD d) 4, gran (qpMD d) 4,
   gran (qpMD d) 4, gran (qpMG d + 1) 4, gran (qpNnz d) 2, gran (qpNnz d) 4, gran (qpMG d) 4, gran (qpMG d) 4]

/-- Cycles of one QP iteration (R124). -/
def qpTit (d : Desc) : Nat :=
  qpCg d * cdiv (2 * qpN d * (2 * qpW d + 1) + 4 * qpNnz d + 4 * qpMD d + 2 * qpN d) 256 + cdiv (6 * qpM d) 256 + 24

/-- Granules of IN an op reads. -/
def opIn (e op : Nat) (d : Desc) : Nat :=
  match e, op with
  | 0, 1 => d.p 1 * d.p 0 / 8
  | 1, 1 => d.inLen
  | 3, _ => d.p 1 * (1 + d.p 3 * d.p 0 / 64)
  | 4, 2 => d.inLen
  | 5, 1 => d.inLen
  | 6, 2 => d.inLen
  | 6, 3 => d.inLen
  | 7, _ => d.inLen
  | 8, _ => d.inLen
  | 14, 1 => 1
  | 14, 2 => d.p 0
  | 14, _ => d.inLen
  | _, _ => 0

/-- Granules of AUX an op reads. -/
def opAux (e op : Nat) (d : Desc) : Nat :=
  match e, op with
  | 0, 1 => if bitOf d.flags 1 then d.p 0 / 16 else 0
  | 4, 1 => d.auxLen
  | 4, 4 => d.auxLen
  | 6, 1 => d.auxLen
  | 7, 2 => d.auxLen
  | _, _ => 0

/-- Granules of OUT an op writes. -/
def opOut (e op : Nat) (d : Desc) : Nat :=
  match e, op with
  | 0, 3 => d.p 1 * d.p 0 / 8
  | 1, 3 => d.outLen
  | 3, _ => d.outLen
  | 4, 3 => d.outLen
  | 5, 2 => d.outLen
  | 6, 2 => d.outLen
  | 6, 3 => d.outLen
  | 7, _ => d.outLen
  | 8, _ => d.outLen
  | _, _ => 0

/-- Does an op write a status granule (where STS_ADDR names one)? FFT LOAD and XFORM and QPE ITER write none. -/
def opStatus (e op : Nat) (d : Desc) : Bool :=
  d.stsAddr ≠ 2 ^ 32 - 1 && !(e = 0 && op ≠ 3) && !(e = 1 && op = 2)

/-- Base-2 logarithm of a power of two. -/
def lg (n : Nat) : Nat := Nat.log2 n

/-- Compute cycles C of an op (R120, R124, R127, R128, R130 to R133, R138). TABLE's C is not stated: 0 (log 21). The points
of an evaluation are counted in PARAM1 (log 21). -/
def opC (e op arg2 : Nat) (d : Desc) : Nat :=
  match e, op with
  | 0, 2 => d.p 1 * (d.p 0 * lg (d.p 0) / 32 + 16)
  | 1, 1 => cdiv (qpN d * (2 * qpW d + 1) + qpNnz d + qpMD d) 256 + 64
  | 1, 2 => arg2 * qpTit d
  | 3, _ => 16
  | 4, 1 => 8 + cdiv arg2 4
  | 4, 2 => 8
  | 4, 4 => 8
  | 5, _ => 4
  | 6, 2 => (12 + cdiv (d.p 1) 16) * (if bitOf d.flags 0 then 2 else 1)
  | 6, 3 => (12 + cdiv (d.p 1) 8) * (if bitOf d.flags 0 then 2 else 1)
  | 7, _ => 2 * cdiv (d.p 1) 16 + d.p 0 + 64
  | 8, 1 => 64 * cdiv (d.p 1 + 10) 64 * cdiv (d.p 0) 8 + 16
  | 8, _ => 64 * 2 * cdiv (d.p 0) 8 + 16
  | 14, _ => 2
  | _, _ => 0

/-- Is a granule number in bank group 15 (R108, R109)? -/
def inG15 (g : Nat) : Bool := g / 2 ^ 20 = 15

/-- The bank of a granule number (R108). -/
def bankOf (g : Nat) : Nat :=
  32 * (fieldOf g 20 4) + ((fieldOf g 0 5 ^^^ fieldOf g 5 5) ^^^ (fieldOf g 10 5 ^^^ fieldOf g 15 5))

/-- The row of a granule number (R108). -/
def rowOf (g : Nat) : Nat := fieldOf g 5 15

/-- Cycle of item `i` of a list that starts at cycle `start` with `p` items a beat; a list in group 15 advances one beat a
static cycle (R109, R117). -/
def beat (g15 : Bool) (start p i : Nat) : Nat := if g15 then alignUp 4 start + 4 * (i / p) else start + i / p

/-- The first cycle after a list of `n` items. -/
def beatEnd (g15 : Bool) (start p n : Nat) : Nat := if n = 0 then start else beat g15 start p (n - 1) + 1

/-- An access: its effect cycle and granule. -/
abbrev Acc := Nat × Nat

/-- A run of granules. -/
def runOf (a n : Nat) : List Nat := (List.range n).map (a + ·)

/-- Accesses of a list of granules. -/
def listAcc (g15 : Bool) (start p : Nat) (l : List Nat) : List Acc :=
  (List.range l.length).zipWith (fun i g => (beat g15 start p i, g)) l

/-- What an op does to the schedule: its accesses, the cycle at which it is free again, and the port-B accesses of its tile
side as (cycle, die, quadrant). -/
structure OpPlan where
  acc : List Acc
  free : Nat
  tile : List (Nat × Nat × Nat)
  deriving DecidableEq, Repr

/-- Plan of an op on the block timing of R117. -/
def blockPlan (e c : Nat) (o : EngOp) (d : Desc) : OpPlan :=
  let p := engPort e
  let rl := runOf (d.inAddr + o.arg) (opIn e o.op d) ++ runOf d.auxAddr (opAux e o.op d)
  let rg := (opIn e o.op d ≠ 0 && inG15 (d.inAddr + o.arg)) || (opAux e o.op d ≠ 0 && inG15 d.auxAddr)
  let rEnd := beatEnd rg (c + 2) p rl.length
  let cEnd := rEnd + opC e o.op o.arg2 d
  let wl := runOf (d.outAddr + o.arg) (opOut e o.op d)
  let wg := inG15 (d.outAddr + o.arg)
  let wEnd := beatEnd wg cEnd p wl.length
  let sg := inG15 d.stsAddr
  let sts := opStatus e o.op d
  let sl := if sts then [(beat sg wEnd 1 0, d.stsAddr)] else []
  { acc := listAcc rg (c + 2) p rl ++ listAcc wg cEnd p wl ++ sl,
    free := if sts then beat sg wEnd 1 0 + 1 else wEnd, tile := [] }

/-- Granules read per model and the quantum of the estimator (R126). -/
def estG (o : EngOp) (d : Desc) : Nat := if o.op = 2 then 7 else if bitOf d.flags 0 then 4 else 12
def estKc (o : EngOp) (d : Desc) : Nat :=
  if o.op = 2 then 6 + cdiv (d.p 0 * d.p 0 * (d.p 1 + 1)) 64 else 4 + cdiv (d.p 0 * d.p 0 * d.p 0) 128
def estQ (o : EngOp) (d : Desc) : Nat := max (cdiv (estG o d) 2) (estKc o d)

/-- Granules read for model `i`: its block, then its transition or measurement block. -/
def estReads (o : EngOp) (d : Desc) (i : Nat) : List Nat :=
  runOf (d.inAddr + o.arg + 4 * i) 4 ++
  (if o.op = 2 then runOf (d.auxAddr + 3 * i) 3 else if bitOf d.flags 0 then [] else runOf (d.auxAddr + 8 * i) 8)

/-- Plan of an estimator op (R126). -/
def estPlan (c : Nat) (o : EngOp) (d : Desc) : OpPlan :=
  let shared := o.op = 1 && bitOf d.flags 0
  let s0 := if shared then 4 else 0
  let q := estQ o d
  let m := d.p 2
  let sh := if shared then listAcc false (c + 2) 2 (runOf d.auxAddr 8) else []
  let rd := ((List.range m).map (fun i => listAcc false (c + 2 + s0 + i * q) 2 (estReads o d i))).flatten
  let wr := ((List.range m).map (fun i =>
    listAcc false (c + 2 + s0 + (i + 2) * q) 2 (runOf (d.outAddr + o.arg + 4 * i) 4))).flatten
  let last := c + 2 + s0 + (m + 2) * q
  { acc := sh ++ rd ++ wr ++ (if opStatus 2 o.op d then [(last, d.stsAddr)] else []), free := last + 1, tile := [] }

/-- Source and destination granules of a static DMA op in movement order (R134); `idx` reads the channel's index table. -/
def dmaMoves (idx : Nat → Nat) (o : EngOp) (d : Desc) : List (Nat × Nat) :=
  let rows := d.p 0
  let w := d.p 1
  let rr := List.range rows
  let cc := List.range w
  match o.op with
  | 1 => (rr.map (fun r => cc.map (fun j =>
      (d.inAddr + o.arg + r * d.p 2 + j, d.outAddr + o.arg + r * d.p 3 + j)))).flatten
  | 2 => (rr.map (fun r => cc.map (fun j =>
      (d.inAddr + o.arg + idx (d.p 4 + r) + j, d.outAddr + o.arg + r * w + j)))).flatten
  | 3 => (rr.map (fun r => cc.map (fun j =>
      (d.inAddr + o.arg + r * w + j, d.outAddr + o.arg + idx (d.p 4 + r) + j)))).flatten
  | 4 => (List.range d.inLen).map (fun i => (d.inAddr + o.arg + i, d.outAddr + i))
  | 5 => (List.range d.outLen).map (fun i => (d.inAddr + i, d.outAddr + o.arg + i))
  | _ => []

/-- Plan of a DMA op (R134): static ops only; MR_READ and MR_WRITE make no static access (R135). -/
def dmaPlan (idx : Nat → Nat) (c : Nat) (o : EngOp) (d : Desc) : OpPlan :=
  let mv := dmaMoves idx o d
  let tile := o.op = 4 || o.op = 5
  let rg := o.op ≠ 5 && mv.any (fun x => inG15 x.1)
  let wg := o.op ≠ 4 && mv.any (fun x => inG15 x.2)
  let slow := rg || wg
  let rAt (i : Nat) := beat slow (c + 2) 16 i
  let wAt (i : Nat) := (if slow then alignUp 4 (rAt i + (if tile then 8 else 6)) else rAt i + (if tile then 8 else 6))
  let ix := (List.range mv.length).zip mv
  let rd := if o.op = 5 then [] else ix.map (fun x => (rAt x.1, x.2.1))
  let wr := if o.op = 4 then [] else ix.map (fun x => (wAt x.1, x.2.2))
  let tl := if o.op = 4 then ix.map (fun x => (wAt x.1, o.arg2 % 4, x.2.2 / 2 ^ 18))
    else if o.op = 5 then ix.map (fun x => (rAt x.1, o.arg2 % 4, x.2.1 / 2 ^ 18)) else []
  let fin := if mv.length = 0 then c + 2 else wAt (mv.length - 1) + 1
  let async := o.op = 6 || o.op = 7
  let sts := opStatus 9 o.op d && !async
  { acc := rd ++ wr ++ (if sts then [(beat (inG15 d.stsAddr) fin 1 0, d.stsAddr)] else []),
    free := if async then c + 1 else if sts then beat (inG15 d.stsAddr) fin 1 0 + 1 else fin, tile := tl }

/-- Base granule of a Strand receive ring (R136). -/
def ringGran (port slot : Nat) : Nat := (0x3C000000 + port * 0x40000 + (slot % 1024) * 256) / 64

/-- Plan of ING COPY (R136): 16 granules in each static cycle from e + 2, claiming all banks of group 15 there. -/
def ingPlan (c : Nat) (o : EngOp) (d : Desc) : OpPlan :=
  let q := d.p 1
  let n := 4 * q
  let rd := ((List.range (cdiv n 16)).map (fun b =>
    (List.range 32).map (fun k => (alignUp 4 (c + 2) + 4 * b, 15 * 2 ^ 20 + k)))).flatten
  let cEnd := beatEnd true (c + 2) 16 n + 4
  let wl := runOf (d.outAddr + o.arg) n
  let wg := inG15 (d.outAddr + o.arg)
  let wEnd := beatEnd wg cEnd 16 n
  let sts := opStatus 13 o.op d
  { acc := rd ++ listAcc wg cEnd 16 wl ++ (if sts then [(beat (inG15 d.stsAddr) wEnd 1 0, d.stsAddr)] else []),
    free := if sts then beat (inG15 d.stsAddr) wEnd 1 0 + 1 else wEnd, tile := [] }

/-- Plan of any engine op with effect cycle `c`. -/
def opPlan (e c : Nat) (idx : Nat → Nat) (o : EngOp) (d : Desc) : OpPlan :=
  if e = 2 then estPlan c o d else if 9 ≤ e ∧ e ≤ 12 then dmaPlan idx c o d else if e = 13 then ingPlan c o d
  else blockPlan e c o d

/-- Is a descriptor well formed for the op that names it, its ARG-shifted ranges inside the 1 GiB space (R115)? -/
def descOk (e : Nat) (o : EngOp) (d : Desc) : Bool :=
  let tin := (9 ≤ e && e ≤ 12) && o.op = 5
  let tout := (9 ≤ e && e ≤ 12) && o.op = 4
  let lim := 2 ^ 24
  let inOk := if tin then d.inAddr + d.outLen ≤ 2 ^ 20 else d.inAddr + o.arg + max d.inLen (opIn e o.op d) ≤ lim
  let outOk := if tout then d.outAddr + d.inLen ≤ 2 ^ 20 else d.outAddr + o.arg + max d.outLen (opOut e o.op d) ≤ lim
  let base := decide inOk && decide outOk && d.auxAddr + d.auxLen ≤ lim && (d.stsAddr < lim || d.stsAddr = 2 ^ 32 - 1)
  let own := match e with
    | 0 => 16 ≤ d.p 0 && d.p 0 ≤ 65536 && d.p 0 = 2 ^ lg (d.p 0) && 1 ≤ d.p 1 && d.p 0 * d.p 1 ≤ 65536
    | 1 => 1 ≤ qpN d && qpN d ≤ 4096 && qpW d ≤ 64 && qpMD d ≤ 8192 && qpMG d ≤ 1024 && qpNnz d ≤ 65536 &&
        1 ≤ qpCg d && qpCg d ≤ 16 && (o.op ≠ 1 || d.inLen = (qpArrays d).foldl (· + ·) 0) && (o.op ≠ 2 || 1 ≤ o.arg2)
    | 2 => 1 ≤ d.p 0 && d.p 0 ≤ 8 && (o.op = 1 || (1 ≤ d.p 1 && d.p 1 ≤ 4)) && 1 ≤ d.p 2 && d.p 2 ≤ 1024
    | 3 => (d.p 0 = 16 || d.p 0 = 32 || d.p 0 = 64 || d.p 0 = 256) && 1 ≤ d.p 1 && d.p 1 ≤ 64 &&
        opIn 3 1 d ≤ 16384 && d.p 2 + 4 ≤ d.p 0
    | 4 => d.p 0 ≤ 128
    | 5 => d.p 0 < 64 && (d.p 1 = 64 || d.p 1 = 256)
    | 6 => d.p 0 < 16 && d.p 1 ≤ 16384
    | 7 => d.p 1 ≤ 65536 && 1 ≤ d.p 0 && (if o.op = 1 then d.p 0 ≤ 256 else d.p 0 ≤ 16)
    | 8 => if o.op = 1 then 1 ≤ d.p 0 && d.p 0 ≤ 512 && 1 ≤ d.p 1 && d.p 1 ≤ 256 else 1 ≤ d.p 0 && d.p 0 ≤ 1024
    | 13 => (d.p 0 < 32 || d.p 0 = 0x40 || d.p 0 = 0x41) && 1 ≤ d.p 1 && d.p 1 ≤ 1024
    | 14 => if o.op = 2 then 1 ≤ d.p 0 && d.p 0 ≤ 512 else if o.op = 3 then d.p 0 < 32 && d.inLen ≤ 64
        else if o.op = 4 then d.p 0 ≤ 2 && d.inLen ≤ 64 else if o.op = 5 then d.inLen ≤ 64 else true
    | _ => if o.op ≤ 3 then d.p 0 * d.p 1 ≤ 65536 else if o.op = 4 then d.inLen ≤ 65536 else if o.op = 5 then d.outLen ≤ 65536
        else d.inLen ≤ 16384 && d.outLen ≤ 16384
  base && own

end Sys2Proof.Machine
end

