-- ==== Sys2Proof/Machine/Sha.lean ====
section
/-!
DEFINITION. SHA-256 (FIPS 180-4), which the hash engine and the Hallmark tree use (R133, R292): exact, over byte lists.
-/
namespace Sys2Proof.Machine

/-- The 64 round constants of SHA-256, first half. -/
def shaK0 : List Nat :=
  [0x428a2f98, 0x71374491, 0xb5c0fbcf, 0xe9b5dba5, 0x3956c25b, 0x59f111f1, 0x923f82a4, 0xab1c5ed5,
   0xd807aa98, 0x12835b01, 0x243185be, 0x550c7dc3, 0x72be5d74, 0x80deb1fe, 0x9bdc06a7, 0xc19bf174,
   0xe49b69c1, 0xefbe4786, 0x0fc19dc6, 0x240ca1cc, 0x2de92c6f, 0x4a7484aa, 0x5cb0a9dc, 0x76f988da,
   0x983e5152, 0xa831c66d, 0xb00327c8, 0xbf597fc7, 0xc6e00bf3, 0xd5a79147, 0x06ca6351, 0x14292967]

/-- The 64 round constants of SHA-256, second half. -/
def shaK1 : List Nat :=
  [0x27b70a85, 0x2e1b2138, 0x4d2c6dfc, 0x53380d13, 0x650a7354, 0x766a0abb, 0x81c2c92e, 0x92722c85,
   0xa2bfe8a1, 0xa81a664b, 0xc24b8b70, 0xc76c51a3, 0xd192e819, 0xd6990624, 0xf40e3585, 0x106aa070,
   0x19a4c116, 0x1e376c08, 0x2748774c, 0x34b0bcb5, 0x391c0cb3, 0x4ed8aa4a, 0x5b9cca4f, 0x682e6ff3,
   0x748f82ee, 0x78a5636f, 0x84c87814, 0x8cc70208, 0x90befffa, 0xa4506ceb, 0xbef9a3f7, 0xc67178f2]

/-- The initial hash value. -/
def shaInit : List Nat :=
  [0x6a09e667, 0xbb67ae85, 0x3c6ef372, 0xa54ff53a, 0x510e527f, 0x9b05688c, 0x1f83d9ab, 0x5be0cd19]

/-- Rotation right of a 32-bit number. -/
def ror32 (n x : Nat) : Nat := (x / 2 ^ n) ||| ((x * 2 ^ (32 - n)) % 2 ^ 32)

/-- The next word of the message schedule, from the last 16 words (newest first). -/
def shaNextW (w : List Nat) : Nat :=
  let w15 := w.getD 14 0
  let w2 := w.getD 1 0
  let s0 := (ror32 7 w15 ^^^ ror32 18 w15) ^^^ (w15 / 8)
  let s1 := (ror32 17 w2 ^^^ ror32 19 w2) ^^^ (w2 / 1024)
  (w.getD 15 0 + s0 + w.getD 6 0 + s1) % 2 ^ 32

/-- The 64-word message schedule of a block, newest first. -/
def shaSchedule : Nat → List Nat → List Nat
  | 0, w => w
  | n + 1, w => shaSchedule n (shaNextW w :: w)

/-- One round. -/
def shaRound (h : List Nat) (kw : Nat) : List Nat :=
  match h with
  | [a, b, c, d, e, f, g, hh] =>
    let s1 := (ror32 6 e ^^^ ror32 11 e) ^^^ ror32 25 e
    let ch := (e &&& f) ^^^ ((e ^^^ 0xFFFFFFFF) &&& g)
    let t1 := hh + s1 + ch + kw
    let s0 := (ror32 2 a ^^^ ror32 13 a) ^^^ ror32 22 a
    let mj := ((a &&& b) ^^^ (a &&& c)) ^^^ (b &&& c)
    [(t1 + s0 + mj) % 2 ^ 32, a, b, c, (d + t1) % 2 ^ 32, e, f, g]
  | h => h

/-- One 64-byte block. -/
def shaBlock (h w16 : List Nat) : List Nat :=
  let w := (shaSchedule 48 w16.reverse).reverse
  let out := (List.zipWith (· + ·) w (shaK0 ++ shaK1)).foldl shaRound h
  List.zipWith (fun a b => (a + b) % 2 ^ 32) h out

/-- Big-endian 32-bit words of a byte list. -/
def beWords : List Byte → List Nat
  | a :: b :: c :: d :: r =>
    (((a.toNat * 256 + b.toNat) * 256 + c.toNat) * 256 + d.toNat) :: beWords r
  | _ => []

/-- The blocks of a word list (a block count as fuel). -/
def shaBlocks : Nat → List Nat → List Nat → List Nat
  | 0, h, _ => h
  | n + 1, h, ws => shaBlocks n (shaBlock h (ws.take 16)) (ws.drop 16)

/-- The padded message. -/
def shaPad (m : List Byte) : List Byte :=
  let l := m.length
  let z := (119 - l % 64) % 64
  m ++ [0x80#8] ++ List.replicate z 0#8 ++ (leBytes 8 (8 * l)).reverse

/-- The digest as 32 bytes, most significant byte of each word first (FIPS 180-4). -/
def sha256 (m : List Byte) : List Byte :=
  let p := shaPad m
  let h := shaBlocks (p.length / 64) shaInit (beWords p)
  h.flatMap fun w => (leBytes 4 w).reverse

/-- The digest as a number whose byte 0 (least significant) is the digest's first byte, the way a 32-byte field of a
little-endian record holds it. -/
def sha256N (m : List Byte) : BitVec 256 := BitVec.ofNat 256 (ofLe (sha256 m))

end Sys2Proof.Machine
end

