-- ==== Sys2Proof/Machine/Loader.lean ====
section
/-!
DEFINITION. The Pattern container (R57 to R60), the compressed Stitch stream (R51 to R53) and the loader's checks in their
order (R61 to R65).
-/
namespace Sys2Proof.Machine

/-- A byte source: the container's bytes by offset. -/
abbrev Src := Nat → Nat

/-- The container staged in memory at an address. -/
def memSrc (s : State) (a : Nat) : Src := fun o => (s.byte (a + o)).toNat

/-- A container kept as bytes (the Pattern store's copy, R68). -/
def listSrc (l : List Byte) : Src := fun o => (l.getD o 0).toNat

/-- `n` bytes of a source from an offset. -/
def srcBytes (f : Src) (o n : Nat) : List Byte := (List.range n).map (fun i => BitVec.ofNat 8 (f (o + i)))

/-! ## Header, variant table and directory (R57 to R59) -/

/-- A directory entry (R59). -/
structure DirEnt where
  type : Nat
  variant : Nat
  unit : Nat
  load : Bool
  off : Nat
  len : Nat
  dest : Nat
  hash : Nat
  deriving DecidableEq, Repr

/-- The header's fields (R57). -/
structure Hdr where
  magic : Nat
  fmtVer : Nat
  hdrLen : Nat
  total : Nat
  id : Nat
  version : Nat
  rollback : Nat
  target : Nat
  cls : Nat
  superN : Nat
  variants : Nat
  tailMin : Nat
  swapMode : Nat
  dirCount : Nat
  dirOff : Nat
  sigOff : Nat
  layout : Nat
  deriving DecidableEq, Repr

/-- Read the header. -/
def readHdr (f : Src) : Hdr :=
  { magic := srcLe f 0 4, fmtVer := srcLe f 4 2, hdrLen := srcLe f 6 2, total := srcLe f 8 8, id := srcLe f 0x10 16,
    version := srcLe f 0x20 4, rollback := srcLe f 0x24 4, target := f 0x28, cls := f 0x29, superN := f 0x2A,
    variants := f 0x2B, tailMin := srcLe f 0x2C 2, swapMode := f 0x2E, dirCount := srcLe f 0x30 4,
    dirOff := srcLe f 0x34 4, sigOff := srcLe f 0x3C 4, layout := srcLe f 0x40 16 }

/-- Read variant-table entry `i` (R58). -/
def readVariant (f : Src) (i : Nat) : VariantRow :=
  let o := 0x80 + 16 * i
  { code := f o, stackN := f (o + 1), frameCyc := srcLe f (o + 2) 2, arrays := srcLe f (o + 4) 2, air := f (o + 6) = 1,
    steer := f (o + 7) = 1 }

/-- Read directory entry `i` (R59). -/
def readDir (f : Src) (h : Hdr) (i : Nat) : DirEnt :=
  let o := h.dirOff + 64 * i
  { type := f o, variant := f (o + 1), unit := f (o + 2), load := bitOf (f (o + 3)) 0, off := srcLe f (o + 8) 8,
    len := srcLe f (o + 0x10) 8, dest := srcLe f (o + 0x18) 8, hash := srcLe f (o + 0x20) 32 }

/-- The variant table. -/
def variantsOf (f : Src) (h : Hdr) : List VariantRow := (List.range h.variants).map (readVariant f)

/-- The directory. -/
def dirOf (f : Src) (h : Hdr) : List DirEnt := (List.range h.dirCount).map (readDir f h)

/-- Does a directory entry belong to a variant? -/
def DirEnt.serves (d : DirEnt) (v : Nat) : Bool := d.variant = v || d.variant = 0xFF

/-- The STITCH section of a variant. -/
def stitchOf (dir : List DirEnt) (v : Nat) : Option DirEnt := dir.find? (fun d => d.type = 1 && d.variant = v)

/-- The variant codes a target must carry (R58). -/
def neededVariants (targetF : Bool) : List Nat :=
  [0] ++ (List.range (if targetF then 16 else 8)).map (0x10 + ·) ++ (List.range (if targetF then 4 else 2)).map (0x20 + ·)
    ++ [0x30]

/-- SUPER_N divides 100 (R54). -/
def superOk (n : Nat) : Bool := n ≠ 0 && 100 % n = 0

/-- The sign of a well-formed variant row (R58). -/
def variantOk (targetF : Bool) (v : VariantRow) : Bool :=
  let air := v.code = 0x30
  v.frameCyc = (if air then 10000 else 12500) && v.air == air &&
  (v.steer == air) && (!air || popcount 4 v.stackN = 1) &&
  (targetF || (v.stackN < 4 && v.arrays < 256)) && v.stackN < 16

/-- Check 6 of R61: header, table and directory well formed, SUPER_N divides 100, TAIL_MIN at least 256. -/
def formatOk (h : Hdr) (vs : List VariantRow) (dir : List DirEnt) (len : Nat) : Bool :=
  h.magic = 0x4E545051 && h.fmtVer = 1 && h.hdrLen = 0x80 && h.total = len && h.target ≤ 1 && h.cls ≤ 3 &&
  h.swapMode ≤ 1 && h.dirOff = 0x80 + 16 * h.variants && superOk h.superN && 256 ≤ h.tailMin &&
  h.dirOff + 64 * h.dirCount ≤ len && h.sigOff + 8352 ≤ len &&
  vs.all (variantOk (h.target = 1)) &&
  dir.all (fun d => ((1 ≤ d.type && d.type ≤ 6) || d.type = 8) && d.off + d.len ≤ len &&
    (d.type ≠ 2 || d.unit < 4))

/-- The index of the first directory entry that fails a test. -/
def firstBad (dir : List DirEnt) (p : DirEnt → Bool) : Option Nat := dir.findIdx? (fun d => !p d)

/-- The SHA-256 of a section, as the number its 32 stored bytes spell. -/
def sectionHash (f : Src) (d : DirEnt) : Nat := ofLe (sha256 (srcBytes f d.off d.len))

/-- Check 7 of R61 for one section. -/
def hashOk (f : Src) (d : DirEnt) : Bool := !d.load || sectionHash f d = d.hash

/-! ## The compressed stream (R51 to R53) -/

/-- A run of equal Stitches: how many, the Stitch, and the bytes of its record. -/
structure Run where
  n : Nat
  stitch : Nat
  bytes : Nat
  deriving DecidableEq, Repr

/-- Place the carried words of a DELTA: word `w` of the Stitch for each mask bit, the words following at `o`. -/
def deltaWords (f : Src) (mask : Nat) : Nat → Nat → Nat → Nat → Nat × Nat
  | 0, _, o, st => (st, o)
  | k + 1, w, o, st =>
    if bitOf mask w then deltaWords f mask k (w + 1) (o + 4) (withField st (32 * w) 32 (srcLe f o 4))
    else deltaWords f mask k (w + 1) o st

/-- Decode one frame's records from offset `o` up to its MARK; answers the runs and the offset after the MARK, none where a
count is 0, the MARK does not match, or no MARK comes within the fuel. -/
def decodeFrame (f : Src) (slot : Nat) : Nat → Nat → Nat → Nat → List Run → Option (List Run × Nat)
  | 0, _, _, _, _ => none
  | fuel + 1, o, prev, made, acc =>
    let w := srcLe f o 4
    let kind := w % 4
    if kind = 0 then
      let n := w / 64
      let st := fieldOf w 2 4 * 16
      if n = 0 then none else decodeFrame f slot fuel (o + 4) st (made + n) (⟨n, st, 4⟩ :: acc)
    else if kind = 1 then
      let n := w / 4
      if n = 0 then none else decodeFrame f slot fuel (o + 4) prev (made + n) (⟨n, prev, 4⟩ :: acc)
    else if kind = 2 then
      let n := w / 8
      let mask := srcLe f (o + 4) 4 + 2 ^ 32 * srcLe f (o + 8) 4
      let (st, o') := deltaWords f mask 64 0 (o + 12) (if bitOf w 2 then prev else 0)
      if n = 0 then none else decodeFrame f slot fuel o' st (made + n) (⟨n, st, o' - o⟩ :: acc)
    else if fieldOf w 2 7 = slot % 128 ∧ w / 512 = made then some (acc.reverse, o + 4) else none

/-- How many Stitches a list of runs holds. -/
def runsLen (l : List Run) : Nat := l.foldl (fun n r => n + r.n) 0

/-- The frame slots of a STITCH section: its table of SUPER_N offsets, then the records (R52). Answers the frames or the
first slot that does not decode to FRAME_CYC Stitches. -/
def decodeSlots (f : Src) (sec : DirEnt) (cyc : Nat) : List Nat → List (List Run) → Except Nat (List (List Run))
  | [], acc => .ok acc.reverse
  | i :: r, acc =>
    let g : Src := fun o => f (sec.off + o)
    match decodeFrame g i (sec.len / 4 + 1) (srcLe g (8 * i) 8) 0 0 [] with
    | some (runs, stop) =>
      if runsLen runs = cyc ∧ stop ≤ sec.len then decodeSlots f sec cyc r (runs :: acc) else .error i
    | none => .error i

/-- Density (R53): the most bytes that records starting in any run of Stitches hold beyond 128 a Stitch. -/
def densityGo : List Run → Nat → Bool
  | [], _ => true
  | r :: l, excess =>
    let e := excess + r.bytes
    e ≤ 128 + 16384 && densityGo l (e - 128 * r.n)

/-! ## The Stitch checks (R43 to R50) -/

/-- Are a slot's reserved codes and bits clear (R43, R82, R84, R94, R114, R48)? -/
def slotOk (sl : Slot) (b : Nat) : Bool :=
  if slotOp b = 0 then b = 0 else
  match sl with
  | .mac _ =>
    let o := MacOp.ofBits b
    o.op ≤ 3 && o.fmt ≤ 9 && (o.depth = 0 || (o.op = 1 && o.ball)) && (!(o.op = 1 && o.ball) || o.depth ≠ 0) &&
    (!o.acc || o.op = 2) && (o.op ≠ 1 || o.len ≤ o.rows)
  | .vec _ =>
    let o := VecOp.ofBits b
    o.op ≤ 14 && (o.type ≤ 2 || (o.type = 3 && (o.op = 7 || o.op = 12))) && fieldOf b 90 6 = 0 &&
    (o.op ≠ 8 || o.func ≤ 8) && ((o.op ≠ 7 && o.op ≠ 13) || o.func ≤ 9)
  | .eng e =>
    let o := EngOp.ofBits e b
    o.op ≤ engOps e && !((9 ≤ e && e ≤ 12) && 4 ≤ o.arg2)
  | .mbp => slotOp b ≤ 3

/-- Reserved bits of a Stitch and the slots that a B Pattern leaves at 0 (R42, R44, R45). -/
def stitchOk (targetF : Bool) (st : Nat) : Bool :=
  fieldOf st 2 2 = 0 && fieldOf st 16 16 = 0 && fieldOf st 2032 16 = 0 &&
  allSlots.all (fun sl => slotOk sl (sl.bits st)) &&
  (targetF || (fieldOf st 6 2 = 0 && fieldOf st (32 + 64 * 8) 512 = 0 && fieldOf st (1056 + 96 * 2) 192 = 0))

/-- Does a Stitch carry no op? -/
def noOp (st : Nat) : Bool := st / 2 ^ 32 = 0

/-- The runs of a frame with the index of their first Stitch. -/
def indexed : List Run → Nat → List (Nat × Run)
  | [], _ => []
  | r :: l, i => (i, r) :: indexed l (i + r.n)

/-- The index of FRAME_END, where exactly one Stitch carries it. -/
def frameEnd (l : List (Nat × Run)) : Option Nat :=
  match l.filter (fun x => bitOf x.2.stitch 0) with
  | [(i, r)] => if r.n = 1 then some i else none
  | _ => none

/-- Check 13 of R61: one FRAME_END, a tail of at least TAIL_MIN Stitches that carry AWAKE alone (R47). -/
def tailOk (tailMin cyc : Nat) (l : List (Nat × Run)) : Bool :=
  match frameEnd l with
  | none => false
  | some i => i + 1 + tailMin ≤ cyc &&
      l.all (fun x => x.1 ≤ i || (noOp x.2.stitch && x.2.stitch % 2 ^ 32 % 16 = 0 && x.2.stitch % 2 ^ 32 < 256))

/-- Check 14 of R61: every EGR REF lies at an index at most FRAME_CYC - TAIL_MIN - 48 (R50). -/
def handoffOk (tailMin cyc : Nat) (l : List (Nat × Run)) : Bool :=
  l.all (fun x => slotOp ((Slot.eng 14).bits x.2.stitch) ≠ 1 || x.1 + x.2.n - 1 + tailMin + 48 ≤ cyc)

/-- Does a Stitch carry a MAC or VEC op for stack `d`? -/
def stackOp (st d : Nat) : Bool :=
  (List.range 4).any (fun a => slotOp ((Slot.mac (4 * d + a)).bits st) ≠ 0) || slotOp ((Slot.vec d).bits st) ≠ 0

/-- Check 17 of R61 for a stack: AWAKE 250 Stitches ahead of every op of the stack, at FRAME_END and in the tail if the
variant uses it (R46). `since` is the first Stitch of the present AWAKE run, none while it is gated. -/
def wakeGo (d : Nat) (used : Bool) (endAt : Nat) : List (Nat × Run) → Option Nat → Bool
  | [], _ => true
  | (i, r) :: l, since =>
    let aw := bitOf r.stitch (4 + d)
    let since' := if aw then some (since.getD i) else none
    let opOk := !stackOp r.stitch d || (match since' with
      | some k => k = 0 || k + 250 ≤ i
      | none => false)
    let tailAw := !used || i + r.n ≤ endAt || aw
    opOk && tailAw && wakeGo d used endAt l since'

/-! ## Expansion into accesses (R62, checks 15 and 16) -/

/-- The image that fills the engines' descriptor memory for a variant: the byte at offset `o` of the descriptor region
(0x00_0010_0000), from the last SHM_IMAGE section that covers it. -/
def descByte (f : Src) (dir : List DirEnt) (v : Nat) (o : Nat) : Nat :=
  let a := 0x100000 + o
  match (dir.filter (fun d => d.type = 3 && d.load && d.serves v && d.dest ≤ a && a < d.dest + d.len)).getLast? with
  | some d => f (d.off + (a - d.dest))
  | none => 0

/-- What the expansion has gathered in a frame. -/
structure Expand where
  busy : List Nat
  acc : List Acc
  tile : List (Nat × Nat × Nat)
  vec : List (Nat × Nat × Nat)
  last : Nat
  bad : Bool
  deriving DecidableEq, Repr

/-- Issue one engine op of a Stitch at index `i` in the expansion; an op that finds its engine busy is dropped (R117). -/
def expandEng (f : Nat → Nat) (base i st : Nat) (x : Expand) (e : Nat) : Expand :=
  let b := (Slot.eng e).bits st
  if slotOp b = 0 then x else
  let o := EngOp.ofBits e b
  let d := Desc.read f (descOff e o.desc)
  let x := { x with bad := x.bad || !descOk e o d }
  let c := i + (Slot.eng e).delay
  if base + c < x.busy.getD e 0 then x else
  let p := opPlan e c (fun k => srcLe f (indexOff (e - 9) k) 4) o d
  { x with busy := x.busy.set e (base + p.free), acc := p.acc ++ x.acc, tile := p.tile ++ x.tile,
           last := p.acc.foldl (fun m a => max m a.1) x.last }

/-- Port-B accesses of a vector op as (cycle, die, quadrant). -/
def vecPorts (d c : Nat) (o : VecOp) : List (Nat × Nat × Nat) :=
  ((List.range o.cycles).map (fun k => o.quads.map (fun q => (c + k, d, q)))).flatten

/-- Issue every op of one Stitch at index `i`. -/
def expandStitch (f : Nat → Nat) (base i st : Nat) (x : Expand) : Expand :=
  let x := (List.range 15).foldl (expandEng f base i st) x
  (List.range 4).foldl (fun x d =>
    let b := (Slot.vec d).bits st
    if slotOp b = 0 then x else { x with vec := vecPorts d (i + 8) (VecOp.ofBits b) ++ x.vec }) x

/-- Expand a run: a Stitch without ops expands to nothing. -/
def expandRun (f : Nat → Nat) (base : Nat) (x : Expand) (ir : Nat × Run) : Expand :=
  if noOp ir.2.stitch then x else
  (List.range ir.2.n).foldl (fun x k => expandStitch f base (ir.1 + k) ir.2.stitch x) x

/-- Are there two equal elements? -/
def hasDup {α : Type} [DecidableEq α] : List α → Bool
  | [] => false
  | a :: l => l.contains a || hasDup l

/-- Check 15 of R61 on a frame's accesses: no two at one bank in one cycle (the claims of an ING COPY stand for all banks
of the group), the frame status bank free in cycles 0 to 7, no vector access at a quadrant's port B together with a
vertical transfer (R94). -/
def bankOk (x : Expand) : Bool :=
  !hasDup (x.acc.map (fun a => (a.1, bankOf a.2))) &&
  x.acc.all (fun a => !(a.1 ≤ 7 && bankOf a.2 = 0)) &&
  x.tile.all (fun t => !x.vec.contains t)

/-- Check 16 of R61: accesses to group 15 only in static cycles (R109). -/
def windowOk (x : Expand) : Bool := x.acc.all (fun a => !inG15 a.2 || a.1 % 4 = 0)

/-! ## Profile and regions (R60, R63) -/

/-- Figure `j` of frame slot `i` in a PROFILE section: 5 peaks (CD0 to CD3, base die), then 5 means, 16 bits each (the
order inside a slot's record is DESIGN CHOICE, log 22). -/
def profileAt (f : Src) (d : DirEnt) (i j : Nat) : Nat := srcLe f (d.off + 20 * i + 2 * j) 2

/-- Sum of `n` figures. -/
def sumTo (n : Nat) (g : Nat → Nat) : Nat := (List.range n).foldl (fun a i => a + g i) 0

/-- The declared peak of a slot: the sum over stacks and base die. -/
def slotPeak (f : Src) (d : DirEnt) (i : Nat) : Nat := sumTo 5 (fun j => profileAt f d i j)

/-- The declared mean of a slot. -/
def slotMean (f : Src) (d : DirEnt) (i : Nat) : Nat := sumTo 5 (fun j => profileAt f d i (5 + j))

/-- The PROFILE section of a variant. -/
def profileOf (dir : List DirEnt) (v : Nat) : Option DirEnt := dir.find? (fun d => d.type = 4 && d.serves v)

/-- Check 18 of R61 for a variant: each slot's peak within BUDGET_PEAK and the super-frame's mean within BUDGET_MEAN of
the variant's cooling mode (R63). Answers the first slot that fails. -/
def profileBad (s : State) (f : Src) (dir : List DirEnt) (n : Nat) (v : VariantRow) : Option Nat :=
  match profileOf dir v.code with
  | none => some 0
  | some d =>
    let peak := s.reg (if v.air then Reg.PWR_BUDGET_PEAK_AIR else Reg.PWR_BUDGET_PEAK_LIQ)
    let mean := s.reg (if v.air then Reg.PWR_BUDGET_MEAN_AIR else Reg.PWR_BUDGET_MEAN_LIQ)
    match (List.range n).find? (fun i => decide (peak < slotPeak f d i)) with
    | some i => some i
    | none => if mean * n < sumTo n (slotMean f d) then some 0 else none

/-- The ranges of a REGIONS section: entries of 24 bytes, start (8), length (8), kind (1: 0 private, 1 persistent), 7
reserved (DESIGN CHOICE, log 22). -/
def regionsOf (f : Src) (dir : List DirEnt) : List (Nat × Nat × Bool) :=
  ((dir.filter (·.type = 5)).map (fun d => (List.range (d.len / 24)).map (fun i =>
    (srcLe f (d.off + 24 * i) 8, srcLe f (d.off + 24 * i + 8) 8, decide (f (d.off + 24 * i + 16) = 1))))).flatten

/-- Do two ranges meet? -/
def rangesMeet (a b : Nat × Nat × Bool) : Bool := a.1 < b.1 + b.2.1 && b.1 < a.1 + a.2.1

/-- What the module keeps of a container. -/
def describePattern (f : Src) : PatDesc :=
  let h := readHdr f
  let dir := dirOf f h
  let vs := variantsOf f h
  { id := BitVec.ofNat 128 h.id, version := BitVec.ofNat 32 h.version, rollback := BitVec.ofNat 32 h.rollback,
    targetF := h.target = 1, cls := h.cls, superN := h.superN, tailMin := h.tailMin, hot := h.swapMode = 1,
    layout := BitVec.ofNat 128 h.layout, variants := vs,
    profile := vs.map (fun v => match profileOf dir v.code with
      | some d => (v.code, (List.range h.superN).foldl (fun m i => max m (slotPeak f d i)) 0,
                   sumTo h.superN (slotMean f d) / max h.superN 1)
      | none => (v.code, 0, 0)),
    regions := regionsOf f dir,
    mbxDesc := ((dir.filter (·.type = 6)).map (fun d =>
      (List.range (d.len / 8)).map (fun i => srcLe f (d.off + 8 * i) 8))).flatten }

/-! ## The checks in order (R61) -/

/-- A rejection: reason code and detail. -/
abbrev Reject := Nat × Nat

/-- Fail with a reason unless a condition holds. -/
def require (c : Bool) (reason detail : Nat) : Except Reject Unit := if c then .ok () else .error (reason, detail)

/-- Fail with the index an option holds. -/
def requireNone (o : Option Nat) (reason : Nat) : Except Reject Unit :=
  match o with
  | none => .ok ()
  | some i => .error (reason, i)

/-- A variant's frames as (slot, indexed runs). -/
def slotsOf (frames : List (List Run)) : List (Nat × List (Nat × Run)) :=
  (List.range frames.length).zip (frames.map (fun l => indexed l 0))

/-- The first slot whose frame fails a test. -/
def firstSlot (frames : List (List Run)) (p : List (Nat × Run) → Bool) : Option Nat :=
  ((slotsOf frames).find? (fun x => !p x.2)).map (·.1)

/-- The expansion of every frame of a variant, engines carrying their busy time from frame to frame (R62, R117). -/
def expandFrames (f : Src) (dir : List DirEnt) (v : Nat) :
    List (Nat × List (Nat × Run)) → List Nat → List (Nat × List (Nat × Run) × Expand)
  | [], _ => []
  | (i, l) :: r, busy =>
    let x := l.foldl (expandRun (descByte f dir v) (12500 * i)) ⟨busy, [], [], [], 0, false⟩
    (i, l, x) :: expandFrames f dir v r x.busy

/-- The first expanded frame that fails a test. -/
def firstExp (xs : List (Nat × List (Nat × Run) × Expand)) (p : List (Nat × Run) → Expand → Bool) : Option Nat :=
  (xs.find? (fun x => !p x.2.1 x.2.2)).map (·.1)

/-- The frames of every variant, or the first that fails: size (check 9) and frame length (check 10). -/
def decodeVariants (f : Src) (h : Hdr) (dir : List DirEnt) : List VariantRow → Except Reject (List (VariantRow × List (List Run)))
  | [] => .ok []
  | v :: r => do
    let sec := (stitchOf dir v.code).getD ⟨1, v.code, 0xFF, false, 0, 0, 0, 0⟩
    let frames ← match decodeSlots f sec v.frameCyc (List.range h.superN) [] with
      | .ok l => Except.ok l
      | .error i => Except.error (0x09, i)
    let rest ← decodeVariants f h dir r
    pure ((v, frames) :: rest)

/-- Run a check over a list, stopping at the first failure. -/
def forEach {α : Type} (l : List α) (g : α → Except Reject Unit) : Except Reject Unit :=
  match l with
  | [] => .ok ()
  | a :: r => match g a with
    | .ok _ => forEach r g
    | .error e => .error e

/-- The checks of R61 in the order given, on the container at `f` of `len` bytes with the signature verdicts `sig`;
`runs` holds the regions of the running Pattern. -/
def checkContainer (s : State) (f : Src) (len : Nat) (sig : SigVerdict) (runs : List (Nat × Nat × Bool)) :
    Except Reject Unit := do
  let h := readHdr f
  let vs := variantsOf f h
  let dir := dirOf f h
  require sig.rsa 0x01 0
  require sig.slh 0x02 0
  require (bitOf (lcSigners s.lc) h.cls) 0x03 0
  require (decide (h.rollback ≤ 255) && s.fld Reg.LKT_CNT_PATTERN (8 * h.cls) 8 ≤ h.rollback) 0x04 0
  require (h.target = 0 || s.fx.full) 0x05 0
  require (formatOk h vs dir len) 0x06 0
  requireNone (firstBad dir (hashOk f)) 0x07
  requireNone ((neededVariants (h.target = 1)).find? (fun c => !(vs.any (·.code = c) && (stitchOf dir c).isSome))) 0x08
  requireNone (firstBad dir (fun d => d.type ≠ 1 || d.len ≤ 2 ^ 26)) 0x13
  let fr ← decodeVariants f h dir vs
  forEach fr (fun x => requireNone ((x.2.findIdx? (fun l => !densityGo l 0))) 0x0A)
  forEach fr (fun x => requireNone ((x.2.findIdx? (fun l => !l.all (fun r => stitchOk (h.target = 1) r.stitch)))) 0x0B)
  let ex := fr.map (fun x => expandFrames f dir x.1.code (slotsOf x.2) (List.replicate 15 0))
  forEach ex (fun x => requireNone (firstExp x (fun _ e => !e.bad)) 0x06)
  forEach fr (fun x => requireNone (firstSlot x.2 (tailOk h.tailMin x.1.frameCyc)) 0x0C)
  forEach ex (fun x => requireNone (firstExp x (fun l e => e.last ≤ (frameEnd l).getD 0 + 8)) 0x0C)
  forEach fr (fun x => requireNone (firstSlot x.2 (handoffOk h.tailMin x.1.frameCyc)) 0x0D)
  forEach ex (fun x => requireNone (firstExp x (fun _ e => bankOk e)) 0x0E)
  forEach ex (fun x => requireNone (firstExp x (fun _ e => windowOk e)) 0x0F)
  forEach fr (fun x => requireNone (firstSlot x.2 (fun l => (List.range 4).all (fun d =>
    wakeGo d (bitOf x.1.stackN d) ((frameEnd l).getD 0) l none))) 0x10)
  forEach vs (fun v => requireNone (profileBad s f dir h.superN v) 0x11)
  let mine := (regionsOf f dir).filter (fun r => !r.2.2)
  require (!(h.swapMode = 1 && mine.any (fun a => runs.any (fun b => !b.2.2 && rangesMeet a b)))) 0x12 0

/-- The largest container (R351). -/
def maxContainer : Nat := 2 ^ 32

/-- Write the images of a variant (R65, R68): SHM_IMAGE and TILE_IMAGE sections that serve it, byte by byte, leaving what
`keep` protects; a steered variant's stack images go to the stack chosen (R101). -/
def State.writeImages (s : State) (f : Src) (v steer : Nat) (keep : Nat → Bool) : State :=
  let h := readHdr f
  let dir := (dirOf f h).filter (fun d => (d.type = 2 || d.type = 3) && d.load && d.serves v)
  dir.foldl (fun s d =>
    let shift := if d.type = 2 ∧ v = 0x30 then steer * 0x10000000 else 0
    (List.range d.len).foldl (fun s i =>
      let a := d.dest + shift + i
      if keep a then s else (s.setByte a (BitVec.ofNat 8 (f (d.off + i)))).unpoison a 1) s) s

/-- Is an address in a persistent region of a list? -/
def inPersistent (l : List (Nat × Nat × Bool)) (a : Nat) : Bool :=
  l.any (fun r => r.2.2 && r.1 ≤ a && a < r.1 + r.2.1)

/-- The Stitch stream of a variant, as its bank holds it. -/
def streamOf (f : Src) (v : Nat) : List Byte :=
  match stitchOf (dirOf f (readHdr f)) v with
  | some d => srcBytes f d.off d.len
  | none => []

end Sys2Proof.Machine
end

