-- ==== Sys2Proof/Config.lean ====
section
/-!
DEFINITION. What the spec leaves open: each value is an opaque constant with no body, applied to the operands it depends on
or to the running index of free values taken (State.free), so that nothing can rest on a particular value.
-/
namespace Sys2Proof.Config

/-- The slew rate, in ppb before the clamp of R32 and R193, with which TIM removes an offset: the spec bounds it by 20 ppm
and states no law (log 20). -/
opaque slewPpb (offset : Int) : Nat

/-- A value the spec leaves open, by the running index of free values and a place within what takes it (log 9). -/
opaque freeValue (index place : Nat) : Nat

/-- The vector unit's ROM function (R96): function, lane type and operand code to result code. The spec bounds its error and
states no table (log 24). -/
opaque tab (func type x : Nat) : Nat

/-- The slope bound of a segment of ROM functions 7 and 8 (R96), an FP32 code. -/
opaque tabSlope (func : Nat) (segment : Int) : Nat

/-- Half of an odd number of ns: the spec states no rounding for DELAY (R164, log 32). -/
opaque oddHalf (x : Int) : Int

/-- A quotient that is not whole and whose rounding the spec does not state (log 33): kind of value, numerator, denominator. -/
opaque roundOpen (kind num den : Nat) : Nat

/-- Does the FFT engine decimate in frequency? The spec gives radix-2 butterflies and not which way they decimate (R120, log 27). -/
opaque fftInFrequency : Bool

/-- A quotient of the conjugate gradients whose denominator is 0, an FP32 code: the spec states none (R122, log 29). -/
opaque cgQuotient (num den : Nat) : Nat

/-- The bin of an element whose place (x - lo) / width is no number (R130, log 28). -/
opaque binOpen (x lo width : Nat) : Nat

/-- The spline engine's value (R131) at a point of a segment or cell, an FP32 code: the spec bounds its distance from the polynomial
by E and states no value (log 28). -/
opaque splineHat (coef : List Nat) (u v : Nat) : Nat

/-- The protocol version in the module's IDENT (R155), which the spec does not give. -/
opaque protoVersion : Nat

/-- The load model's residual and spread (R172): run, endpoint and step. -/
opaque residual (run ep step : Nat) : Nat
opaque spread (run ep step : Nat) : Nat

/-- The weight e^(-i * 10 us / 200 us) of R172 as the Pattern computes it. -/
opaque errWeight (step : Nat) : Nat

/-- A long forecast's value (R173): refresh, endpoint, step of 1 ms. -/
opaque longForecast (run ep step : Nat) : Nat

/-- 2 A * sin(2 pi * 317 Hz * t) of an excitation burst (R270) as an FP32 code, by the burst's start and the instant: the spec
states neither the phase's origin nor a rounding (log 34). -/
opaque excSine (start now : Nat) : Nat

/-- A number of ps that is not a whole number of ns: the spec states no rounding (log 33). -/
opaque psRound (x : Int) : Int

/-- A quantity that the module measures and shows in a register, and that no event of the table brings (PWR_ICORE, PWR_INPUT and the
like): the register's window address and the instant. -/
opaque measured (addr now : Nat) : Nat

end Sys2Proof.Config
end

