-- ==== Sys2Proof/Machine/Time.lean ====
section
/-!
DEFINITION. Site time: disciplining, holdover and steps (R26 to R32, R193, R447).
-/
namespace Sys2Proof.Machine

/-- A Pattern is running (R32): the sequencer holds one that it has started; OFF, STARTING and FAULT hold none that runs. -/
def State.patternRunning (s : State) : Bool :=
  let b := s.blk 0x10
  b = stRunning || b = stStopping || b = stQuiesced || b = stHold

/-- TIM disciplines (TIM_CTL.DISCIPLINE_EN, R447). -/
def State.disciplineEn (s : State) : Bool := s.bit Reg.TIM_CTL 0

/-- Saturation of a signed value to plus or minus (2^31 - 1) (R471). -/
def satI32 (x : Int) : Nat := ofInt 32 (clampInt (-(2 ^ 31 - 1)) (2 ^ 31 - 1) x)

/-- TIM writes the slew that removes `rem` ns (R32: at most 20 ppm, towards the source). -/
def State.slewBy (s : State) (rem : Int) : State :=
  let mag : Int := min 20000 (Config.slewPpb rem)
  let ppb : Int := if rem = 0 then 0 else if rem < 0 then -mag else mag
  let s := s.setReg Reg.PTB_SLEW (ofInt 32 ppb)
  { s with time := { s.time with slewing := decide (100 < rem.natAbs) } }

/-- The module corrects its clock by an offset source less module (R32). -/
def State.discipline (s : State) (off : Int) : State :=
  let s := s.setReg Reg.PTB_OFFSET (ofInt 32 off)
  if !s.disciplineEn then s else
  if !s.patternRunning then s.setReg Reg.PTB_STEP (ofInt 64 off)
  else if 0 ≤ off then
    (s.setReg Reg.PTB_STEP (off.toNat / 1000000 * 1000000)).slewBy (off % 1000000)
  else
    let s := s.slewBy off
    if off < -10000000 then
      if s.time.fault then s
      else ({ s with time := { s.time with fault := true } }).post 1 sevWarn 0x0011 0 0 (satI32 off) 0 0
    else { s with time := { s.time with fault := false } }

/-- PTP as a cross-check (R28): the run of consecutive plan frames in which PTP and Chain disagree by more than 1 µs. -/
def State.crossCheck (s : State) : State :=
  let d := s.regS Reg.TIM_PTP_OFFSET - s.regS Reg.TIM_CHAIN_OFFSET
  let f := s.now / 1000000
  if d.natAbs ≤ 1000 then { s with time := { s.time with disagreeRun := 0, disagree := false } }
  else if f = s.time.disagreeFrame then s
  else
    let n := if f = s.time.disagreeFrame + 1 then s.time.disagreeRun + 1 else 1
    { s with time := { s.time with disagreeRun := n, disagreeFrame := f } }

/-- PTP is on: TIM_CTL.PTP_EN and MGP_CTL.PTP_EN. -/
def State.ptpOn (s : State) : Bool := s.bit Reg.TIM_CTL 1 && s.bit Reg.MGP_CTL 3 && !s.plugHeld 10

/-- A PTP message arrives (R29): one of another domain or timescale is not used. -/
def execPtpMessageRx (t : Nat) (m : PtpMsg) (s : State) : Host.Outcome State Fault Refusal :=
  run t s fun s =>
    if !s.baseUp || !s.ptpOn || !m.tai || m.domain.toNat ≠ s.fld Reg.TIM_PTP_CFG 0 7 then s else
    let s := match m.utcOffset with
      | some u => s.setReg Reg.TIM_UTC_OFFSET (ofInt 32 u)
      | none => s
    match m.offset with
    | none => s
    | some off =>
      let s := s.setReg Reg.TIM_PTP_OFFSET (satI32 off)
      match s.time.source with
      | .ptp => s.discipline off
      | .chain => s.crossCheck
      | .none => s

/-- PTP and Chain have disagreed for 10 consecutive plan frames: the event; the module keeps following Chain (R28). -/
def execTimeDisagree (t : Nat) (s : State) : Host.Outcome State Fault Refusal :=
  run t s fun s =>
    if s.time.source = .chain ∧ 10 ≤ s.time.disagreeRun then
      let d := s.regS Reg.TIM_PTP_OFFSET - s.regS Reg.TIM_CHAIN_OFFSET
      let s := { s with time := { s.time with disagreeRun := 0, disagree := true } }
      (s.inc Reg.TIM_DISAGREE_CNT).post 1 sevWarn 0x0010 0 0 (satI32 d) 0 0
    else s

/-- Code of a lost source in TIME_HOLDOVER's CAUSE (R471). -/
def sourceCode : TimeSource → Nat
  | .none => 0
  | .ptp => 1
  | .chain => 2

/-- The source is lost: holdover (R31). -/
def execTimeSourceLost (t : Nat) (s : State) : Host.Outcome State Fault Refusal :=
  run t s fun s =>
    if s.time.tstate = .lockedPtp ∨ s.time.tstate = .lockedChain ∨ s.time.tstate = .acquiring then
      let src := s.time.source
      let s := (s.stampReg Reg.TIM_HOLD_STAMP).setReg Reg.PTB_SLEW 0
      let s := { s with time := { s.time with
        tstate := .holdover, source := .none, holdSince := s.now, slewing := false, disagreeRun := 0 } }
      s.post 1 sevInfo 0x0012 5 (sourceCode src) 0 0 0
    else s

/-- UNC by the time spent in holdover (R31). -/
def holdUnc (elapsedNs : Nat) : Nat :=
  if 2000000000000 ≤ elapsedNs then 3 else if 2000000000 ≤ elapsedNs then 2 else if 40000000 ≤ elapsedNs then 1 else 0

/-- UNC grows with the time in holdover (R31). -/
def execHoldoverUncRaise (t : Nat) (s : State) : Host.Outcome State Fault Refusal :=
  run t s fun s =>
    if s.time.tstate = .holdover then
      let u := max s.time.unc.toNat (holdUnc (s.now - s.time.holdSince))
      { s with time := { s.time with unc := BitVec.ofNat 2 u } }
    else s

/-- A source is there again (or for the first time): ACQUIRING (R31). -/
def execTimeSourceReturn (t : Nat) (src : TimeSource) (s : State) : Host.Outcome State Fault Refusal :=
  run t s fun s =>
    if src = .none ∨ s.time.tstate = .lockedPtp ∨ s.time.tstate = .lockedChain then s
    else { s with time := { s.time with tstate := .acquiring, source := src } }

/-- The offset is below 20 ns while acquiring: the locked state of the source (R31). -/
def execTimeOffsetLock (t : Nat) (offset : Int) (s : State) : Host.Outcome State Fault Refusal :=
  run t s fun s =>
    if s.time.tstate = .acquiring ∧ offset.natAbs < 20 ∧ s.time.source ≠ .none then
      let s := (s.setReg Reg.PTB_OFFSET (ofInt 32 offset)).setReg Reg.PTB_SLEW 0
      let s := s.setReg (if s.time.source = .ptp then Reg.TIM_PTP_OFFSET else Reg.TIM_CHAIN_OFFSET) (ofInt 32 offset)
      let st := if s.time.source = .ptp then TState.lockedPtp else TState.lockedChain
      { s with time := { s.time with
        tstate := st, unc := 0#2, slewing := false, fault := false
        rtcValid := s.time.rtcValid || !s.pw.lxtFail, rtcBase := s.now } }
    else s

/-- The pending step as a signed number of ns. -/
def State.pendingStep (s : State) : Int := sext 64 (s.reg Reg.PTB_STEP)

/-- May the pending step be applied now (R32)? With a Pattern running only forward, by whole plan frames, at a plan-frame
boundary; otherwise whenever one is pending. -/
def stepMayApply (s : State) : Bool :=
  let d := s.pendingStep
  d ≠ 0 && (!s.patternRunning || (0 < d && d % 1000000 = 0 && s.now % 1000000 = 0)) && 0 ≤ (s.now : Int) + d

/-- The counter steps: the pending step is cleared and counted, and every grid goes on from the new instant. -/
def State.applyStep (s : State) : State :=
  let n := ((s.now : Int) + s.pendingStep).toNat
  let s := (s.setReg Reg.PTB_STEP 0).inc Reg.TIM_STEP_CNT
  { s with now := n, grid := ⟨n, n, n, n, n, n⟩ }

/-- What a write of PTB_STEP must satisfy (R193, R447): TIM does not discipline, and no step back while a Pattern runs. -/
def ptbStepOk (s : State) (v : Nat) : Bool := !s.disciplineEn && !(s.patternRunning && sext 64 v < 0)

/-- A write of PTB_STEP (R193). -/
def execPtbStepWrite (t : Nat) (w : Writer) (v : DWord) (s : State) : Host.Outcome State Fault Refusal :=
  run t s fun s => s.ownWrite64 w Reg.PTB_STEP v.toNat ptbStepOk (fun s _ => s)

/-- PTB_SLEW is clamped to plus or minus 20,000 ppb (R193). -/
def ptbSlewEff (s : State) (v : Nat) : State := s.setReg Reg.PTB_SLEW (ofInt 32 (clampInt (-20000) 20000 (sext 32 v)))

/-- A write of PTB_SLEW (R193, R447). -/
def execPtbSlewWrite (t : Nat) (w : Writer) (v : Word) (s : State) : Host.Outcome State Fault Refusal :=
  run t s fun s => s.ownWrite w Reg.PTB_SLEW v.toNat (fun s _ => !s.disciplineEn) ptbSlewEff

end Sys2Proof.Machine
end

