-- ==== Sys2Proof/Machine/Seq.lean ====
section
/-!
DEFINITION. The bundle sequencer (R45, R46, R54 to R56, R61 to R79): bodies, the loader's start and end, swaps, variant
selection and switches.
-/
namespace Sys2Proof.Machine

/-- The sequencer's page. -/
def seqPg : Nat := 0x10

/-! ## Banks -/

/-- The active bank's number (SEQ_STS.ACT_BANK). -/
def State.actNo (s : State) : Nat := s.fld Reg.SEQ_STS 0 1

/-- The active bank. -/
def State.actBank (s : State) : BankSt := if s.actNo = 0 then s.seq.bank0 else s.seq.bank1

/-- The inactive bank. -/
def State.inactBank (s : State) : BankSt := if s.actNo = 0 then s.seq.bank1 else s.seq.bank0

/-- Replace the active bank. -/
def State.setActBank (s : State) (b : BankSt) : State :=
  if s.actNo = 0 then { s with seq := { s.seq with bank0 := b } } else { s with seq := { s.seq with bank1 := b } }

/-- INACT_CONTENT of a kind (R77). -/
def BankKind.code : BankKind → Nat
  | .empty => 0
  | .staged => 1
  | .previous => 1
  | .warm => 2
  | .loading => 3
  | .active => 0

/-- Replace the inactive bank, with INACT_CONTENT and WARM_STAGED (R77). -/
def State.setInact (s : State) (b : BankSt) : State :=
  let s := if s.actNo = 0 then { s with seq := { s.seq with bank1 := b } } else { s with seq := { s.seq with bank0 := b } }
  let s := s.setFld Reg.SEQ_STS 1 2 b.kind.code
  if b.kind = .warm then s.setFld Reg.SEQ_STS 16 8 b.variant else s

/-- An empty bank. -/
def emptyBank : BankSt := ⟨.empty, none, 0, 0, []⟩

/-- The running Pattern, if the active bank holds one. -/
def State.runningPat (s : State) : Option PatDesc := if s.actBank.kind = .active then s.actBank.pat else none

/-- The variant row that runs. -/
def State.runningRow (s : State) : Option VariantRow :=
  match s.runningPat with
  | some p => p.variants.find? (·.code = s.actBank.variant)
  | none => none

/-- FRAME_CYC of the running variant (R54). -/
def State.frameCyc (s : State) : Nat := if s.actBank.variant = 0x30 then 10000 else 12500

/-- SUPER_N of the running Pattern. -/
def State.superN (s : State) : Nat :=
  match s.runningPat with
  | some p => max p.superN 1
  | none => 1

/-- The variant-table copies on page 0x012 (R76): 22 entries of four words for each bank. -/
def State.copyVariants (s : State) (bank : Nat) (vs : List VariantRow) : State :=
  (List.range 22).foldl (fun s i =>
    let v := vs.getD i ⟨0, 0, 0, 0, false, false⟩
    let w0 := v.code + 0x100 * v.stackN + 0x10000 * v.frameCyc
    let w1 := v.arrays + 0x10000 * b2n v.air + 0x1000000 * b2n v.steer
    let a := bank * 88 + 4 * i
    (((s.setReg (Reg.SEQ_VARIANTS a) w0).setReg (Reg.SEQ_VARIANTS (a + 1)) w1).setReg (Reg.SEQ_VARIANTS (a + 2))
      0).setReg (Reg.SEQ_VARIANTS (a + 3)) 0) s

/-! ## Variant selection (R67) -/

/-- A stack untouched: not failed and with no failed array. -/
def untouched (failed d : Nat) : Bool := !bitOf failed (16 + d) && fieldOf failed (4 * d) 4 = 0

/-- The lowest untouched stack of `n`. -/
def lowestUntouched (n failed : Nat) : Option Nat := (List.range n).find? (untouched failed)

/-- Failures in the stacks a Pattern uses. -/
def failedIn (n failed : Nat) : Nat := failed % 2 ^ (4 * n) + (failed / 2 ^ 16 % 2 ^ n) * 2 ^ 16

/-- Stacks touched by a failure. -/
def touchedStacks (n failed : Nat) : List Nat := (List.range n).filter (fun d => !untouched failed d)

/-- Failed arrays. -/
def failedArrays (n failed : Nat) : List Nat := (List.range (4 * n)).filter (bitOf failed)

/-- The variant of R67 for `n` stacks in use, and the stack the AIR variant is steered to; none: FAULT. -/
def selectVariant (n failed : Nat) (air : Bool) : Option (Nat × Nat) :=
  let f := failedIn n failed
  match air, lowestUntouched n f with
  | true, some d => some (0x30, d)
  | true, none => none
  | false, low =>
    if f = 0 then some (0, 0) else
    match failedArrays n f, touchedStacks n f, low with
    | [k], ts, low =>
      if !bitOf f (16 + k / 4) then some (0x10 + k, 0)
      else (match ts, low with
        | [d], _ => some (0x20 + d, 0)
        | _, some d => some (0x30, d)
        | _, none => none)
    | _, [d], _ => some (0x20 + d, 0)
    | _, _, some d => some (0x30, d)
    | _, _, none => none

/-- Stacks a Pattern uses: four for a TARGET F Pattern, two for TARGET B (R4, R58). -/
def stacksOf (p : Option PatDesc) : Nat :=
  match p with
  | some q => if q.targetF then 4 else 2
  | none => 4

/-- The selection of R67 for a Pattern in the present state. -/
def State.selectFor (s : State) (p : Option PatDesc) : Option (Nat × Nat) :=
  selectVariant (stacksOf p) (s.reg Reg.SEQ_FAILED) s.pw.air

/-! ## Events and flags -/

/-- Flag bits of the frame status word (R56). -/
def flLate : Nat := 1
def flOverrun : Nat := 2
def flSkip : Nat := 4
def flHold : Nat := 8
def flFirst : Nat := 16
def flHandoff : Nat := 32
def flFail : Nat := 64

/-- Mark a flag for the next body. -/
def State.nextFlag (s : State) (f : Nat) : State :=
  { s with seq := { s.seq with nextFlags := s.seq.nextFlags ||| f } }

/-- VARIANT_SWITCH (R471). -/
def State.postSwitch (s : State) (new cause old : Nat) : State :=
  s.post seqPg sevInfo 0x0021 new cause old (s.reg Reg.SEQ_FAILED) 0

/-- The loader fills the engines' descriptor memory from the SHM_IMAGE that it has written (R115). -/
def State.loadDescriptors (s : State) (f : Src) (v : Nat) : State :=
  let dir := dirOf f (readHdr f)
  let secs := dir.filter (fun d => d.type = 3 && d.load && d.serves v)
  let mem := secs.foldl (fun m d => (List.range d.len).foldl (fun m i =>
    let a := d.dest + i
    if 0x100000 ≤ a ∧ a < 0x180000 then sparseSet memDefault m (a - 0x100000) (BitVec.ofNat 8 (f (d.off + i))) else m) m) []
  let count (e : Nat) : Nat := ((List.range 256).filter (fun i =>
    secs.any (fun d => d.dest ≤ 0x100000 + descOff e i && 0x100000 + descOff e i + 64 ≤ d.dest + d.len))).length
  let s := { s with eng := { s.eng with descMem := mem } }
  (List.range 15).foldl (fun s e => s.setReg (engReg e 0x118) (count e)) s

/-- The declared profile of the running variant (R450). -/
def State.showProfile (s : State) : State :=
  match s.runningPat with
  | some p =>
    match p.profile.find? (fun x => x.1 = s.actBank.variant) with
    | some (_, pk, mn) => (s.setReg Reg.PWR_PROFILE_PEAK pk).setReg Reg.PWR_PROFILE_MEAN mn
    | none => s
  | none => s

/-- SEQ_STS of the running variant: ACT_VARIANT and AIR (R77). -/
def State.showVariant (s : State) (v : Nat) : State :=
  ((s.setFld Reg.SEQ_STS 8 8 v).setBit Reg.SEQ_STS 4 (v = 0x30)).showProfile

/-! ## Bodies (R54 to R56, R74) -/

/-- The frame status word (R56). -/
def State.writeStatusWord (s : State) (f late skipped flags : Nat) : State :=
  let b := leBytes 8 f ++ leBytes 8 (f * 10000) ++ leBytes 2 (f % s.superN) ++ leBytes 1 s.actBank.variant ++
    leBytes 1 flags ++ leBytes 4 late ++ leBytes 4 skipped ++ leBytes 4 s.seq.stretchPrev ++
    leBytes 2 (s.reg Reg.SEQ_FAILED) ++ leBytes 1 (s.fld Reg.SEQ_FAILED 16 4) ++ leBytes 1 (b2n s.pw.air) ++ leBytes 28 0
  (s.setBytes 0 b).unpoison 0 64

/-- Frames missed between the last body and frame `f`. -/
def State.skippedTo (s : State) (f : Nat) : Nat :=
  match s.seq.lastFrame with
  | some l => f - l - 1
  | none => 0

/-- The body of frame `f` starts, `late` cycles after its boundary (R55, R56, R74). -/
def State.startBody (s : State) (f late : Nat) : State :=
  let ovr := 0 < s.seq.body.missed
  let skipped := s.skippedTo f
  let skip := ovr && 0 < skipped
  let prev := s.seq.body
  let flags := s.seq.nextFlags ||| (if 0 < late then flLate else 0) ||| (if ovr then flOverrun else 0) |||
    (if skip then flSkip else 0)
  let s := if ovr then s.post seqPg sevWarn 0x0020 0 0 (prev.frame % 2 ^ 32) (if 0 < skipped then 0 else late) skipped else s
  let s := if skip then s.addCnt Reg.SEQ_SKIP_CNT skipped else s
  let s := { s with seq := { s.seq with stretchPrev := prev.stretch } }
  let s := s.writeStatusWord f late skipped flags
  let s := (s.setReg Reg.SEQ_FRAME f).setFld Reg.SEQ_STS 24 8 (f % s.superN)
  let s := s.setReg Reg.SEQ_LATE_MAX (max (s.reg Reg.SEQ_LATE_MAX) late)
  { s with seq := { s.seq with
      body := ⟨true, f, late, 0, none, 0⟩, lastFrame := some f, nextFlags := 0,
      withheld := s.seq.withheld && s.seq.sw != .none } }

/-- The bank made active by a swap or switch. -/
def State.activate (s : State) (b : BankSt) (oldKind : BankKind) : State :=
  let old := s.actBank
  let n := s.actNo
  let s := s.setFld Reg.SEQ_STS 0 1 (1 - n)
  let s := s.setActBank { b with kind := .active }
  let old' := if old.kind = .active ∧ oldKind = .previous then { old with kind := .previous } else emptyBank
  (s.setInact old').showVariant b.variant

/-- A variant switch takes effect (R68, R70, R72): the variant's bank becomes active and the old bank is free for the warm
variant (R69); its images are in place and its descriptors loaded. -/
def State.takeVariant (s : State) (v steer cause : Nat) : State :=
  let old := s.actBank.variant
  let keep := match s.runningPat with
    | some p => inPersistent p.regions
    | none => fun _ => false
  let f := listSrc s.seq.store
  let b : BankSt := ⟨.active, s.actBank.pat, v, steer, streamOf f v⟩
  let s := (s.writeImages f v steer keep).loadDescriptors f v
  let s := { s with seq := { s.seq with sw := .none, swReadyAt := none, withheld := false } }
  (s.activate b .empty).postSwitch v cause old

/-- A Pattern swap takes effect for the staged or previous bank `b` (R66): its images are written, except persistent
regions it keeps, it becomes active, the old Pattern stays in the other bank, and the Pattern store holds its container. -/
def State.takePattern (s : State) (b : BankSt) : State :=
  let f := if b.kind = .staged then memSrc s (s.reg Reg.SEQ_LOAD_ADDR) else listSrc s.seq.storePrev
  let body := if b.kind = .staged then srcBytes f 0 (readHdr f).total else s.seq.storePrev
  let keep : Nat → Bool := match s.runningPat, b.pat with
    | some p, some q => if q.hot && p.layout == q.layout then inPersistent q.regions else fun _ => false
    | _, _ => fun _ => false
  let sel := (s.selectFor b.pat).getD (b.variant, b.steer)
  let b := if sel = (b.variant, b.steer) then b else { b with variant := sel.1, steer := sel.2, stream := streamOf f sel.1 }
  let s := (s.writeImages f b.variant b.steer keep).loadDescriptors f b.variant
  let s := { s with seq := { s.seq with store := body, storePrev := s.seq.store, swapDue := none, coldHold := false } }
  let s := s.activate b .previous
  ((s.setBit Reg.SEQ_STS 3 false).setBit Reg.SEQ_SWAP 3 true).nextFlag flFirst

/-- R71: a fault-driven or cooling-driven switch cancels a pending swap. -/
def State.cancelSwap (s : State) : State :=
  if s.seq.swapDue.isSome then
    let s := (s.setBit Reg.SEQ_STS 3 false).setBit Reg.SEQ_SWAP 2 true
    { s with seq := { s.seq with swapDue := none } }
  else s

/-- The sequencer enters HOLD (R66, R68). -/
def State.enterHold (s : State) : State := s.setBlk seqPg stHold 0

/-- No stack is left: FAULT (R67 order 6). -/
def State.seqFault (s : State) (cause : Nat) : State :=
  let s := { s with seq := { s.seq with sw := .none, swReadyAt := none, body := { s.seq.body with active := false } } }
  s.cancelSwap.setBlk seqPg stFault cause

/-- Does the inactive bank hold the warm variant asked for? -/
def State.isWarm (s : State) (v : Nat) : Bool := s.inactBank.kind = .warm && s.inactBank.variant = v

/-- After a failure: select again, and switch by the warm path or by a copy in HOLD (R67, R68, R71). -/
def State.faultSwitch (s : State) : State :=
  let st := s.blk seqPg
  let s := { s with seq := { s.seq with withheld := true } }
  if s.runningPat.isNone ∨ st = stOff ∨ st = stFault then s else
  if s.seq.coldHold then s.nextFlag flFail else
  match s.selectFor s.runningPat with
  | none => s.seqFault 0x01
  | some (v, d) =>
    let same := s.actBank.variant = v ∧ (v = 0x30 → s.actBank.steer = d)
    let s := if same ∧ s.seq.sw = .none then s else
      let s := s.cancelSwap
      let s := if s.seq.sw = .copy ∧ s.seq.swVariant = v ∧ s.seq.swSteer = d then s else
        if s.isWarm v then { s with seq := { s.seq with sw := .warm, swVariant := v, swSteer := d, swReadyAt := none } }
        else
          let s := s.setInact { emptyBank with kind := .loading, variant := v, steer := d }
          let s := { s with seq := { s.seq with sw := .copy, swVariant := v, swSteer := d, swReadyAt := none } }
          if st = stRunning ∧ !s.seq.body.active then s.enterHold else s
      s
    s

/-- A change of cooling mode, or the return of a unit: load the selected variant without HOLD (R70, R72). -/
def State.softSwitch (s : State) (cause : Nat) : State :=
  let st := s.blk seqPg
  if s.runningPat.isNone ∨ st = stOff ∨ st = stFault then s else
  match s.selectFor s.runningPat with
  | none => s.seqFault 0x01
  | some (v, d) =>
    if s.actBank.variant = v ∧ (v = 0x30 → s.actBank.steer = d) then
      (match s.seq.sw with
        | .noHold _ => { s with seq := { s.seq with sw := .none, swReadyAt := none } }
        | _ => s)
    else
      let s := s.cancelSwap
      match s.seq.sw with
      | .copy => { s with seq := { s.seq with swVariant := v, swSteer := d, swReadyAt := none } }
      | _ =>
        let warm := s.isWarm v
        let s := if warm then s else s.setInact { emptyBank with kind := .loading, variant := v, steer := d }
        { s with seq := { s.seq with
            sw := .noHold cause, swVariant := v, swSteer := d, swReadyAt := if warm then some s.now else none } }

/-- Does the selection of a failure in a running state fail a unit's slots: the array or its stack is failed (R68, R98)? -/
def State.arrayFailed (s : State) (k : Nat) : Bool := s.bit Reg.SEQ_FAILED k || s.bit Reg.SEQ_FAILED (16 + k / 4)

/-- Is a stack failed? -/
def State.stackFailed (s : State) (d : Nat) : Bool := s.bit Reg.SEQ_FAILED (16 + d)

/-- A MAC array reports a residue mismatch (R98). -/
def State.failArray (s : State) (k : Nat) : State :=
  let s := ((s.setBit (Reg.MAC_STS k) 0 true).inc (Reg.MAC_RES_CNT k)).stampReg (Reg.MAC_FAIL_STAMP k)
  (s.setBit Reg.SEQ_FAILED k true).faultSwitch

/-- A stack fails (R99). -/
def State.failStack (s : State) (d : Nat) : State :=
  ((s.setBit (Reg.VEC_STS d) 0 true).setBit Reg.SEQ_FAILED (16 + d) true).faultSwitch

/-- Take the switch or swap that is due at a body start (R66, R68, R70, R75). -/
def State.takeDue (s : State) : State :=
  let ready := match s.seq.swReadyAt with
    | some r => decide (r ≤ s.now)
    | none => false
  let s := match s.seq.sw with
    | .warm => if s.isWarm s.seq.swVariant then (s.takeVariant s.seq.swVariant s.seq.swSteer 1).nextFlag flFail else s
    | .copy => if ready ∧ s.blk seqPg = stHold then
        let s := ((s.takeVariant s.seq.swVariant s.seq.swSteer 1).nextFlag flHold).setBlk seqPg stRunning 0
        s.nextFlag flFail
      else s
    | .noHold c => if ready then s.takeVariant s.seq.swVariant s.seq.swSteer c else s
    | .none => s
  match s.seq.swapDue with
  | some d =>
    if d ≤ s.now ∧ s.seq.sw = .none then
      let b := s.inactBank
      let hot := match b.pat with
        | some p => p.hot
        | none => false
      if s.blk seqPg ≠ stRunning then s.takePattern b
      else if hot then s.takePattern b
      else { (s.enterHold) with seq := { s.enterHold.seq with coldHold := true, swapDue := none } }
    else s
  | none => s

/-- The sequencer at a plan-frame boundary: a start after OFF (R79). A start whose selection is empty is a FAULT. -/
def State.planStart (s : State) : State :=
  let st := s.blk seqPg
  let due := st = stStarting || (st = stOff && s.bit (Reg.BLK_STS seqPg) 4)
  if due ∧ s.actBank.pat.isSome ∧ s.bit (Reg.BLK_CTL seqPg) 0 then
    match s.selectFor s.actBank.pat with
    | none => s.seqFault 0x01
    | some (v, d) =>
      let s := s.setActBank { s.actBank with kind := .active, variant := v, steer := d }
      let s := (s.setBit (Reg.BLK_STS seqPg) 4 false).showVariant v
      let s := if st = stOff then s.setBlk seqPg stStarting 0 else s
      (s.setBlk seqPg stRunning 0).nextFlag flFirst
  else s

/-- Leave QUIESCED once QUIESCE is cleared (R79). -/
def State.unquiesce (s : State) : State :=
  if s.blk seqPg = stQuiesced ∧ !s.bit (Reg.BLK_CTL seqPg) 1 then s.setBlk seqPg stRunning 0 else s

/-- A QUIESCE held until RUNNING takes effect where no body runs (R437). -/
def State.heldQuiesce (s : State) : State :=
  if s.blk seqPg = stRunning ∧ s.bit (Reg.BLK_CTL seqPg) 1 ∧ !s.seq.body.active then
    (s.setBit (Reg.BLK_STS seqPg) 5 false).setBlk seqPg stQuiesced 0
  else s

/-- The sequencer at a control-frame boundary: an overrun is counted, what is due takes effect, and the next body starts
(R55, R74, R75). -/
def State.seqBoundary (s : State) : State :=
  let f := s.now / 10000
  if s.seq.lastFrame = some f then s
  else if s.seq.body.active then
    let s := if s.seq.body.missed = 0 then s.inc Reg.SEQ_OVERRUN_CNT else s
    { s with seq := { s.seq with body := { s.seq.body with missed := s.seq.body.missed + 1 } } }
  else
    let s := s.takeDue
    let s := if s.now % 1000000 = 0 then s.planStart else s
    let s := s.unquiesce.heldQuiesce
    if s.blk seqPg = stRunning ∧ s.runningPat.isSome then s.startBody f 0 else s

/-! ## Stitch header rows (R45, R46) -/

/-- A Stitch with FRAME_END issues: the body ends (R45, R74), and what waited for its end happens (R68, R79). -/
def execStitchFrameEnd (t i : Nat) (s : State) : Host.Outcome State Fault Refusal :=
  run t s fun s =>
    if !s.seq.body.active then s else
    let e := s.seq.body.late + i + s.seq.body.stretch
    let s := { s with seq := { s.seq with body := { s.seq.body with active := false, ended := some e } } }
    let st := s.blk seqPg
    if st = stStopping then s.setBlk seqPg stOff 0
    else if st = stRunning ∧ s.seq.sw = .copy then s.enterHold
    else if st = stRunning ∧ s.bit (Reg.BLK_CTL seqPg) 1 then
      (s.setBit (Reg.BLK_STS seqPg) 5 false).setBlk seqPg stQuiesced 0
    else s

/-- A Stitch with TRACE writes its index and TAG to the trace ring (R45). -/
def execStitchTrace (t i : Nat) (tag : Byte) (s : State) : Host.Outcome State Fault Refusal :=
  run t s fun s => { s with seq := { s.seq with trace := lastN 1024 (s.seq.trace ++ [(i, tag)]) } }

/-- HDR.AWAKE runs or gates the clocks of the stacks (R46). -/
def execStitchAwake (t : Nat) (mask : BitVec 4) (s : State) : Host.Outcome State Fault Refusal :=
  run t s fun s => { s with seq := { s.seq with awake := mask } }

/-- The catch-up body (R74): it starts 9 cycles after FRAME_END; after two boundaries the body waits for the next one. -/
def State.catchUp (s : State) : State :=
  let b := s.seq.body
  match b.ended with
  | some e =>
    if !b.active && b.missed = 1 && s.blk seqPg = stRunning && s.seq.lastFrame = some b.frame &&
        s.now < (b.frame + 2) * 10000 then
      let cyc := s.frameCyc
      let s := s.takeDue
      if s.blk seqPg = stRunning then s.startBody (b.frame + 1) (e + 9 - cyc) else s
    else s
  | none => s

/-- A droop event stretches LCLK for at most 256 cycles (R73, R450). -/
def execClockStretch (t cycles : Nat) (s : State) : Host.Outcome State Fault Refusal :=
  run t s fun s =>
    let n := min cycles 256
    let s := (s.addCnt Reg.SEQ_STRETCH_CNT n).inc Reg.PWR_DROOP_CNT
    if s.seq.body.active then
      { s with seq := { s.seq with body := { s.seq.body with stretch := s.seq.body.stretch + n } } }
    else s

/-! ## Loading (R61 to R65, R71) -/

/-- SEQ_LOAD_STS of a rejection (R64, R76). -/
def State.loadReject (s : State) (reason detail : Nat) : State :=
  s.setReg Reg.SEQ_LOAD_STS (3 + 0x100 * reason + 0x10000 * (detail % 65536))

/-- Is a load or swap request turned away as BUSY (R71)? -/
def State.seqBusy (s : State) : Bool := s.blk seqPg = stHold || s.inactBank.kind == .loading

/-- The loader starts, or answers BUSY (R61, R71). -/
def State.loadStart (s : State) (checkOnly : Bool) (sig : SigVerdict) : State :=
  if s.seqBusy ∨ s.seq.loadBusy then s.loadReject 0x14 0
  else
    let s := s.setReg Reg.SEQ_LOAD_STS 1
    { s with seq := { s.seq with loadBusy := true, loadCheckOnly := checkOnly, loadSig := sig } }

/-- A write of SEQ_LOAD with GO (R76). -/
def execSeqLoadGo (t : Nat) (w : Writer) (sig : SigVerdict) (s : State) : Host.Outcome State Fault Refusal :=
  run t s fun s => s.ownWrite w Reg.SEQ_LOAD 1 anyValue (fun s _ => s.loadStart false sig)

/-- A write of SEQ_LOAD with GO and CHECK_ONLY (R76). -/
def execSeqLoadCheckOnly (t : Nat) (w : Writer) (sig : SigVerdict) (s : State) : Host.Outcome State Fault Refusal :=
  run t s fun s => s.ownWrite w Reg.SEQ_LOAD 3 anyValue (fun s _ => s.loadStart true sig)

/-- The anti-rollback counter of a signer class advances on a load (R367). -/
def State.bumpPatternCounter (s : State) (cls rb : Nat) : State :=
  s.setFld Reg.LKT_CNT_PATTERN (8 * cls) 8 (max (s.fld Reg.LKT_CNT_PATTERN (8 * cls) 8) rb)

/-- A container that passed is written into the inactive bank in the variant of R67 (R65, R69). -/
def State.stageBank (s : State) (f : Src) : State :=
  let p := describePattern f
  let sel := (s.selectFor (some p)).getD (0, 0)
  let s := s.setInact ⟨.staged, some p, sel.1, sel.2, streamOf f sel.1⟩
  let s := s.copyVariants (1 - s.actNo) p.variants
  s.bumpPatternCounter p.cls p.rollback.toNat

/-- The regions of the running Pattern. -/
def State.runningRegions (s : State) : List (Nat × Nat × Bool) :=
  match s.runningPat with
  | some p => p.regions
  | none => []

/-- The loader finishes (R61, R64, R65). -/
def State.loaderDone (s : State) : State :=
  if !s.seq.loadBusy then s else
  let f := memSrc s (s.reg Reg.SEQ_LOAD_ADDR)
  let s := { s with seq := { s.seq with loadBusy := false } }
  match checkContainer s f (s.reg Reg.SEQ_LOAD_LEN) s.seq.loadSig s.runningRegions with
  | .error (r, d) => s.loadReject r d
  | .ok _ =>
    if s.seq.loadCheckOnly then s.setReg Reg.SEQ_LOAD_STS 2
    else if s.seqBusy then s.loadReject 0x14 0
    else (s.setReg Reg.SEQ_LOAD_STS 2).stageBank f

/-- The loader finishes. -/
def execLoaderDone (t : Nat) (s : State) : Host.Outcome State Fault Refusal := run t s fun s => s.loaderDone

/-! ## Swaps (R66, R78) -/

/-- GO is accepted for the inactive bank with a staged or previous Pattern (R78). -/
def swapGoOk (bank : Bool) (s : State) : Bool :=
  b2n bank ≠ s.actNo && (s.inactBank.kind == .staged || s.inactBank.kind == .previous)

/-- A swap request: due at the first plan-frame boundary at least 20 microseconds later; BUSY in HOLD (R66, R71). -/
def State.swapRequest (s : State) : State :=
  if s.seqBusy then s.loadReject 0x14 0
  else
    let s := s.setBit Reg.SEQ_STS 3 true
    { s with seq := { s.seq with swapDue := some (alignUp 1000000 (s.now + 20000)) } }

/-- A write of SEQ_SWAP with GO (R66, R78). -/
def execSeqSwapGo (t : Nat) (w : Writer) (bank : Bool) (s : State) : Host.Outcome State Fault Refusal :=
  run t s fun s => s.ownWrite w Reg.SEQ_SWAP (b2n bank + 2) (fun s _ => swapGoOk bank s) (fun s _ => s.swapRequest)

/-- The swap due at this plan-frame boundary takes effect, or enters HOLD for a COLD Pattern (R66). -/
def execSwapTakeEffect (t : Nat) (s : State) : Host.Outcome State Fault Refusal :=
  run t s fun s => if s.seq.swapDue.isSome && !s.seq.body.active then s.takeDue else s

/-- The COLD swap's images are written: the new Pattern starts at this plan-frame boundary, slot 0 (R66). -/
def State.coldStart (s : State) : State :=
  if s.seq.coldHold && s.now % 1000000 = 0 && s.blk seqPg = stHold then
    let s := ((s.takePattern s.inactBank).nextFlag flHold).setBlk seqPg stRunning 0
    s.startBody (s.now / 10000) 0
  else s

/-- Give up the previous Pattern (R66, R78): no effect where the inactive bank holds none. -/
def State.releaseBank (s : State) : State :=
  if s.inactBank.kind = .previous then s.cancelSwap.setInact emptyBank else s

/-- A write of SEQ_SWAP with RELEASE, BANK as it stands (R78). -/
def execSeqSwapRelease (t : Nat) (w : Writer) (s : State) : Host.Outcome State Fault Refusal :=
  run t s fun s =>
    s.ownWrite w Reg.SEQ_SWAP (0x10 + s.fld Reg.SEQ_SWAP 0 1) anyValue (fun s _ => s.releaseBank)

/-! ## The warm variant (R69) -/

/-- A warm bank of another code is emptied, so that the named variant is staged (log 23). -/
def State.warmChanged (s : State) : State :=
  if s.inactBank.kind = .warm ∧ s.inactBank.variant ≠ s.fld Reg.SEQ_WARM 0 8 ∧ s.seq.sw = .none then s.setInact emptyBank
  else s

/-- A write of SEQ_WARM (R69, R76). -/
def execSeqWarmWrite (t : Nat) (w : Writer) (v : Word) (s : State) : Host.Outcome State Fault Refusal :=
  run t s fun s => s.ownWrite w Reg.SEQ_WARM v.toNat anyValue (fun s _ => s.warmChanged)

/-- The loader finishes staging the warm variant in an empty inactive bank (R69). -/
def execWarmStageDone (t : Nat) (s : State) : Host.Outcome State Fault Refusal :=
  run t s fun s =>
    let v := s.fld Reg.SEQ_WARM 0 8
    match s.runningPat with
    | some p =>
      if s.inactBank.kind = .empty ∧ s.seq.sw = .none ∧ p.variants.any (·.code = v) then
        s.setInact ⟨.warm, some p, v, 0, streamOf (listSrc s.seq.store) v⟩
      else s
    | none => s

/-! ## Failures and switches (R68 to R72) -/

/-- An array that is present and not yet failed reports a mismatch. -/
def execResidueMismatch (t : Nat) (k : Fin 16) (s : State) : Host.Outcome State Fault Refusal :=
  run t s fun s => if pagePresent s.fx (0x20 + k) && !s.bit Reg.SEQ_FAILED k then s.failArray k else s

/-- A vector residue mismatch or an uncorrectable tile SRAM error fails the stack (R99). -/
def execVecFault (t : Nat) (d : Fin 4) (ecc : Bool) (s : State) : Host.Outcome State Fault Refusal :=
  run t s fun s =>
    if !pagePresent s.fx (0x30 + d) || s.stackFailed d then s else
    (s.inc (if ecc then Reg.VEC_ECC_UE d else Reg.VEC_RES_CNT d)).failStack d

/-- The warm variant takes over at this control-frame boundary (R68 step 2); its first body carries AFTER_FAIL. -/
def execWarmVariantSwitch (t : Nat) (s : State) : Host.Outcome State Fault Refusal :=
  run t s fun s => if s.seq.sw = .warm && !s.seq.body.active then s.takeDue else s

/-- Nanoseconds of LCLK cycles at the running variant's clock: 0.8 ns each, 1 ns in the AIR variant (R54). -/
def State.cycNs (s : State) (c : Nat) : Nat := if s.actBank.variant = 0x30 then c else (4 * c + 4) / 5

/-- The loader has copied the variant and its hashes hold: the stacks are woken, and the start is due 256 cycles later; a
copy that fails its hash is taken again from the Pattern store (R68). -/
def execVariantCopyDone (t : Nat) (hashOk : Bool) (s : State) : Host.Outcome State Fault Refusal :=
  run t s fun s =>
    if !hashOk then s else
    match s.seq.sw with
    | .copy => if s.blk seqPg = stHold then
        { s with seq := { s.seq with swReadyAt := some (s.now + s.cycNs 256), awake := 0xF } } else s
    | .noHold _ => { s with seq := { s.seq with swReadyAt := some s.now } }
    | _ => s

/-- The copied variant starts at this control-frame boundary (R68 step 3). -/
def State.variantRestart (s : State) : State :=
  if s.seq.sw = .copy ∧ s.now % 10000 = 0 ∧ s.blk seqPg = stHold then
    let s := s.takeDue
    if s.blk seqPg = stRunning then s.startBody (s.now / 10000) 0 else s
  else s

/-- Units returned by a SEQ_FAILED write: their failed marks clear, and the variant is selected again (R72, R105). -/
def State.returnUnits (s : State) (v : Nat) : State :=
  let s := s.forAll (List.range 16) (fun s k => if bitOf v k then s.setBit (Reg.MAC_STS k) 0 false else s)
  let s := s.forAll (List.range 4) (fun s d => if bitOf v (16 + d) then s.setBit (Reg.VEC_STS d) 0 false else s)
  s.softSwitch 3

/-- A write of SEQ_FAILED (R72, R76). -/
def execSeqFailedWrite (t : Nat) (w : Writer) (v : Word) (s : State) : Host.Outcome State Fault Refusal :=
  run t s fun s => s.ownWrite w Reg.SEQ_FAILED v.toNat anyValue (fun s v => s.returnUnits v)

/-- The variant loaded without HOLD takes over at this control-frame boundary (R70, R72). -/
def execCoolingVariantSwitch (t : Nat) (s : State) : Host.Outcome State Fault Refusal :=
  run t s fun s =>
    match s.seq.sw with
    | .noHold _ => if s.now % 10000 = 0 && !s.seq.body.active then s.takeDue else s
    | _ => s

/-- A restart that was awaiting OFF starts at this plan-frame boundary (R79). -/
def State.rearmRestart (s : State) : State :=
  if s.now % 1000000 = 0 ∧ s.blk seqPg = stOff ∧ s.bit (Reg.BLK_STS seqPg) 4 then
    let s := s.planStart
    if s.blk seqPg = stRunning then s.startBody (s.now / 10000) 0 else s
  else s

/-- An uncorrectable error of the Stitch store: FAULT (R79). -/
def execStitchStoreEccError (t : Nat) (s : State) : Host.Outcome State Fault Refusal :=
  run t s fun s => if s.blk seqPg = stOff then s else s.seqFault 0x02

end Sys2Proof.Machine
end

