-- ==== Sys2Proof/Machine/Mac.lean ====
section
/-!
DEFINITION. The MAC arrays (R81 to R93, R97, R98, R102): loading weight rows, streaming vectors into accumulator entries
with ball arithmetic, and draining them.
-/
namespace Sys2Proof.Machine

/-! ## Reading operands (R85, R86) -/

/-- Base address of the tile SRAM window of die `d` (R427). -/
def tileBase (d : Nat) : Nat := 0x4100000000 + d * 0x10000000

/-- Byte address of granule `g` of array `k`'s quadrant (R81, R82): an array addresses only its own quadrant. -/
def quadAddr (k g : Nat) : Nat := tileBase (k / 4) + (k % 4) * 0x1000000 + (g % 2 ^ 18) * 64

/-- `n` packed codes of `w` bits from a byte address. -/
def State.packed (s : State) (a w n : Nat) : List Nat :=
  let v := s.le a ((n * w + 7) / 8)
  (List.range n).map (fun i => fieldOf v (i * w) w)

/-- The value of an element code of a MAC format, without its block scale (R86). -/
def elemVal (fmt code : Nat) : Fv :=
  match fmt with
  | 0 => e4m3.dec code
  | 1 => e5m2.dec code
  | 2 => Fv.ofInt (sext 8 code)
  | 3 => bf16.dec code
  | 4 => fp16.dec code
  | 5 => e4m3.dec code
  | 6 => e5m2.dec code
  | 7 => e3m2.dec code
  | 8 => e2m3.dec code
  | _ => e2m1.dec code

/-- The exact factor of two block scales, 2^(Xa + Xb - 254); a scale of 0xFF is NaN (R86, R87). -/
def scaleVal (xa xb : Nat) : Fv := if xa = 255 ∨ xb = 255 then .nan else Fv.pow2 ((xa : Int) + xb - 254)

/-- A radius operand: negative or NaN codes count as NaN (R91). -/
def radVal (code : Nat) : Fv :=
  match f16 code with
  | .fin neg m e => if neg && m ≠ 0 then .nan else .fin false m e
  | .inf neg => if neg then .nan else .inf false
  | .nan => .nan

/-! ## Weights (R89) -/

/-- N of R89: the roundings that can touch one product. -/
def ballN (fmt depth : Nat) : Nat :=
  if fmt = 2 then cdiv depth 128 else if fmtMx fmt then cdiv depth 32 + 1 else depth

/-- c_f(K) = RU(N 2^-24 / (1 - N 2^-24)) (R89). -/
def ballC (fmt depth : Nat) : Nat :=
  let x : Fv := .fin false (ballN fmt depth) (-24)
  ru16 (x.div ((Fv.ofNat 1).sub x))

/-- A stored radius: b'_rad = RU(b_rad + RU(c |b_mid|)) (R89). -/
def storedRad (c : Nat) (mid : Fv) (rad : Nat) : Nat :=
  ru16 ((radVal rad).add (f16 (ru16 ((f16 c).mul mid.abs))))

/-- Row `r` of a WLOAD read from the quadrant (R85): midpoints or elements, the scales of its 32-row block after the element
plane, then the radius plane. -/
def State.readRow (s : State) (k : Nat) (o : MacOp) (serial useAt r : Nat) : MacRow :=
  let nat := fmtGranules o.fmt o.cols
  let step := o.step nat
  let elems := s.packed (quadAddr k (o.addr + r * step)) (fmtBits o.fmt) o.cols
  let sPlane := o.addr + o.len * step
  let perCol := o.rows / 32
  let sc := if fmtMx o.fmt then (List.range o.cols).map (fun j =>
    (s.byte (quadAddr k sPlane + j * perCol + r / 32)).toNat) else []
  let rPlane := sPlane + (if fmtMx o.fmt then cdiv (o.cols * perCol) 64 else 0)
  let c := ballC o.fmt o.depth
  let rads := if o.ball then
      (List.range 64).map (fun j => storedRad c (elemVal o.fmt (elems.getD j 0))
        (s.le (quadAddr k (rPlane + 2 * r) + 2 * j) 2))
    else []
  ⟨elems, rads, sc, o.fmt, o.ball, serial, o.len, o.depth, useAt⟩

/-- Replace row `i` of a buffer, keeping the row it replaces (R81, R83). -/
def putRow (buf : List (Option MacRow × Option MacRow)) (i : Nat) (r : MacRow) : List (Option MacRow × Option MacRow) :=
  let buf := if buf.length ≤ i then buf ++ List.replicate (i + 1 - buf.length) (none, none) else buf
  buf.set i (some r, (buf.getD i (none, none)).1)

/-- The row a STREAM uses at a cycle: the new one once it is usable, else the one before (R83). -/
def rowAt (cyc : Nat) (x : Option MacRow × Option MacRow) : Option MacRow :=
  match x.1 with
  | some r => if r.usable ≤ cyc then some r else x.2
  | none => none

/-! ## One pass (R87, R90) -/

/-- An activation vector: element codes, block scales, radii (ball only). -/
structure ActVec where
  elems : List Nat
  scale : List Nat
  rad : List Nat
  deriving DecidableEq, Repr

/-- Activation vector `v` of a STREAM (R85). -/
def State.readVec (s : State) (k : Nat) (o : MacOp) (v : Nat) : ActVec :=
  let n := o.rows
  let nat := fmtGranules o.fmt n
  let step := o.step nat
  let sPlane := o.addr + o.len * step
  let blocks := n / 32
  let sc := if fmtMx o.fmt then (List.range blocks).map (fun b => (s.byte (quadAddr k sPlane + v * blocks + b)).toNat) else []
  let rPlane := sPlane + (if fmtMx o.fmt then cdiv (o.len * blocks) 64 else 0)
  ⟨s.packed (quadAddr k (o.addr + v * step)) (fmtBits o.fmt) n, sc,
   if o.ball then (List.range 128).map (fun i => s.le (quadAddr k (rPlane + 4 * v) + 2 * i) 2) else []⟩

/-- An FP32 addition into a partial sum, and whether it underflowed inexactly (R87, R91 UFL). -/
def accAdd (p : Nat) (x : Fv) : Nat × Bool :=
  let r := fp32.enc2 .rne ((f32 p).add x)
  (r.1, r.2 && (f32 r.1).abs.lt (Fv.pow2 (-126)))

/-- The terms of a column in ascending row order: row index, activation code, weight code, block scales. -/
structure Term where
  row : Nat
  a : Nat
  b : Nat
  xa : Nat
  xb : Nat
  ar : Nat
  br : Nat
  deriving DecidableEq, Repr

/-- Terms of the block of 32 rows numbered `blk`. -/
def blockTerms (l : List Term) (blk : Nat) : List Term := l.filter (fun t => t.row / 32 = blk)

/-- The blocks present, ascending. -/
def blocksOf (l : List Term) : List Nat := (List.range 8).filter (fun b => l.any (fun t => t.row / 32 = b))

/-- Exact sum of the products of terms. -/
def exactDot (fmt : Nat) (l : List Term) : Fv :=
  l.foldl (fun s t => s.add ((elemVal fmt t.a).mul (elemVal fmt t.b))) Fv.zero

/-- The scale of a block. -/
def blockScale (l : List Term) : Fv :=
  match l with
  | t :: _ => scaleVal t.xa t.xb
  | [] => Fv.ofNat 1

/-- A column's pass sum in FP32 with UFL (R87). -/
def passMid (fmt : Nat) (l : List Term) : Nat × Bool :=
  if fmt = 2 then
    let r := fp32.enc2 .rne (exactDot 2 l)
    (r.1, false)
  else if fmtMx fmt then
    (blocksOf l).foldl (fun p b =>
      let bl := blockTerms l b
      let e := fp32.enc2 .rne ((exactDot fmt bl).mul (blockScale bl))
      let u := e.2 && (f32 e.1).abs.lt (Fv.pow2 (-126))
      let q := accAdd p.1 (f32 e.1)
      (q.1, p.2 || u || q.2)) (0, false)
  else
    l.foldl (fun p t =>
      let q := accAdd p.1 ((elemVal fmt t.a).mul (elemVal fmt t.b))
      (q.1, p.2 || q.2)) (0, false)

/-- The radius term of a row (R90). -/
def radTerm (fmt : Nat) (t : Term) : Nat :=
  let am := (elemVal fmt t.a).abs
  let bm := (elemVal fmt t.b).abs
  let ar := radVal t.ar
  let br := radVal t.br
  ru16 (((f16 (ru16 (am.mul br))).add (f16 (ru16 (ar.mul bm)))).add (f16 (ru16 (ar.mul br))))

/-- FP16 sum rounded upward. -/
def radAdd (p q : Nat) : Nat := ru16 ((f16 p).add (f16 q))

/-- A column's radius over one pass (R90). -/
def passRad (fmt : Nat) (l : List Term) : Nat :=
  if fmtMx fmt then
    (blocksOf l).foldl (fun p b =>
      let bl := blockTerms l b
      let bs := bl.foldl (fun q t => radAdd q (radTerm fmt t)) 0
      radAdd p (ru16 ((f16 bs).mul (blockScale bl)))) 0
  else l.foldl (fun p t => radAdd p (radTerm fmt t)) 0

/-- The terms of column `j` for a vector over the rows in use. A missing radius is NaN: nothing is known of it. -/
def colTerms (rows : List (Nat × MacRow)) (v : ActVec) (j : Nat) : List Term :=
  rows.map (fun x =>
    ⟨x.1, v.elems.getD x.1 0, x.2.elems.getD j 0, v.scale.getD (x.1 / 32) 127, x.2.scale.getD j 127,
     v.rad.getD x.1 fp16.nanCode, x.2.rad.getD j fp16.nanCode⟩)

/-- The rows a vector meets at a cycle. -/
def rowsInUse (buf : List (Option MacRow × Option MacRow)) (o : MacOp) (cyc : Nat) : List (Nat × MacRow) :=
  (((List.range buf.length).zip buf).filterMap (fun x => (rowAt cyc x.2).map (fun r => (x.1, r)))).filter
    (fun x => x.1 < o.rows)

/-- The columns of one pass. -/
def passCols (o : MacOp) (rows : List (Nat × MacRow)) (v : ActVec) : List AccCol :=
  (List.range o.cols).map (fun j =>
    let l := colTerms rows v j
    let m := passMid o.fmt l
    ⟨m.1, if o.ball then passRad o.fmt l else 0, o.ball && m.2⟩)

/-- LEN of every tile among the rows, once a tile (R91 row count). -/
def tileRows (rows : List (Nat × MacRow)) : Nat :=
  let ts := (rows.map (fun x => (x.2.tile, x.2.tileLen))).eraseDups
  ts.foldl (fun n t => n + t.2) 0

/-- The smaller of two declared depths. -/
def minDepth : Option Nat → Option Nat → Option Nat
  | none, b => b
  | a, none => a
  | some a, some b => some (min a b)

/-- Least DEPTH of the tiles among the rows. -/
def tileDepth (rows : List (Nat × MacRow)) : Option Nat :=
  rows.foldl (fun m x => minDepth m (some x.2.depth)) none

/-! ## Entries (R83, R91, R92) -/

/-- An entry never written. -/
def zeroEntry : AccEntry := ⟨none, [], 0, none, false⟩

/-- A set's entry. -/
def MacSt.entry (m : MacSt) (set e : Nat) : AccEntry := (sparseFind m.entries (set * 256 + e)).getD zeroEntry

/-- Replace an entry. -/
def MacSt.setEntry (m : MacSt) (set e : Nat) (x : AccEntry) : MacSt :=
  { m with entries := sparseIns (sparseErase m.entries (set * 256 + e)) (set * 256 + e) x }

/-- Column `j` of an entry. -/
def AccEntry.col (x : AccEntry) (j : Nat) : AccCol := x.cols.getD j ⟨0, 0, false⟩

/-- Invert a bit of a column: bits above 15 of a radius column do nothing (R102). -/
def flipCol (cols : List AccCol) (ball : Bool) (cb : Nat × Nat) : List AccCol :=
  if ball && 64 ≤ cb.1 then
    (if cb.2 < 16 then
      cols.set (cb.1 - 64) { (cols.getD (cb.1 - 64) ⟨0, 0, false⟩) with
        rad := (cols.getD (cb.1 - 64) ⟨0, 0, false⟩).rad ^^^ 2 ^ cb.2 } else cols)
  else cols.set cb.1 { (cols.getD cb.1 ⟨0, 0, false⟩) with val := (cols.getD cb.1 ⟨0, 0, false⟩).val ^^^ 2 ^ cb.2 }

/-- A contribution lands in its entry (R87, R90, R91). -/
def MacSt.land (m : MacSt) (f : MacFlight) : MacSt :=
  let x := m.entry f.set f.entry
  let cols := (List.range f.cols.length).map (fun j =>
    let c := f.cols.getD j ⟨0, 0, false⟩
    if f.replace then c else
      let a := accAdd (x.col j).val (f32 c.val)
      ⟨a.1, radAdd (x.col j).rad c.rad, (x.col j).ufl || c.ufl || (f.ball && a.2)⟩)
  let cols := match f.flip with
    | some cb => flipCol cols f.ball cb
    | none => cols
  m.setEntry f.set f.entry
    { x with cols := cols, rows := if f.replace then f.rows else x.rows + f.rows,
             depth := if f.replace then f.depth else minDepth x.depth f.depth, clash := x.clash || f.clash }

/-- Everything due by a cycle lands, in issue order. -/
def MacSt.settle (m : MacSt) (cyc : Nat) : MacSt :=
  let due := m.flight.filter (fun f => f.lands ≤ cyc)
  due.foldl MacSt.land { m with flight := m.flight.filter (fun f => cyc < f.lands) }

/-! ## Shared steps -/

/-- The physical array of slot MACk: slots written for CD0 drive the steered stack (R101). -/
def State.steerArray (s : State) (k : Nat) : Nat :=
  if s.actBank.kind = .active ∧ s.actBank.variant = 0x30 then s.actBank.steer * 4 + k % 4 else k

/-- The physical stack of slot VECd. -/
def State.steerStack (s : State) (d : Nat) : Nat :=
  if s.actBank.kind = .active ∧ s.actBank.variant = 0x30 then s.actBank.steer else d

/-- Does array `k` carry out ops: fitted, and neither it nor its stack failed (R68, R98)? -/
def State.arrayRuns (s : State) (k : Nat) : Bool := pagePresent s.fx (0x20 + k) && !s.arrayFailed k

/-- The LCLK cycle counted over bodies: bodies are at least 12,500 cycles apart in this count. -/
def State.absCyc (s : State) (c : Nat) : Nat := s.seq.body.frame * 12500 + c

/-- An array's state. -/
def State.macSt (s : State) (k : Nat) : MacSt := if h : k < 16 then s.mac[k] else MacSt.empty

/-- Replace an array's state. -/
def State.setMac (s : State) (k : Nat) (m : MacSt) : State := if h : k < 16 then { s with mac := s.mac.set k m } else s

/-- LAST_OP and LAST_FMT (R106). -/
def State.macLast (s : State) (k : Nat) (o : MacOp) : State :=
  (s.setFld (Reg.MAC_STS k) 8 2 o.op).setFld (Reg.MAC_STS k) 10 4 o.fmt

/-- WLOAD (R83, R89): LEN rows, at most 128 (256 for plain MXFP4), into buffer WSEL. -/
def State.wload (s : State) (k c : Nat) (o : MacOp) : State :=
  let m := s.macSt k
  let a := s.absCyc c
  let n := min o.len o.rows
  let buf := (List.range n).foldl (fun b r => putRow b r (s.readRow k o (m.serial + 1) (a + r + 1) r))
    (if o.wsel = 0 then m.buf0 else m.buf1)
  let m := { m with serial := m.serial + 1 }
  s.setMac k (if o.wsel = 0 then { m with buf0 := buf } else { m with buf1 := buf })

/-- Does a STREAM with ACC = 1 meet another latched mode (R92)? -/
def clashes (o : MacOp) (x : AccEntry) : Bool :=
  o.acc && (match x.mode with
    | some md => md ≠ (o.fmt, o.ball)
    | none => false)

/-- Send vector `v` of a STREAM: its contribution is in flight to entry `v`, whose mode it latches (R83, R91, R92). -/
def streamVec (s : State) (k : Nat) (o : MacOp) (a : Nat) (flip : Option (Nat × Nat)) (m : MacSt) (v : Nat) : MacSt :=
  let enter := a + v * o.vecCycles
  let rows := rowsInUse (if o.wsel = 0 then m.buf0 else m.buf1) o enter
  let x := m.entry o.asel v
  let cl := clashes o x
  let replace := !o.acc || cl
  let m := m.setEntry o.asel v { x with mode := if replace || x.mode.isNone then some (o.fmt, o.ball) else x.mode }
  let f : MacFlight := ⟨enter + 132, o.asel, v, replace, o.ball, passCols o rows (s.readVec k o v), tileRows rows,
    if o.ball then tileDepth rows else none, cl, if v = 0 then flip else none⟩
  { m with flight := m.flight ++ [f] }

/-- Is any FP32 code of a list a NaN? -/
def anyNan (l : List AccCol) : Bool := l.any (fun c => fp32.isNan c.val)

/-- STREAM (R83, R87, R90, R92). -/
def State.stream (s : State) (k c : Nat) (o : MacOp) (flip : Option (Nat × Nat)) : State :=
  let a := s.absCyc c
  let m0 := (s.macSt k).settle a
  let clash := (List.range o.len).any (fun v => clashes o (m0.entry o.asel v))
  let m := (List.range o.len).foldl (streamVec s k o a flip) m0
  let s := if clash then (s.setBit (Reg.MAC_STS k) 2 true).inc (Reg.MAC_CLASH_CNT k) else s
  let s := if m.flight.any (fun f => anyNan f.cols) then s.setBit (Reg.MAC_STS k) 3 true else s
  s.setMac k m

/-- The step above an FP16 radius (R91, UFL): one step up, or 2^-24 from 0. -/
def radStep (r : Nat) : Nat := ru16 ((f16 r).add (.fin false 1 (-149)))

/-- r_out of a column and whether it is infinite for depth, or raised for underflow (R91). -/
def drainRad (x : AccEntry) (c : AccCol) (early inject : Bool) : Nat × Bool × Bool :=
  let ovr := match x.depth with
    | some d => decide (d < x.rows)
    | none => false
  let inf := fp16.enc .up (.inf false)
  let plain := match x.mode with
    | some (_, b) => !b
    | none => false
  if ovr then (inf, true, false)
  else if nonfin32 c.val || fp16.isNan c.rad || x.clash || early || inject || plain then (inf, false, false)
  else if c.ufl then (radStep c.rad, false, true)
  else (c.rad, false, false)

/-- DRAIN of entry `v` at its cycle (R83, R85, R91). -/
def State.drainEntry (s : State) (k : Nat) (o : MacOp) (a : Nat) (v : Nat) : State :=
  let m := (s.macSt k).settle (a + v)
  let early := m.flight.any (fun f => f.set = o.asel && f.entry = v)
  let x := m.entry o.asel v
  let base (g : Nat) : Nat := quadAddr k (o.addr + v * g)
  let s := if early then s.inc (Reg.MAC_EARLY_CNT k) else s
  if o.ball then
    let inj := s.bit (Reg.ERR_INJ (0x20 + k)) 2
    let col := s.fld (Reg.ERR_INJ (0x20 + k)) 8 7
    let outs := (List.range 64).map (fun n => (x.col n, drainRad x (x.col n) early (inj && col = n)))
    let nInf := (outs.filter (fun y => y.2.1 = fp16.enc .up (.inf false))).length
    let nDepth := (outs.filter (fun y => y.2.2.1)).length
    let nNan := (outs.filter (fun y => fp32.isNan y.1.val)).length
    let b := base (o.step 6)
    let s := s.setBytes b ((outs.map (fun y => leBytes 4 y.1.val)).flatten ++ (outs.map (fun y => leBytes 2 y.2.1)).flatten)
    let s := ((s.addCnt (Reg.MAC_INF_CNT k) nInf).addCnt (Reg.MAC_DEPTH_CNT k) nDepth).addCnt (Reg.MAC_NAN_CNT k) nNan
    let s := if 0 < nInf then s.setBit (Reg.MAC_STS k) 1 true else s
    let s := if outs.any (fun y => y.2.2.2) then s.setBit (Reg.MAC_STS k) 4 true else s
    let s := if 0 < nNan then s.setBit (Reg.MAC_STS k) 3 true else s
    let s := if inj then s.setBit (Reg.ERR_INJ (0x20 + k)) 2 false else s
    s.setMac k (m.setEntry o.asel v { x with clash := false })
  else
    let outs := (List.range 128).map (fun n =>
      if x.cols.length ≤ 64 ∧ 64 ≤ n then fp32.enc .rne (f16 (x.col (n - 64)).rad) else (x.col n).val)
    let nNan := (outs.filter fp32.isNan).length
    let s := s.setBytes (base (o.step 8)) ((outs.map (leBytes 4)).flatten)
    let s := s.addCnt (Reg.MAC_NAN_CNT k) nNan
    let s := if 0 < nNan then s.setBit (Reg.MAC_STS k) 3 true else s
    s.setMac k m

/-- DRAIN (R83, R91). -/
def State.drain (s : State) (k c : Nat) (o : MacOp) : State :=
  (List.range o.len).foldl (fun s v => s.drainEntry k o (s.absCyc c) v) s

/-- A MAC slot takes effect on the array its slot drives, unless that array is failed or absent (R68, R98, R101). -/
def macRun (t k : Nat) (slot : BitVec 64) (op : Nat) (s : State) (f : State → Nat → MacOp → State) :
    Host.Outcome State Fault Refusal :=
  run t s fun s =>
    let k := s.steerArray k
    let o := { MacOp.ofBits slot.toNat with op := op }
    if s.arrayRuns k then f (s.macLast k o) k o else s

/-- MAC WLOAD (R82, R83, R89). -/
def execMacWload (t c : Nat) (k : Fin 16) (slot : BitVec 64) (s : State) : Host.Outcome State Fault Refusal :=
  macRun t k slot 1 s fun s k o => s.wload k c o

/-- MAC STREAM (R83, R87, R90, R92); a residue or accumulator injection acts at its accumulator write and is reported as a
mismatch (R97, R102). -/
def execMacStream (t c : Nat) (k : Fin 16) (slot : BitVec 64) (s : State) : Host.Outcome State Fault Refusal :=
  macRun t k slot 2 s fun s k o =>
    let e := s.reg (Reg.ERR_INJ (0x20 + k))
    let s' := s.stream k c o (if bitOf e 1 then some (fieldOf e 8 7, fieldOf e 3 5) else none)
    if bitOf e 0 || bitOf e 1 then
      ((s'.setBit (Reg.ERR_INJ (0x20 + k)) 0 false).setBit (Reg.ERR_INJ (0x20 + k)) 1 false).failArray k
    else s'

/-- MAC DRAIN (R83, R91). -/
def execMacDrain (t c : Nat) (k : Fin 16) (slot : BitVec 64) (s : State) : Host.Outcome State Fault Refusal :=
  macRun t k slot 3 s fun s k o => s.drain k c o

/-! ## Error injection (R102) -/

/-- The page of unit `u`: MAC arrays 0 to 15, then vector units. -/
def injPage (u : Nat) : Nat := if u < 16 then 0x20 + u else 0x30 + (u - 16)

/-- A write of ERR_INJ arms the injections whose bits it sets; BIT and COL are stored. -/
def State.armInject (s : State) (page v : Nat) : State :=
  s.setReg (Reg.ERR_INJ page) (s.reg (Reg.ERR_INJ page) ||| (v % 8))

/-- ERR_INJ.RES_FLIP (R102). -/
def execErrInjResFlip (t : Nat) (w : Writer) (u : Fin 20) (v : Word) (s : State) : Host.Outcome State Fault Refusal :=
  run t s fun s => s.ownWrite w (Reg.ERR_INJ (injPage u)) (v.toNat ||| 1) anyValue (fun s x => s.armInject (injPage u) x)

/-- ERR_INJ.ACC_FLIP (R102). -/
def execErrInjAccFlip (t : Nat) (w : Writer) (u : Fin 20) (v : Word) (s : State) : Host.Outcome State Fault Refusal :=
  run t s fun s => s.ownWrite w (Reg.ERR_INJ (injPage u)) (v.toNat ||| 2) anyValue (fun s x => s.armInject (injPage u) x)

/-- ERR_INJ.RAD_INF (R102). -/
def execErrInjRadInf (t : Nat) (w : Writer) (u : Fin 20) (v : Word) (s : State) : Host.Outcome State Fault Refusal :=
  run t s fun s => s.ownWrite w (Reg.ERR_INJ (injPage u)) (v.toNat ||| 4) anyValue (fun s x => s.armInject (injPage u) x)

end Sys2Proof.Machine
end

