-- ==== Sys2Proof/Machine/Vec.lean ====
section
/-!
DEFINITION. The vector units (R94 to R96, R99, R102): elementwise, reduction, conversion and table ops on tile SRAM, with
ball radii.
-/
namespace Sys2Proof.Machine

/-! ## Lanes -/

/-- The format of a TYPE (R94). -/
def vecFmt (type : Nat) : FpFmt :=
  match type with
  | 0 => fp32
  | 1 => bf16
  | 2 => fp64
  | _ => fp16

/-- u of R95, as an exponent. -/
def vecU (type : Nat) : Int :=
  match type with
  | 1 => -8
  | 2 => -53
  | _ => -24

/-- The subnormal term of R95, as an exponent. -/
def vecTiny (type : Nat) : Int :=
  match type with
  | 1 => -133
  | 2 => -1074
  | _ => -149

/-- Byte address of granule `g` on die `d` (R94). -/
def dieAddr (d g : Nat) : Nat := tileBase d + (g % 2 ^ 20) * 64

/-- A lane: midpoint and radius (0 where the op is not a ball op). -/
structure Lane where
  m : Fv
  r : Fv
  deriving DecidableEq, Repr

/-- The lanes of a plane of `n` at granule `g`: midpoints of the type, then, in ball mode, FP32 radii (R95). -/
def State.readLanes (s : State) (d g type n : Nat) (ball : Bool) : List Lane :=
  let f := vecFmt type
  let b := dieAddr d g
  let ms := s.packed b f.width n
  let rs := if ball then s.packed (b + n * f.width / 8) 32 n else []
  (List.range n).map (fun i => ⟨f.dec (ms.getD i 0), if ball then f32 (rs.getD i 0) else Fv.zero⟩)

/-- A result lane: midpoint code and FP32 radius code. -/
structure OutLane where
  m : Nat
  r : Nat
  deriving DecidableEq, Repr

/-- Is an operand outside what a ball may be: a non-finite midpoint, or a radius that is negative or NaN (R95)? -/
def Lane.lost (l : Lane) : Bool := !l.m.isFin || l.r == .nan || (l.r.isNeg && !l.r.isZero)

/-- Delta of R95 for a rounded midpoint: 0 where the rounding was exact. -/
def delta (type : Nat) (mid : Nat × Bool) : Fv :=
  if !mid.2 then Fv.zero else
  let v := ((vecFmt type).dec mid.1).abs
  let e := f32 (ru32 (v.scale (vecU type)))
  if v.lt (.fin false 1 (1 - ((vecFmt type).bias : Int))) then e.add (Fv.pow2 (vecTiny type)) else e

/-- Close a result: round the radius up, +Inf where an operand is lost or the midpoint is not finite. -/
def closeLane (f : FpFmt) (mid : Nat) (rad : Fv) (lost : Bool) : OutLane :=
  if lost || !(f.dec mid).isFin || rad == .nan || (rad.isNeg && !rad.isZero) then ⟨mid, inf32⟩ else ⟨mid, ru32 rad⟩

/-- Sum of two radii. -/
def rad2 (a b : Lane) : Fv := a.r.add b.r

/-- The radius of a product, before rounding (R95). -/
def radMul (a b : Lane) : Fv := ((a.m.abs.mul b.r).add (a.r.mul b.m.abs)).add (a.r.mul b.r)

/-- ADD, SUB, MUL, FMA, MAX, MIN on a lane (R95); `c` is the old DST. -/
def binLane (op type : Nat) (a b c : Lane) : OutLane :=
  let f := vecFmt type
  let lost := a.lost || b.lost || (op = 4 && c.lost)
  let x := match op with
    | 1 => a.m.add b.m
    | 2 => a.m.sub b.m
    | 3 => a.m.mul b.m
    | 4 => (a.m.mul b.m).add c.m
    | 5 => a.m.max b.m
    | _ => a.m.min b.m
  let mid := f.enc2 .rne x
  let r := match op with
    | 1 => (rad2 a b).add (delta type mid)
    | 2 => (rad2 a b).add (delta type mid)
    | 3 => (radMul a b).add (delta type mid)
    | 4 => ((radMul a b).add c.r).add (delta type mid)
    | _ => a.r.max b.r
  closeLane f mid.1 r lost

/-- ABS, MOVE, SCALE on a lane (R95). -/
def unLane (op type : Nat) (imm : Int) (a : Lane) : OutLane :=
  let f := vecFmt type
  let x := match op with
    | 14 => a.m.abs
    | 11 => a.m.scale imm
    | _ => a.m
  closeLane f (f.enc .rne x) (if op = 11 then a.r.scale imm else a.r) a.lost

/-! ## Reductions -/

/-- Groups of `g` consecutive elements. -/
def groupsOf (g : Nat) : Nat → List Lane → List (List Lane)
  | 0, _ => []
  | fuel + 1, l => if l = [] then [] else l.take g :: groupsOf g fuel (l.drop g)

/-- Sum of a group in ascending lane order, with whether any step was subnormal. -/
def sumGo (f : FpFmt) : List Lane → Nat → Bool → Nat × Bool
  | [], acc, sub => (acc, sub)
  | l :: r, acc, sub =>
    let x := f.enc .rne ((f.dec acc).add l.m)
    let small := (f.dec x).abs.lt (.fin false 1 (1 - (f.bias : Int)))
    sumGo f r x (sub || (small && !(f.dec x).isZero))

/-- RSUM of a group (R95). -/
def rsumLane (type : Nat) (l : List Lane) : OutLane :=
  let f := vecFmt type
  match l with
  | [] => ⟨0, 0⟩
  | a :: rest =>
    let s := sumGo f rest (f.enc .rne a.m) false
    let g := l.length
    let gu : Fv := .fin false g (vecU type)
    let num := l.foldl (fun x y => x.add y.m.abs) Fv.zero
    let rads := l.foldl (fun x y => x.add y.r) Fv.zero
    let gamma := gu.div ((Fv.ofNat 1).sub gu)
    let gamma := if s.2 then gamma.add (.fin false g (-149)) else gamma
    closeLane f s.1 (rads.add (gamma.mul num)) (l.any Lane.lost)

/-- RMAX of a group (R95). -/
def rmaxLane (type : Nat) (l : List Lane) : OutLane :=
  let f := vecFmt type
  match l with
  | [] => ⟨0, 0⟩
  | a :: rest =>
    let m := rest.foldl (fun x y => x.max y.m) a.m
    closeLane f (f.enc .rne m) (rest.foldl (fun x y => x.max y.r) a.r) (l.any Lane.lost)

/-! ## TAB (R96) -/

/-- The declared bound E in ulps. -/
def tabE (func : Nat) : Nat :=
  match func with
  | 4 => 3
  | 5 => 1
  | 6 => 1
  | 7 => 4
  | 8 => 3
  | _ => 2

/-- Above the domain of exp: x > 88.72. -/
def expOver (x : Fv) : Bool := (Fv.ofNat 8872).lt (x.mul (Fv.ofNat 100))

/-- The computed function f-hat as a code of the type: NaN to NaN, exp above 88.72 to +Inf, GELU outside [-8, 8] to the
identity or 0, else the ROM. -/
def tabHat (func type : Nat) (x : Fv) : Nat :=
  let f := vecFmt type
  if x == .nan then f.nanCode
  else if func = 0 && expOver x then f.enc .rne (.inf false)
  else if func = 7 && (Fv.ofNat 8).lt x then f.enc .rne x
  else if func = 7 && x.lt (Fv.ofInt (-8)) then 0
  else f.enc .rne (f.dec (Config.tab func type (f.enc .rne x) % 2 ^ f.width))

/-- Does a ball reach outside a function's domain? -/
def tabOutside (func : Nat) (lo hi : Fv) : Bool :=
  match func with
  | 0 => expOver hi
  | 1 => lo.le Fv.zero
  | 5 => lo.le Fv.zero && Fv.zero.le hi
  | 6 => lo.le Fv.zero
  | _ => false

/-- The segment of functions 7 and 8 that holds a point. -/
def tabSeg (func : Nat) (x : Fv) : Int :=
  if func = 7 then ((x.add (Fv.ofNat 8)).mul (Fv.ofNat 16)).floor else ((x.add (Fv.ofNat 16)).mul (Fv.ofNat 8)).floor

/-- L of R96 times a radius. -/
def tabSlopeTimes (func : Nat) (lo hi r : Fv) : Fv :=
  let a := tabSeg func lo
  let b := tabSeg func hi
  if b - a ≤ 1 then ((f32 (Config.tabSlope func a % 2 ^ 32)).max (f32 (Config.tabSlope func b % 2 ^ 32))).mul r
  else (r.mul (Fv.ofNat (if func = 7 then 113 else 110))).div (Fv.ofNat 100)

/-- TAB on a lane (R96). -/
def tabLane (func type : Nat) (ball : Bool) (a : Lane) : OutLane :=
  let f := vecFmt type
  let y := tabHat func type a.m
  if !ball then ⟨y, 0⟩ else
  if a.lost || !a.r.isFin then ⟨y, inf32⟩ else
  let lo := f.dec (f.enc .down (a.m.sub a.r))
  let hi := f.dec (f.enc .up (a.m.add a.r))
  let fy := f.dec y
  let e := Fv.ofNat (tabE func)
  if tabOutside func lo hi then ⟨y, inf32⟩
  else if func = 7 ∨ func = 8 then closeLane f y ((tabSlopeTimes func lo hi a.r).add (e.mul (f.ulp fy))) false
  else
    let fh := f.dec (tabHat func type hi)
    let fl := f.dec (tabHat func type lo)
    let dh := (fh.sub fy).abs
    let dl := (fy.sub fl).abs
    let far := if dl.lt dh then fh else fl
    closeLane f y (((dh.max dl).add (e.mul (f.ulp fy))).add (e.mul (f.ulp far))) false

/-! ## Conversion (R87, R95) -/

/-- The format of a MAC format code (INT8 apart). -/
def fmtOf (fmt : Nat) : FpFmt :=
  match fmt with
  | 0 => e4m3
  | 1 => e5m2
  | 3 => bf16
  | 4 => fp16
  | 5 => e4m3
  | 6 => e5m2
  | 7 => e3m2
  | 8 => e2m3
  | _ => e2m1

/-- CVT of a lane into a plain array format: code, and the value it stands for. A value INT8 cannot hold is a free value:
the spec states no result (log 25). -/
def cvtLane (fmt free place : Nat) (x : Fv) : Nat × Fv :=
  if fmt = 2 then
    let n := x.nearest
    let ok := x.isFin && decide (-128 ≤ n) && decide (n ≤ 127)
    let c := if ok then ofInt 8 n else Config.freeValue free place % 256
    (c, Fv.ofInt (sext 8 c))
  else
    let c := (fmtOf fmt).enc .rne x
    (c, (fmtOf fmt).dec c)

/-- Does a CVT to INT8 meet a value it cannot hold? -/
def cvtOpen (fmt : Nat) (l : List Lane) : Bool :=
  fmt = 2 && l.any (fun a => !a.m.isFin || decide (a.m.nearest < -128) || decide (127 < a.m.nearest))

/-- The largest finite element value of an MX format. -/
def mxMax (fmt : Nat) : Fv := (fmtOf fmt).dec (fmtOf fmt).maxMag

/-- Base-2 exponent of a finite magnitude. -/
def expo : Fv → Int
  | .fin _ m e => (Nat.log2 m : Int) + e
  | _ => 0

/-- The scale byte of a block: the smallest power of two that brings its largest magnitude within the element range; 0xFF
for a NaN in the block (R87). -/
def mxScale (fmt : Nat) (l : List Fv) : Nat :=
  if l.any (· == .nan) then 255 else
  let big := l.foldl (fun x y => x.max y.abs) Fv.zero
  if !big.isFin then 254 else if big.isZero then 0 else
  let k := expo big - expo (mxMax fmt)
  let k := if big.le ((mxMax fmt).scale k) then k else k + 1
  (clampInt 0 254 (k + 127)).toNat

/-- PACK_MX of one block: scale, then code and value of each element (R87). -/
def packBlock (fmt : Nat) (l : List Fv) : Nat × List (Nat × Fv) :=
  let x := mxScale fmt l
  if x = 255 then (255, l.map (fun _ => (0, Fv.nan))) else
  (x, l.map (fun v =>
    let c := (fmtOf fmt).enc .rne (v.scale (127 - (x : Int)))
    (c, ((fmtOf fmt).dec c).scale ((x : Int) - 127))))

/-- Blocks of 32. -/
def blocks32 : Nat → List Fv → List (List Fv)
  | 0, _ => []
  | fuel + 1, l => if l = [] then [] else l.take 32 :: blocks32 fuel (l.drop 32)

/-- Pack codes of `w` bits into little-endian bytes. -/
def packCodes (w : Nat) (l : List Nat) : List Byte :=
  let v := (List.range l.length).zipWith (fun i c => (c % 2 ^ w) * 2 ^ (i * w)) l
  leBytes ((l.length * w + 7) / 8) (v.foldl (· + ·) 0)

/-- The FP16 radius of a converted lane, rounded up (R95). -/
def cvtRad (a : Lane) (v : Fv) : Nat :=
  if a.lost || !v.isFin then fp16.enc .up (.inf false) else ru16 (a.r.add (a.m.sub v).abs)

/-! ## Ops -/

/-- Does stack `d` carry out vector ops? -/
def State.vecRuns (s : State) (d : Nat) : Bool := pagePresent s.fx (0x30 + d) && !s.stackFailed d

/-- Apply the RAD_INF injection to the first ball result of lane group COL (R102). -/
def injectLanes (s : State) (d : Nat) (l : List OutLane) : List OutLane :=
  let e := s.reg (Reg.ERR_INJ (0x30 + d))
  if bitOf e 2 then
    (List.range l.length).zipWith (fun i x => if i / 4 = fieldOf e 8 7 then { x with r := inf32 } else x) l
  else l

/-- Count a ball op's infinite radii and NaNs (R95, R105). -/
def State.vecCount (s : State) (d : Nat) (ball : Bool) (nInf : Nat) (nan : Bool) : State :=
  let s := if ball && 0 < nInf then (s.addCnt (Reg.VEC_INF_CNT d) nInf).setBit (Reg.VEC_STS d) 1 true else s
  let s := if nan then s.setBit (Reg.VEC_STS d) 2 true else s
  if ball then s.setBit (Reg.ERR_INJ (0x30 + d)) 2 false else s

/-- Write result lanes at DST: midpoints of the type, then FP32 radii in ball mode. -/
def State.writeLanes (s : State) (d g type : Nat) (ball : Bool) (l : List OutLane) : State :=
  let f := vecFmt type
  let l := if ball then injectLanes s d l else l
  let b := dieAddr d g
  let s := s.setBytes b (packCodes f.width (l.map (·.m)))
  let s := if ball then s.setBytes (b + l.length * f.width / 8) (packCodes 32 (l.map (·.r))) else s
  s.vecCount d ball ((l.filter (fun x => x.r = inf32)).length) (l.any (fun x => f.isNan x.m))

/-- A VEC slot takes effect (R94), unless the stack is failed or absent; an armed residue or accumulator injection is
reported as a mismatch and fails the stack (R99, R102). -/
def vecRun (t d : Nat) (slot : BitVec 96) (op : Nat) (s : State) (f : State → Nat → VecOp → State) :
    Host.Outcome State Fault Refusal :=
  run t s fun s =>
    let d := s.steerStack d
    let o := { VecOp.ofBits slot.toNat with op := op }
    if s.vecRuns d then
      let e := s.reg (Reg.ERR_INJ (0x30 + d))
      let s := f s d o
      if bitOf e 0 || bitOf e 1 then
        let s := (s.setBit (Reg.ERR_INJ (0x30 + d)) 0 false).setBit (Reg.ERR_INJ (0x30 + d)) 1 false
        (s.inc (Reg.VEC_RES_CNT d)).failStack d
      else s
    else s

/-- A two-operand op over all lanes. -/
def State.vecBin (s : State) (d : Nat) (o : VecOp) : State :=
  let n := o.len * 512
  let a := s.readLanes d o.srcA o.type n o.ball
  let b := s.readLanes d o.srcB o.type n o.ball
  let c := if o.op = 4 then s.readLanes d o.dst o.type n o.ball else []
  let z : Lane := ⟨Fv.zero, Fv.zero⟩
  s.writeLanes d o.dst o.type o.ball
    ((List.range n).map (fun i => binLane o.op o.type (a.getD i z) (b.getD i z) (c.getD i z)))

/-- A one-operand op over all lanes. -/
def State.vecUn (s : State) (d : Nat) (o : VecOp) (g : Lane → OutLane) : State :=
  s.writeLanes d o.dst o.type o.ball ((s.readLanes d o.srcA o.type (o.len * 512) o.ball).map g)

/-- A reduction: one result per group of 2^IMM lanes, packed in lane order (log 26). -/
def State.vecRed (s : State) (d : Nat) (o : VecOp) (g : List Lane → OutLane) : State :=
  let n := o.len * 512
  s.writeLanes d o.dst o.type o.ball ((groupsOf (2 ^ o.imm.toNat) n (s.readLanes d o.srcA o.type n o.ball)).map g)

/-- VEC ADD (R95). -/
def execVecAdd (t : Nat) (d : Fin 4) (slot : BitVec 96) (s : State) : Host.Outcome State Fault Refusal :=
  vecRun t d slot 1 s fun s d o => s.vecBin d o

/-- VEC SUB (R95). -/
def execVecSub (t : Nat) (d : Fin 4) (slot : BitVec 96) (s : State) : Host.Outcome State Fault Refusal :=
  vecRun t d slot 2 s fun s d o => s.vecBin d o

/-- VEC MUL (R95). -/
def execVecMul (t : Nat) (d : Fin 4) (slot : BitVec 96) (s : State) : Host.Outcome State Fault Refusal :=
  vecRun t d slot 3 s fun s d o => s.vecBin d o

/-- VEC FMA: DST takes A times B plus DST (R94, R95). -/
def execVecFma (t : Nat) (d : Fin 4) (slot : BitVec 96) (s : State) : Host.Outcome State Fault Refusal :=
  vecRun t d slot 4 s fun s d o => s.vecBin d o

/-- VEC MAX (R95). -/
def execVecMax (t : Nat) (d : Fin 4) (slot : BitVec 96) (s : State) : Host.Outcome State Fault Refusal :=
  vecRun t d slot 5 s fun s d o => s.vecBin d o

/-- VEC MIN (R95). -/
def execVecMin (t : Nat) (d : Fin 4) (slot : BitVec 96) (s : State) : Host.Outcome State Fault Refusal :=
  vecRun t d slot 6 s fun s d o => s.vecBin d o

/-- Write converted codes with their FP16 radii. -/
def State.writeConv (s : State) (d g w : Nat) (ball : Bool) (codes : List Nat) (scales rads : List Nat) (nan : Bool) : State :=
  let inf := fp16.enc .up (.inf false)
  let e := s.reg (Reg.ERR_INJ (0x30 + d))
  let rads := if bitOf e 2 then
      (List.range rads.length).zipWith (fun i r => if i / 4 = fieldOf e 8 7 then inf else r) rads else rads
  let b := dieAddr d g
  let s := s.setBytes b (packCodes w codes)
  let p1 := b + cdiv (codes.length * w) 512 * 64
  let s := s.setBytes p1 (packCodes 8 scales)
  let p2 := p1 + cdiv scales.length 64 * 64
  let s := if ball then s.setBytes p2 (packCodes 16 rads) else s
  s.vecCount d ball ((rads.filter (· = inf)).length) nan

/-- CVT into a plain format over all lanes. -/
def State.vecCvt (s : State) (d : Nat) (o : VecOp) : State :=
  let l := s.readLanes d o.srcA o.type (o.len * 512) o.ball
  let free := s.free
  let s := if cvtOpen o.func l then s.fresh.2 else s
  let cs := (List.range l.length).zipWith (fun i a => cvtLane o.func free i a.m) l
  s.writeConv d o.dst (fmtBits o.func) o.ball (cs.map (·.1)) [] (l.zipWith (fun a c => cvtRad a c.2) cs)
    (o.func ≠ 2 && cs.any (fun c => c.2 == .nan))

/-- PACK_MX over all lanes. -/
def State.vecPack (s : State) (d : Nat) (o : VecOp) : State :=
  let n := o.len * 512
  let l := s.readLanes d o.srcA o.type n o.ball
  let bl := (blocks32 n (l.map (·.m))).map (packBlock o.func)
  let cs := (bl.map (·.2)).flatten
  s.writeConv d o.dst (fmtBits o.func) o.ball (cs.map (·.1)) (bl.map (·.1)) (l.zipWith (fun a c => cvtRad a c.2) cs)
    (bl.any (fun x => x.1 = 255))

/-- VEC CVT (R87, R95); an MX target is packed as by PACK_MX. -/
def execVecCvt (t : Nat) (d : Fin 4) (slot : BitVec 96) (s : State) : Host.Outcome State Fault Refusal :=
  vecRun t d slot 7 s fun s d o => if fmtMx o.func then s.vecPack d o else s.vecCvt d o

/-- VEC TAB (R96). -/
def execVecTab (t : Nat) (d : Fin 4) (slot : BitVec 96) (s : State) : Host.Outcome State Fault Refusal :=
  vecRun t d slot 8 s fun s d o => s.vecUn d o (tabLane o.func o.type o.ball)

/-- VEC RSUM (R95). -/
def execVecRsum (t : Nat) (d : Fin 4) (slot : BitVec 96) (s : State) : Host.Outcome State Fault Refusal :=
  vecRun t d slot 9 s fun s d o => s.vecRed d o (rsumLane o.type)

/-- VEC RMAX (R95). -/
def execVecRmax (t : Nat) (d : Fin 4) (slot : BitVec 96) (s : State) : Host.Outcome State Fault Refusal :=
  vecRun t d slot 10 s fun s d o => s.vecRed d o (rmaxLane o.type)

/-- VEC SCALE by 2^IMM (R94, R95). -/
def execVecScale (t : Nat) (d : Fin 4) (slot : BitVec 96) (s : State) : Host.Outcome State Fault Refusal :=
  vecRun t d slot 11 s fun s d o => s.vecUn d o (unLane 11 o.type o.imm)

/-- VEC MOVE (R95). -/
def execVecMove (t : Nat) (d : Fin 4) (slot : BitVec 96) (s : State) : Host.Outcome State Fault Refusal :=
  vecRun t d slot 12 s fun s d o => s.vecUn d o (unLane 12 o.type 0)

/-- VEC PACK_MX (R87, R95); a plain target is converted as by CVT. -/
def execVecPackMx (t : Nat) (d : Fin 4) (slot : BitVec 96) (s : State) : Host.Outcome State Fault Refusal :=
  vecRun t d slot 13 s fun s d o => if fmtMx o.func then s.vecPack d o else s.vecCvt d o

/-- VEC ABS (R95). -/
def execVecAbs (t : Nat) (d : Fin 4) (slot : BitVec 96) (s : State) : Host.Outcome State Fault Refusal :=
  vecRun t d slot 14 s fun s d o => s.vecUn d o (unLane 14 o.type 0)

end Sys2Proof.Machine
end

