-- ==== Sys2Proof/Machine/Engines.lean ====
section
/-!
DEFINITION. What every engine op shares (R114 to R119): the descriptor it names, the drop at a busy engine, its counters,
its status granule and the poison it meets; then the engines that do no matrix arithmetic: FFT, merge, integrator,
histogram, spline, select and hash (R120, R127 to R133).
-/
namespace Sys2Proof.Machine

/-! ## Shared steps -/

/-- What an op reports (R118): POISON, NONFINITE, TRUNC, ORDER, RANGE, bits 6 and 7, COUNT, DETAIL, and what it adds to
ENG_SPEC_CNT. -/
structure OpOut where
  poison : Bool := false
  nonfin : Bool := false
  trunc : Bool := false
  order : Bool := false
  range : Bool := false
  bit6 : Bool := false
  bit7 : Bool := false
  count : Nat := 0
  detail : List Byte := []
  spec : Nat := 0
  deriving DecidableEq, Repr

/-- FLAGS of the status granule (R118): DONE is always 1. -/
def OpOut.flags (r : OpOut) : Nat :=
  1 + 2 * b2n r.poison + 4 * b2n r.nonfin + 8 * b2n r.trunc + 16 * b2n r.order + 32 * b2n r.range + 64 * b2n r.bit6 +
    128 * b2n r.bit7

/-- The bytes of an engine's descriptor memory. -/
def State.descSrc (s : State) : Src := fun o => (sparseGet memDefault s.eng.descMem o).toNat

/-- The descriptor that an op of engine `e` names (R115). -/
def State.descOf (s : State) (e i : Nat) : Desc := Desc.read s.descSrc (descOff e i)

/-- Pad or cut a byte list to a length. -/
def fitBytes (n : Nat) (l : List Byte) : List Byte := l.take n ++ List.replicate (n - l.length) 0#8

/-- Write bytes as clean data (R112: a full write clears poison). -/
def State.putBytes (s : State) (a : Nat) (l : List Byte) : State := (s.setBytes a l).unpoison a l.length

/-- The status granule of an op (R118). -/
def State.putStatus (s : State) (g op desc : Nat) (r : OpOut) : State :=
  if g = 2 ^ 32 - 1 then s else
  s.putBytes (g * 64) (leBytes 8 s.seq.body.frame ++ leBytes 1 op ++ leBytes 1 desc ++ leBytes 2 r.flags ++
    leBytes 4 r.count ++ fitBytes 48 r.detail)

/-- Count an op's completion (R148). -/
def State.engDone (s : State) (e op desc : Nat) (r : OpOut) (ns : Nat) : State :=
  let s := (s.inc (engReg e 0x104)).setReg (engReg e 0x120) (s.now + ns)
  let s := (s.setFld (engReg e 0x100) 8 8 op).setFld (engReg e 0x100) 16 8 desc
  let s := if r.poison then (s.setBit (engReg e 0x100) 1 true).inc (engReg e 0x10C) else s
  let s := if r.nonfin then (s.setBit (engReg e 0x100) 2 true).inc (engReg e 0x110) else s
  if 0 < r.spec then (s.setBit (engReg e 0x100) 3 true).addCnt (engReg e 0x114) r.spec else s

/-- When engine `e` is free again, as a cycle over bodies. -/
def State.freeCyc (s : State) (e : Nat) : Nat := if h : e < 15 then s.eng.freeAt[e] else 0

/-- Set it. -/
def State.setFreeCyc (s : State) (e c : Nat) : State :=
  if h : e < 15 then { s with eng := { s.eng with freeAt := s.eng.freeAt.set e c } } else s

/-- Words of poison in a byte range. -/
def State.poisonWords (s : State) (a n : Nat) : Nat :=
  (s.poison.filter (fun p => decide (a / 8 * 8 ≤ p ∧ p < a + n))).length

/-- Read `n` granules: the bytes, whether any word is poisoned, and the poisoned words counted (R112). -/
def State.takeGran (s : State) (g n : Nat) : State × List Byte × Bool :=
  let k := s.poisonWords (g * 64) (n * 64)
  (if 0 < k then s.addCnt Reg.SHM_POISON_RD k else s, s.bytes (g * 64) (n * 64), decide (0 < k))

/-- An engine slot takes effect: dropped where the engine is busy, otherwise run with its descriptor; the status granule and
the counters follow (R117, R118). -/
def engRun (t e c : Nat) (slot : Nat) (op : Nat) (s : State) (f : State → EngOp → Desc → State × OpOut) :
    Host.Outcome State Fault Refusal :=
  run t s fun s =>
    let o := { EngOp.ofBits e slot with op := op }
    if s.absCyc c < s.freeCyc e then s.inc (engReg e 0x108) else
    let d := s.descOf e o.desc
    let plan := opPlan e c (fun k => srcLe s.descSrc (indexOff (e - 9) k) 4) o d
    let (s, r) := f s o d
    let s := if opStatus e op d then s.putStatus d.stsAddr op o.desc r else s
    (s.engDone e op o.desc r (s.cycNs (plan.free - c))).setFreeCyc e (s.absCyc plan.free)

/-- The 32-bit words of a byte list. -/
def words32 : List Byte → List Nat
  | a :: b :: c :: d :: r => ofLe [a, b, c, d] :: words32 r
  | _ => []

/-- The bytes of 32-bit words. -/
def unwords (l : List Nat) : List Byte := (l.map (leBytes 4)).flatten

/-- An FP32 value at a byte address, NaN where its word is poisoned (R119). -/
def State.f32At (s : State) (a : Nat) : Nat := if s.poisoned a then nan32 else s.le a 4

/-- `n` FP32 values from a byte address. -/
def State.f32s (s : State) (a n : Nat) : List Nat := (List.range n).map (fun i => s.f32At (a + 4 * i))

/-- Canonical form of an FP32 code that an engine writes (R87). -/
def canon32 (x : Nat) : Nat := if fp32.isNan x then nan32 else x

/-! ## FFT (R120) -/

/-- pi * 2^160, cut to a whole number. -/
def piFix : Nat := 0x3243f6a8885a308d313198a2e03707344a4093822

/-- Fixed-point unit of the trigonometric series. -/
def trigOne : Int := 2 ^ 160

/-- A sine or cosine series: terms alternate in sign, each from the last by x^2 over two factorial steps. -/
def trigGo (x2 : Int) : Nat → Int → Int → Int → Int
  | 0, _, _, acc => acc
  | n + 1, k, term, acc =>
    let nt := -(term * x2 / trigOne) / ((k + 1) * (k + 2))
    trigGo x2 n (k + 2) nt (acc + nt)

/-- (cos, sin) of an angle in fixed point. -/
def cosSin (x : Int) : Int × Int :=
  let x2 := x * x / trigOne
  (trigGo x2 40 0 trigOne trigOne, trigGo x2 40 1 x x)

/-- A fixed-point number as an exact value. -/
def fixVal (x : Int) : Fv := .fin (decide (x < 0)) x.natAbs (-160)

/-- The twiddle e^(-2 pi i k / n), each part correctly rounded to FP32 (R120). -/
def twiddle (n k : Nat) : Nat × Nat :=
  let quad := 4 * k / n
  let r := 4 * k % n
  let cs := cosSin ((piFix * r / (2 * n) : Nat) : Int)
  let (c, s) := match quad with
    | 0 => (cs.1, cs.2)
    | 1 => (-cs.2, cs.1)
    | 2 => (-cs.1, -cs.2)
    | _ => (cs.2, -cs.1)
  (rn32 (fixVal c), rn32 (fixVal (-s)))

/-- Complex FP32 product, each operation rounded. -/
def cmul (a w : Nat × Nat) : Nat × Nat :=
  (sub32 (mul32 a.1 w.1) (mul32 a.2 w.2), add32 (mul32 a.1 w.2) (mul32 a.2 w.1))

/-- Every second element. -/
def evens {α : Type} : List α → List α
  | [] => []
  | [a] => [a]
  | a :: _ :: r => a :: evens r

/-- Radix-2 decimation in time, output in natural order; `tw n k` gives the twiddle (R120). -/
def fftGo (tw : Nat → Nat → Nat × Nat) : Nat → List (Nat × Nat) → List (Nat × Nat)
  | 0, l => l
  | fuel + 1, l =>
    let n := l.length
    if n ≤ 1 then l else
    let e := fftGo tw fuel (evens l)
    let o := fftGo tw fuel (evens (l.drop 1))
    let wo := (List.range o.length).zipWith (fun k x => cmul x (tw n k)) o
    (e.zipWith (fun a b => (add32 a.1 b.1, add32 a.2 b.2)) wo) ++
      (e.zipWith (fun a b => (sub32 a.1 b.1, sub32 a.2 b.2)) wo)

/-- Two lists of one length, element by element in turn. -/
def interleave {α : Type} : List α → List α → List α
  | a :: l, b :: r => a :: b :: interleave l r
  | _, _ => []

/-- Radix-2 decimation in frequency, output in natural order (R120). -/
def fftFreq (tw : Nat → Nat → Nat × Nat) : Nat → List (Nat × Nat) → List (Nat × Nat)
  | 0, l => l
  | fuel + 1, l =>
    let n := l.length
    if n ≤ 1 then l else
    let p := l.take (n / 2)
    let q := l.drop (n / 2)
    let d := p.zipWith (fun a b => (sub32 a.1 b.1, sub32 a.2 b.2)) q
    interleave (fftFreq tw fuel (p.zipWith (fun a b => (add32 a.1 b.1, add32 a.2 b.2)) q))
      (fftFreq tw fuel ((List.range (n / 2)).zipWith (fun k x => cmul x (tw n k)) d))

/-- One transform of `n` points, by the engine's decimation (log 27); the inverse uses the conjugate twiddles and scales by 1/N. -/
def fftOne (n : Nat) (inverse : Bool) (l : List (Nat × Nat)) : List (Nat × Nat) :=
  let tw (m k : Nat) : Nat × Nat := let w := twiddle m k; if inverse then (w.1, neg32 w.2) else w
  let y := if Config.fftInFrequency then fftFreq tw (lg n + 1) l else fftGo tw (lg n + 1) l
  let sc (x : Nat) : Nat := canon32 (rn32 ((f32 x).scale (-(lg n : Int))))
  if inverse then y.map (fun x => (sc x.1, sc x.2)) else y.map (fun x => (canon32 x.1, canon32 x.2))

/-- Pieces of `n` elements. -/
def pieces {α : Type} (n : Nat) : Nat → List α → List (List α)
  | 0, _ => []
  | k + 1, l => l.take n :: pieces n k (l.drop n)

/-- The points of a list of words. -/
def pairUp : List Nat → List (Nat × Nat)
  | a :: b :: r => (a, b) :: pairUp r
  | _ => []

/-- FFT LOAD (R120). -/
def execFftLoad (t c : Nat) (slot : BitVec 48) (s : State) : Host.Outcome State Fault Refusal :=
  engRun t 0 c slot.toNat 1 s fun s o d =>
    let n := d.p 0
    let b := d.p 1
    let (s, raw, p1) := s.takeGran (d.inAddr + o.arg) (b * n / 8)
    let pts := (pairUp (words32 raw)).take (n * b)
    let win := bitOf d.flags 1
    let (s, wraw, p2) := if win then s.takeGran d.auxAddr (n / 16) else (s, [], false)
    let ws := words32 wraw
    let pts := if win then (List.range pts.length).zipWith (fun i x =>
      let w := ws.getD (i % n) 0
      (mul32 x.1 w, mul32 x.2 w)) pts else pts
    let poison := p1 || p2
    ({ s with eng := { s.eng with fft := ⟨n, b, bitOf d.flags 0, pts, poison⟩ } }, { poison := poison })

/-- FFT XFORM (R120): the direction is the descriptor's INVERSE. -/
def execFftXform (t c : Nat) (slot : BitVec 48) (s : State) : Host.Outcome State Fault Refusal :=
  engRun t 0 c slot.toNat 2 s fun s _ d =>
    let f := s.eng.fft
    let data := ((pieces (d.p 0) (d.p 1) f.data).map (fftOne (d.p 0) (bitOf d.flags 0))).flatten
    ({ s with eng := { s.eng with fft := { f with data := data } } }, { poison := f.poison })

/-- FFT STORE (R119, R120): after poison the whole output is NaN. -/
def execFftStore (t c : Nat) (slot : BitVec 48) (s : State) : Host.Outcome State Fault Refusal :=
  engRun t 0 c slot.toNat 3 s fun s o d =>
    let f := s.eng.fft
    let n := d.p 0 * d.p 1
    let pts := (List.range n).map (fun i => if f.poison then (nan32, nan32) else f.data.getD i (0, 0))
    let nf := pts.any (fun x => nonfin32 x.1 || nonfin32 x.2)
    (s.putBytes ((d.outAddr + o.arg) * 64) ((pts.map (fun x => leBytes 4 x.1 ++ leBytes 4 x.2)).flatten),
      { poison := f.poison, nonfin := nf })

/-! ## Merge (R127) -/

/-- A record on its way through the merge: its keys (stamp, SRC, sequence) as given and as merged, its bytes, its poison. -/
structure MrgRec where
  key : Nat × Nat × Nat
  data : List Byte
  bad : Bool
  deriving DecidableEq, Repr

/-- Order of R40: stamp, then SRC, then sequence. -/
def keyLe (a b : Nat × Nat × Nat) : Bool :=
  a.1 < b.1 || (a.1 = b.1 && (a.2.1 < b.2.1 || (a.2.1 = b.2.1 && a.2.2 ≤ b.2.2)))

/-- Raise keys that fall below their predecessor's, counting them (R127). -/
def raiseKeys : List MrgRec → Nat × Nat × Nat → Nat → List MrgRec × Nat
  | [], _, n => ([], n)
  | r :: l, prev, n =>
    let low := !keyLe prev r.key
    let k := if low then prev else r.key
    let x := raiseKeys l k (if low then n + 1 else n)
    ({ r with key := k } :: x.1, x.2)

/-- Merge two sorted streams; at equal keys the left one, of the lower input, leaves first. -/
def mergeTwo : Nat → List MrgRec → List MrgRec → List MrgRec
  | 0, a, b => a ++ b
  | _ + 1, [], b => b
  | _ + 1, a, [] => a
  | n + 1, x :: a, y :: b =>
    if keyLe x.key y.key then x :: mergeTwo n a (y :: b) else y :: mergeTwo n (x :: a) b

/-- The records of input `i` of a merge, count capped at CAP, and whether it was cut. -/
def mrgInput (s : State) (o : EngOp) (d : Desc) (i : Nat) : List MrgRec × Bool :=
  let size := d.p 0
  let base := (d.inAddr + o.arg + i * (1 + d.p 3 * size / 64)) * 64
  let n := s.le base 4
  ((List.range (min n (d.p 3))).map (fun j =>
    let a := base + 64 + j * size
    ⟨(s.le a 8, s.le (a + 8) 2, s.le (a + d.p 2) 4), s.bytes a size, s.poisonedIn a size⟩), decide (d.p 3 < n))

/-- MRG MERGE (R127); a poisoned record is poisoned in the output (R119). -/
def execMrgMerge (t c : Nat) (slot : Word) (s : State) : Host.Outcome State Fault Refusal :=
  engRun t 3 c slot.toNat 1 s fun s o d =>
    let size := d.p 0
    let ins := (List.range (d.p 1)).map (mrgInput s o d)
    let raised := ins.map (fun x => raiseKeys x.1 (0, 0, 0) 0)
    let merged := raised.foldl (fun acc x => mergeTwo (acc.length + x.1.length) acc x.1) []
    let nOrd := raised.foldl (fun n x => n + x.2) 0
    let places := d.p 1 * d.p 3
    let body := (merged.map (·.data)).flatten ++ List.replicate ((places - merged.length) * size) 0xFF#8
    let poison := s.poisonedIn ((d.inAddr + o.arg) * 64) (opIn 3 1 d * 64)
    let a := (d.outAddr + o.arg) * 64
    let s' := s.putBytes a (fitBytes 64 (leBytes 4 merged.length) ++ body)
    let marks := ((List.range merged.length).zip merged).filter (·.2.bad)
    let s' := s'.forAll marks (fun s m => s.forAll (List.range (size / 8)) (fun s w =>
      s.setPoison (a + 64 + m.1 * size + 8 * w) true))
    (s', { poison := poison, trunc := ins.any (·.2), order := decide (0 < nOrd), count := merged.length, spec := nOrd })

/-! ## Integrator (R128, R129) -/

/-- A span's entry, if in use. -/
def State.span (s : State) (i : Nat) : Option SpanT := sparseFind s.eng.spans i

/-- Set or free a span. -/
def State.setSpan (s : State) (i : Nat) (x : Option SpanT) : State :=
  let l := sparseErase s.eng.spans i
  { s with eng := { s.eng with spans := match x with
    | some y => sparseIns l i y
    | none => l } }

/-- Apply one SPANS update entry of 32 bytes: kind (1), span index at 2 (2), endpoint at 4 (1), W at 6 (2), STAMP64 at 8
(the places are DESIGN CHOICE, log 28). Kinds 0 OPEN, 1 CLOSE, 2 WEIGHT. Answers whether the entry was refused. -/
def State.spanUpdate (s : State) (a : Nat) : State × Bool :=
  let kind := (s.byte a).toNat
  let i := s.le (a + 2) 2
  let ep := (s.byte (a + 4)).toNat
  let w := min (s.le (a + 6) 2) 0x8000
  let at' := s.le (a + 8) 8
  if 4096 ≤ i then (s, true) else
  match kind, s.span i with
  | 0, none => (s.setSpan i (some ⟨ep, at', none, w, 0, 0, 0, 0⟩), false)
  | 0, some _ => (s, true)
  | 1, some x => (s.setSpan i (some { x with stop := some at' }), false)
  | 2, some x => (s.setSpan i (some { x with w := w }), false)
  | _, _ => (s, false)

/-- Fold of span updates. -/
def spanUpdates (a : Nat) : Nat → State → Bool → State × Bool
  | 0, s, tr => (s, tr)
  | n + 1, s, tr =>
    let x := s.spanUpdate a
    spanUpdates (a + 32) n x.1 (tr || x.2)

/-- INT SPANS (R128). -/
def execIntSpans (t c : Nat) (slot : BitVec 48) (s : State) : Host.Outcome State Fault Refusal :=
  engRun t 4 c slot.toNat 1 s fun s _ d =>
    let n := min (s.le (d.auxAddr * 64) 4) ((d.auxLen - 1) * 2)
    let poison := s.poisonedIn (d.auxAddr * 64) (d.auxLen * 64)
    let (s, tr) := spanUpdates (d.auxAddr * 64 + 64) n s false
    (s, { poison := poison, trunc := tr, count := n })

/-- Credit a sample to the spans that cover it (R129): the energy `e` (v * i * K) and its uncertainty, or a missing mark. -/
def creditSpans (missing : Bool) (e : Int) (u : Nat) (l : List (Nat × SpanT)) (hits : List Nat) : List (Nat × SpanT) :=
  l.map (fun x =>
    if hits.contains x.1 then
      let y := x.2
      (x.1, if missing then { y with missing := y.missing + 1 }
        else { y with energy := y.energy + e * y.w, samples := y.samples + 1,
                      unc := y.unc + cdiv ((e * y.w).natAbs * u) 65536 })
    else x)

/-- A span that loses credit for a sample still counts it (R280). -/
def countSpans (l : List (Nat × SpanT)) (hits : List Nat) : List (Nat × SpanT) :=
  l.map (fun x => if hits.contains x.1 then (x.1, { x.2 with samples := x.2.samples + 1 }) else x)

/-- The spans of an endpoint that cover an instant. -/
def covering (ep at' : Nat) (l : List (Nat × SpanT)) : List Nat :=
  (l.filter (fun x => x.2.ep = ep && x.2.start ≤ at' && (match x.2.stop with
    | some e => decide (at' < e)
    | none => true))).map (·.1)

/-- K_r and U_r of a rail (R128). -/
def State.railCoef (s : State) (ep rail : Nat) : Nat × Nat := (sparseFind s.eng.coef (ep * 48 + rail)).getD (0, 0)

/-- One sample of a frame block (R129, R138's layout as R143): a missing or poisoned sample is a missing sample. -/
def State.accSample (s : State) (base boundary ep rail k : Nat) : State × Bool :=
  let a := base + 1920 * ep + 40 * rail + 4 * k
  let v := s.le a 4
  let missing := v = 0x8000FFFF || s.poisoned a
  let hits := covering ep (boundary + k * 1000) s.eng.spans
  let kr := s.railCoef ep rail
  let e : Int := (v % 65536 : Nat) * sext 16 (v / 65536) * (kr.1 : Int)
  let l := if missing then creditSpans true e kr.2 s.eng.spans hits
    else countSpans (creditSpans false e kr.2 s.eng.spans (hits.take 16)) (hits.drop 16)
  ({ s with eng := { s.eng with spans := l } }, decide (16 < hits.length))

/-- Every sample of `n` endpoints. -/
def State.accFrame (s : State) (base boundary n : Nat) : State × Nat :=
  (List.range (n * 480)).foldl (fun x i =>
    let y := x.1.accSample base boundary (i / 480) (i % 480 / 10) (i % 10)
    (y.1, if y.2 then x.2 + 1 else x.2)) (s, 0)

/-- INT ACC (R128, R129). -/
def execIntAcc (t c : Nat) (slot : BitVec 48) (s : State) : Host.Outcome State Fault Refusal :=
  engRun t 4 c slot.toNat 2 s fun s o d =>
    let a := (d.inAddr + o.arg) * 64
    let poison := s.poisonedIn a (d.inLen * 64)
    let (s, ovr) := s.accFrame (a + 64) (s.le a 8) (d.p 0)
    (s, { poison := poison, bit7 := decide (0 < ovr), spec := ovr, count := d.p 0 })

/-- The 64-byte record of a span that READ writes: index (2), endpoint (1), at 0x10 and 0x20 the accumulators, at 0x30 and
0x34 the counts (the places are DESIGN CHOICE, log 28). -/
def spanRecord (i : Nat) (x : SpanT) : List Byte :=
  leBytes 2 i ++ leBytes 1 x.ep ++ List.replicate 13 0#8 ++ leBytes 16 (ofInt 128 x.energy) ++ leBytes 16 x.unc ++
    leBytes 4 x.samples ++ leBytes 4 x.missing ++ List.replicate 8 0#8

/-- After READ a closed span is freed and an open one starts again from zero (R128). -/
def spanAfterRead (x : SpanT) : Option SpanT :=
  if x.stop.isSome then none else some { x with energy := 0, unc := 0, samples := 0, missing := 0 }

/-- INT READ (R128): closed spans, or with ALL every span with a non-zero accumulator, lowest numbers first. -/
def execIntRead (t c : Nat) (slot : BitVec 48) (s : State) : Host.Outcome State Fault Refusal :=
  engRun t 4 c slot.toNat 3 s fun s o d =>
    let all := bitOf d.flags 0
    let sel := s.eng.spans.filter (fun x => if all then x.2.energy ≠ 0 || x.2.unc ≠ 0 else x.2.stop.isSome)
    let out := sel.take d.outLen
    let s := s.putBytes ((d.outAddr + o.arg) * 64) ((out.map (fun x => spanRecord x.1 x.2)).flatten)
    (out.foldl (fun s x => s.setSpan x.1 (spanAfterRead x.2)) s,
      { trunc := decide (d.outLen < sel.length), count := out.length })

/-- INT COEF (R128): 16 bytes a rail, K_r in 64 bits and U_r in 16. -/
def execIntCoef (t c : Nat) (slot : BitVec 48) (s : State) : Host.Outcome State Fault Refusal :=
  engRun t 4 c slot.toNat 4 s fun s _ d =>
    let a := d.auxAddr * 64
    let n := min (128 * 48) (d.auxLen * 4)
    let co := (List.range n).foldl (fun l i =>
      sparseSet (fun _ => (0, 0)) l i (s.le (a + 16 * i) 8, s.le (a + 16 * i + 8) 2)) s.eng.coef
    ({ s with eng := { s.eng with coef := co } }, { poison := s.poisonedIn a (d.auxLen * 64) })

/-! ## Histogram and extremes (R130) -/

/-- An empty set. -/
def HstSet.empty : HstSet := ⟨[], 0, 0, 0, 0, none, none⟩

/-- One element of instant `at'` into a set (R130): `wide` says FP32, else INT16. -/
def hstAdd (bins lo width : Nat) (h : HstSet) (x at' : Nat) : HstSet :=
  let v := f32 x
  let h := { h with count := satAdd 32 h.count 1 }
  if v == .nan then { h with nan := satAdd 32 h.nan 1 } else
  let h := { h with
    least := match h.least with
      | some (b, st) => if lt32 x b then some (x, at') else some (b, st)
      | none => some (x, at'),
    most := match h.most with
      | some (b, st) => if lt32 b x then some (x, at') else some (b, st)
      | none => some (x, at') }
  let q := (v.sub (f32 lo)).div (f32 width)
  if v.lt (f32 lo) || (q.isFin && decide (q.floor < 0)) then { h with under := satAdd 32 h.under 1 } else
  let k := if q == .nan then Config.binOpen x lo width % (bins + 1) else if q.isFin then q.floor.toNat else bins
  if bins ≤ k then { h with ovr := satAdd 32 h.ovr 1 }
  else { h with bins := sparseSet (fun _ => 0) h.bins k (satAdd 32 (sparseGet (fun _ => 0) h.bins k) 1) }

/-- A histogram set. -/
def State.hstSet (s : State) (i : Nat) : HstSet := (sparseFind s.eng.hst i).getD HstSet.empty

/-- Replace a histogram set. -/
def State.setHst (s : State) (i : Nat) (h : HstSet) : State :=
  { s with eng := { s.eng with hst := sparseIns (sparseErase s.eng.hst i) i h } }

/-- HST ACC (R119, R130). -/
def execHstAcc (t c : Nat) (slot : Word) (s : State) : Host.Outcome State Fault Refusal :=
  engRun t 5 c slot.toNat 1 s fun s o d =>
    let a := (d.inAddr + o.arg) * 64
    let base := s.le a 8
    let short := bitOf d.flags 1
    let per := if short then 2 else 4
    let n := min (s.le (a + 8) 4) ((d.inLen - 1) * 64 / per)
    let h := (List.range n).foldl (fun h k =>
      let b := a + 64 + per * k
      let x := if s.poisoned b then nan32 else if short then rn32 (Fv.ofInt (sext 16 (s.le b 2))) else s.le b 4
      hstAdd (d.p 1) (d.p 2) (d.p 3) h x (base + k * d.p 4)) (s.hstSet (d.p 0))
    let poison := s.poisonedIn a (d.inLen * 64)
    (s.setHst (d.p 0) h, { poison := poison, nonfin := false, count := n })

/-- HST READ (R130): the bins, the 64-byte tail, and the set is cleared. -/
def execHstRead (t c : Nat) (slot : Word) (s : State) : Host.Outcome State Fault Refusal :=
  engRun t 5 c slot.toNat 2 s fun s o d =>
    let h := s.hstSet (d.p 0)
    let bins := (List.range (d.p 1)).map (fun k => sparseGet (fun _ => 0) h.bins k)
    let ex (x : Option (Nat × Nat)) : List Byte := match x with
      | some (v, st) => leBytes 4 v ++ leBytes 4 0 ++ leBytes 8 st
      | none => leBytes 4 nan32 ++ leBytes 12 0
    let tail := fitBytes 64 (unwords [h.under, h.ovr, h.nan, h.count] ++ ex h.least ++ ex h.most)
    let s := s.putBytes ((d.outAddr + o.arg) * 64) (unwords bins ++ tail)
    (s.setHst (d.p 0) HstSet.empty, { count := h.count, nonfin := h.least.isNone })

/-! ## Splines (R131) -/

/-- Read a table from AUX: a header granule with the kind at 0 (0: 1-D, 1: 2-D), the counts at 4 and 8; 1-D segments of 64
bytes (start knot, six coefficients, slope bound, error bound), then the end; 2-D knots in x, knots in y, then cells of 128
bytes (16 coefficients, L_x, L_y, E) (DESIGN CHOICE, log 28). -/
def State.readSpline (s : State) (a : Nat) : SplTab :=
  let kind := s.le a 4
  let n := min (s.le (a + 4) 4) 256
  if kind = 0 then
    let seg (i : Nat) : SplSeg :=
      let w := s.f32s (a + 64 + 64 * i) 9
      ⟨w.getD 0 0, (w.drop 1).take 6, w.getD 7 0, w.getD 8 0⟩
    ⟨(List.range n).map seg, s.f32At (a + 64 + 64 * n), [], [], []⟩
  else
    let nx := min (s.le (a + 4) 4) 32
    let ny := min (s.le (a + 8) 4) 32
    let cell (i : Nat) : SplCell :=
      let w := s.f32s (a + 64 + 256 + 128 * i) 19
      ⟨w.take 16, w.getD 16 0, w.getD 17 0, w.getD 18 0⟩
    ⟨[], 0, s.f32s (a + 64) (nx + 1), s.f32s (a + 64 + 128) (ny + 1), (List.range (nx * ny)).map cell⟩

/-- A spline table. -/
def State.splTab (s : State) (i : Nat) : SplTab := (sparseFind s.eng.spl i).getD ⟨[], 0, [], [], []⟩

/-- SPL TABLE (R131). -/
def execSplTable (t c : Nat) (slot : Word) (s : State) : Host.Outcome State Fault Refusal :=
  engRun t 6 c slot.toNat 1 s fun s _ d =>
    let x := s.readSpline (d.auxAddr * 64)
    ({ s with eng := { s.eng with spl := sparseIns (sparseErase s.eng.spl (d.p 0)) (d.p 0) x } },
      { poison := s.poisonedIn (d.auxAddr * 64) (d.auxLen * 64) })

/-- The last index whose knot is not above a value. -/
def knotIdx (knots : List Nat) (x : Fv) : Nat := (knots.filter (fun k => (f32 k).le x)).length - 1

/-- A polynomial's exact value: c0 + u (c1 + u (...)). -/
def horner (u : Fv) : List Fv → Fv
  | [] => .zero
  | [c] => c
  | c :: r => c.add (u.mul (horner u r))

/-- A value within `e` of the exact value `p`: the engine's where it is one, else `p` rounded (R131, log 28). -/
def withinE (hat : Nat) (p e : Fv) : Nat :=
  let v := hat % 2 ^ 32
  if (f32 v).isFin && (((f32 v).sub p).abs).le e then v else rn32 p

/-- Clamp to [lo, hi], and whether it was outside. -/
def clampF (lo hi x : Nat) : Nat × Bool := if lt32 x lo then (lo, true) else if lt32 hi x then (hi, true) else (x, false)

/-- A result: value, radius, outside the table. -/
structure SplOut where
  y : Nat
  r : Nat
  out : Bool
  deriving DecidableEq, Repr

/-- The larger of two FP32 codes. -/
def max32 (a b : Nat) : Nat := if lt32 a b then b else a

/-- L between two segment indices (R131). -/
def splL (l : List Nat) (a b : Nat) : Nat :=
  if b ≤ a + 1 then max32 (l.getD a 0) (l.getD b 0) else l.foldl max32 0

/-- EVAL1 at a point with radius (R131): a value within E of the polynomial. -/
def eval1 (tb : SplTab) (x r : Nat) : SplOut :=
  if fp32.isNan x then ⟨nan32, inf32, false⟩ else
  let knots := tb.segs.map (·.knot)
  let (xc, out) := clampF (knots.getD 0 0) tb.stop x
  let i := knotIdx knots (f32 xc)
  let sg := tb.segs.getD i ⟨0, [], 0, 0⟩
  let y := withinE (Config.splineHat sg.coef (sub32 xc sg.knot) 0) (horner ((f32 xc).sub (f32 sg.knot)) (sg.coef.map f32)) (f32 sg.err)
  let lo := knotIdx knots ((f32 xc).sub (f32 r))
  let hi := knotIdx knots ((f32 xc).add (f32 r))
  let l := splL (tb.segs.map (·.slope)) lo hi
  ⟨canon32 y, if out then inf32 else ru32 (((f32 l).mul (f32 r)).add (f32 sg.err)), out⟩

/-- EVAL2 at a point with radii (R131). -/
def eval2 (tb : SplTab) (x y rx ry : Nat) : SplOut :=
  if fp32.isNan x || fp32.isNan y then ⟨nan32, inf32, false⟩ else
  let (xc, ox) := clampF (tb.xs.getD 0 0) (tb.xs.getLast?.getD 0) x
  let (yc, oy) := clampF (tb.ys.getD 0 0) (tb.ys.getLast?.getD 0) y
  let ny := tb.ys.length - 1
  let ix := min (knotIdx tb.xs (f32 xc)) (tb.xs.length - 2)
  let iy := min (knotIdx tb.ys (f32 yc)) (ny - 1)
  let cell (i j : Nat) : SplCell := tb.cells.getD (min i (tb.xs.length - 2) * ny + min j (ny - 1)) ⟨[], 0, 0, 0⟩
  let ce := cell ix iy
  let u := (f32 xc).sub (f32 (tb.xs.getD ix 0))
  let v := (f32 yc).sub (f32 (tb.ys.getD iy 0))
  let p := horner u ((List.range 4).map (fun k => horner v (((ce.coef.drop (4 * k)).take 4).map f32)))
  let z := withinE (Config.splineHat ce.coef (rn32 u) (rn32 v)) p (f32 ce.err)
  let ax := knotIdx tb.xs ((f32 xc).sub (f32 rx))
  let bx := knotIdx tb.xs ((f32 xc).add (f32 rx))
  let ay := knotIdx tb.ys ((f32 yc).sub (f32 ry))
  let byy := knotIdx tb.ys ((f32 yc).add (f32 ry))
  let near := bx ≤ ax + 1 && byy ≤ ay + 1
  let lx := if near then max32 (cell ax ay).lx (cell bx byy).lx else (tb.cells.map (·.lx)).foldl max32 0
  let ly := if near then max32 (cell ax ay).ly (cell bx byy).ly else (tb.cells.map (·.ly)).foldl max32 0
  let out := ox || oy
  ⟨canon32 z, if out then inf32
    else ru32 ((((f32 lx).mul (f32 rx)).add ((f32 ly).mul (f32 ry))).add (f32 ce.err)), out⟩

/-- Write an evaluation's plane of values and, in ball mode, its plane of radii (each starting on a granule). -/
def State.splWrite (s : State) (g : Nat) (ball : Bool) (l : List SplOut) : State × OpOut :=
  let n := cdiv (l.length * 4) 64
  let s := s.putBytes (g * 64) (unwords (l.map (·.y)))
  let s := if ball then s.putBytes ((g + n) * 64) (unwords (l.map (·.r))) else s
  let nOut := (l.filter (·.out)).length
  (s, { range := decide (0 < nOut), count := nOut, spec := nOut,
        nonfin := l.any (fun x => nonfin32 x.y || (ball && nonfin32 x.r)) })

/-- SPL EVAL1 (R131): PARAM1 points. -/
def execSplEval1 (t c : Nat) (slot : Word) (s : State) : Host.Outcome State Fault Refusal :=
  engRun t 6 c slot.toNat 2 s fun s o d =>
    let a := (d.inAddr + o.arg) * 64
    let n := d.p 1
    let pl := cdiv (n * 4) 64 * 64
    let ball := bitOf d.flags 0
    let l := (List.range n).map (fun i => eval1 (s.splTab (d.p 0)) (s.f32At (a + 4 * i))
      (if ball then s.f32At (a + pl + 4 * i) else 0))
    let (s', r) := s.splWrite (d.outAddr + o.arg) ball l
    (s', { r with poison := s.poisonedIn a (d.inLen * 64) })

/-- SPL EVAL2 (R131): an x plane, then a y plane, each followed by its radius plane in ball mode. -/
def execSplEval2 (t c : Nat) (slot : Word) (s : State) : Host.Outcome State Fault Refusal :=
  engRun t 6 c slot.toNat 3 s fun s o d =>
    let a := (d.inAddr + o.arg) * 64
    let n := d.p 1
    let pl := cdiv (n * 4) 64 * 64
    let ball := bitOf d.flags 0
    let yOff := if ball then 2 * pl else pl
    let rd (i : Nat) : Nat := s.f32At (a + i)
    let l := (List.range n).map (fun i => eval2 (s.splTab (d.p 0)) (rd (4 * i)) (rd (yOff + 4 * i))
      (if ball then rd (pl + 4 * i) else 0) (if ball then rd (yOff + pl + 4 * i) else 0))
    let (s', r) := s.splWrite (d.outAddr + o.arg) ball l
    (s', { r with poison := s.poisonedIn a (d.inLen * 64) })

/-! ## Select (R132) -/

/-- Is element `a` before `b`: by value in the direction asked, ties to the lower index (R132)? -/
def selBefore (small : Bool) (a b : Nat × Nat) : Bool :=
  if small then lt32 a.1 b.1 || (!lt32 b.1 a.1 && a.2 < b.2) else lt32 b.1 a.1 || (!lt32 a.1 b.1 && a.2 < b.2)

/-- Insertion into a sorted list. -/
def selIns (small : Bool) (x : Nat × Nat) : List (Nat × Nat) → List (Nat × Nat)
  | [] => [x]
  | y :: r => if selBefore small x y then x :: y :: r else y :: selIns small x r

/-- The values that are not NaN, sorted with their indices. -/
def selSort (small : Bool) (l : List Nat) : List (Nat × Nat) :=
  (((List.range l.length).zipWith (fun i v => (v, i)) l).filter (fun x => !fp32.isNan x.1)).foldl
    (fun acc x => selIns small x acc) []

/-- Write a selection: the values, then their 32-bit indices; NaN throughout after poison (R119). -/
def State.selWrite (s : State) (g : Nat) (poison : Bool) (l : List (Nat × Nat)) (nan : Nat) : State × OpOut :=
  let vs := l.map (fun x => if poison then nan32 else x.1)
  let is := l.map (fun x => if poison then nan32 else x.2)
  (s.putBytes (g * 64) (unwords (vs ++ is)), { poison := poison, nonfin := vs.any nonfin32, count := nan })

/-- A value and an index that a selection does not find: the spec states none (R132, log 28). -/
def State.selOpen (s : State) (i : Nat) : Nat × Nat :=
  (Config.freeValue s.free (2 * i) % 2 ^ 32, Config.freeValue s.free (2 * i + 1) % 2 ^ 32)

/-- SEL TOPK (R132). -/
def execSelTopk (t c : Nat) (slot : Word) (s : State) : Host.Outcome State Fault Refusal :=
  engRun t 7 c slot.toNat 1 s fun s o d =>
    let (s, raw, poison) := s.takeGran (d.inAddr + o.arg) d.inLen
    let vs := (words32 raw).take (d.p 1)
    let l := selSort (bitOf d.flags 0) vs
    let out := (List.range (d.p 0)).map (fun i => l.getD i (s.selOpen i))
    (s.fresh.2).selWrite (d.outAddr + o.arg) poison out (vs.length - l.length)

/-- SEL QUANT (R132): the value of rank p N' rounded up, p = 0 giving the minimum. -/
def execSelQuant (t c : Nat) (slot : Word) (s : State) : Host.Outcome State Fault Refusal :=
  engRun t 7 c slot.toNat 2 s fun s o d =>
    let (s, raw, p1) := s.takeGran (d.inAddr + o.arg) d.inLen
    let (s, lraw, p2) := s.takeGran d.auxAddr d.auxLen
    let vs := (words32 raw).take (d.p 1)
    let l := selSort true vs
    let out := ((words32 lraw).take (d.p 0)).zipIdx.map (fun p =>
      let r := -(((f32 p.1).mul (Fv.ofNat l.length)).neg.floor)
      l.getD ((max r 1).toNat - 1) (s.selOpen p.2))
    (s.fresh.2).selWrite (d.outAddr + o.arg) (p1 || p2) out (vs.length - l.length)

/-! ## Hash (R133) -/

/-- HSH LEAF (R133): SHA-256 of 0x00 and each record. -/
def execHshLeaf (t c : Nat) (slot : Word) (s : State) : Host.Outcome State Fault Refusal :=
  engRun t 8 c slot.toNat 1 s fun s o d =>
    let g := cdiv (d.p 1) 64
    let a := (d.inAddr + o.arg) * 64
    let (s, _, poison) := s.takeGran (d.inAddr + o.arg) (d.p 0 * g)
    let ds := (List.range (d.p 0)).map (fun i => sha256 (0#8 :: s.bytes (a + i * g * 64) (d.p 1)))
    (s.putBytes ((d.outAddr + o.arg) * 64) ds.flatten, { poison := poison, count := d.p 0 })

/-- One Merkle level (R133): pairs hashed under 0x01, an odd last digest copied unchanged. -/
def merkleLevel : List (List Byte) → List (List Byte)
  | a :: b :: r => sha256 (1#8 :: (a ++ b)) :: merkleLevel r
  | l => l

/-- HSH NODE (R133). -/
def execHshNode (t c : Nat) (slot : Word) (s : State) : Host.Outcome State Fault Refusal :=
  engRun t 8 c slot.toNat 2 s fun s o d =>
    let (s, raw, poison) := s.takeGran (d.inAddr + o.arg) (cdiv (d.p 0) 2)
    let ds := merkleLevel (pieces 32 (d.p 0) raw)
    (s.putBytes ((d.outAddr + o.arg) * 64) ds.flatten, { poison := poison, count := ds.length })

end Sys2Proof.Machine
end

