-- ==== Sys2Proof/Machine/Numeric.lean ====
section
/-!
DEFINITION. The QP engine (R121 to R124) and the estimator engine (R125, R126): FP32 arithmetic with every sum in
ascending index order.
-/
namespace Sys2Proof.Machine

/-- Vectors of FP32 codes. -/
abbrev FVec := List Nat

/-- Element of a vector. -/
def fe (v : List Nat) (i : Nat) : Nat := v.getD i 0

/-- Sum in ascending order. -/
def sum32 (l : FVec) : Nat := l.foldl add32 0

/-- Dot product in ascending order. -/
def dot32 (a b : FVec) : Nat := sum32 (List.zipWith mul32 a b)

/-- Elementwise combination. -/
def vmap2 (f : Nat → Nat → Nat) (a b : FVec) : FVec := List.zipWith f a b

/-- Times a scalar. -/
def vscale (k : Nat) (a : FVec) : FVec := a.map (mul32 k)

/-- Largest magnitude. -/
def normInf (a : FVec) : Nat := a.foldl (fun m x => max32 m (abs32 x)) 0

/-! ## QP (R121 to R124) -/

/-- P_ij of the banded matrix (R121, R123). -/
def QpSt.pAt (q : QpSt) (i j : Nat) : Nat :=
  let d := if i ≤ j then j - i else i - j
  if q.w < d then 0 else q.pDiag.getD (d * q.n + min i j) 0

/-- Indices of a row's band. -/
def QpSt.band (q : QpSt) (i : Nat) : List Nat := (List.range q.n).filter (fun j => i ≤ j + q.w && j ≤ i + q.w)

/-- P x. -/
def QpSt.mulP (q : QpSt) (x : FVec) : FVec :=
  (List.range q.n).map (fun i => sum32 ((q.band i).map (fun j => mul32 (q.pAt i j) ((fe x j)))))

/-- Non-zeros of row `r` of G as (column, value). -/
def QpSt.gRow (q : QpSt) (r : Nat) : List (Nat × Nat) :=
  let a := q.rowStart.getD r 0
  let b := q.rowStart.getD (r + 1) 0
  (List.range (b - a)).map (fun k => (q.colIdx.getD (a + k) 0, q.vals.getD (a + k) 0))

/-- A x, the blocks I, D and G stacked (R122). -/
def QpSt.mulA (q : QpSt) (x : FVec) : FVec :=
  x ++ q.pairs.map (fun p => sub32 ((fe x p.1)) ((fe x p.2))) ++
    (List.range q.mG).map (fun r => sum32 ((q.gRow r).map (fun e => mul32 e.2 ((fe x e.1)))))

/-- Add a value into an element. -/
def addAt (v : FVec) (i x : Nat) : FVec := v.set i (add32 ((fe v i)) x)

/-- The transpose of A times y, rows added in ascending order. -/
def QpSt.mulAt (q : QpSt) (y : FVec) : FVec :=
  let v := y.take q.n
  let v := ((List.range q.pairs.length).zip q.pairs).foldl (fun v p =>
    addAt (addAt v p.2.1 ((fe y (q.n + p.1)))) p.2.2 (neg32 ((fe y (q.n + p.1))))) v
  (List.range q.mG).foldl (fun v r =>
    (q.gRow r).foldl (fun v e => addAt v e.1 (mul32 e.2 ((fe y (q.n + q.mD + r))))) v) v

/-- A setting: 0 to 2 the rho of each block, 3 sigma, 4 alpha, 5 and 6 the tolerances (R123). -/
def QpSt.setting (q : QpSt) (i : Nat) : Nat := q.sets.getD i 0

/-- FP32 1000 and 1. -/
def f1000 : Nat := 0x447A0000
def fOne : Nat := 0x3F800000

/-- rho per row: the block's value, 1,000 times it on equality rows (R122). -/
def QpSt.rho (q : QpSt) : FVec :=
  (List.range (q.n + q.mD + q.mG)).map (fun i =>
    let b := q.setting (if i < q.n then 0 else if i < q.n + q.mD then 1 else 2)
    if (fe q.lo i) = (fe q.hi i) then mul32 f1000 b else b)

/-- K x with K = P + sigma I + A^T rho A. -/
def QpSt.mulK (q : QpSt) (rho x : FVec) : FVec :=
  vmap2 add32 (vmap2 add32 (q.mulP x) (vscale (q.setting 3) x)) (q.mulAt (vmap2 mul32 rho (q.mulA x)))

/-- The Jacobi preconditioner: K's diagonal, each row's terms in ascending order (R122). -/
def QpSt.diagK (q : QpSt) (rho : FVec) : FVec :=
  let d := (List.range q.n).map (fun i => add32 (add32 (q.pAt i i) (q.setting 3)) ((fe rho i)))
  let d := ((List.range q.pairs.length).zip q.pairs).foldl (fun v p =>
    addAt (addAt v p.2.1 ((fe rho (q.n + p.1)))) p.2.2 ((fe rho (q.n + p.1)))) d
  (List.range q.mG).foldl (fun v r =>
    (q.gRow r).foldl (fun v e => addAt v e.1 (mul32 ((fe rho (q.n + q.mD + r))) (mul32 e.2 e.2))) v) d

/-- A quotient of the conjugate gradients: open where the denominator is 0 (log 29). -/
def cgDiv (a b : Nat) : Nat := if (f32 b).isZero then Config.cgQuotient a b % 2 ^ 32 else div32 a b

/-- Preconditioned conjugate gradients from x for a fixed number of steps (R122). -/
def cgGo (q : QpSt) (rho dg : FVec) : Nat → FVec → FVec → FVec → Nat → FVec
  | 0, x, _, _, _ => x
  | k + 1, x, r, p, rz =>
    let kp := q.mulK rho p
    let den := dot32 p kp
    let a := cgDiv rz den
    let x := vmap2 add32 x (vscale a p)
    let r := vmap2 sub32 r (vscale a kp)
    let z := vmap2 div32 r dg
    let rz' := dot32 r z
    let b := cgDiv rz' rz
    cgGo q rho dg k x r (vmap2 add32 z (vscale b p)) rz'

/-- cg of R122. -/
def QpSt.cgSolve (q : QpSt) (rho rhs x : FVec) (steps : Nat) : FVec :=
  let dg := q.diagK rho
  let r := vmap2 sub32 rhs (q.mulK rho x)
  let z := vmap2 div32 r dg
  cgGo q rho dg steps x r z (dot32 r z)

/-- Clamp to bounds. -/
def clamp32 (x l u : Nat) : Nat := if lt32 x l then l else if lt32 u x then u else x

/-- One iteration of R122. -/
def QpSt.iterate (q : QpSt) : QpSt :=
  let rho := q.rho
  let rhs := vmap2 add32 (vmap2 sub32 (vscale (q.setting 3) q.x) q.q) (q.mulAt (vmap2 sub32 (vmap2 mul32 rho q.z) q.y))
  let xt := q.cgSolve rho rhs q.x q.cg
  let zt := q.mulA xt
  let al := q.setting 4
  let be := sub32 fOne al
  let x := vmap2 add32 (vscale al xt) (vscale be q.x)
  let zr := vmap2 add32 (vscale al zt) (vscale be q.z)
  let want := vmap2 add32 zr (vmap2 div32 q.y rho)
  let zn := (List.range want.length).map (fun i => clamp32 ((fe want i)) ((fe q.lo i)) ((fe q.hi i)))
  let y := vmap2 add32 q.y (vmap2 mul32 rho (vmap2 sub32 zr zn))
  { q with x := x, z := zn, y := y, iters := q.iters + 1 }

/-- `k` iterations. -/
def QpSt.iterN : Nat → QpSt → QpSt
  | 0, q => q
  | k + 1, q => QpSt.iterN k q.iterate

/-- Byte offset of array `i` of IN (R123). -/
def qpOff (d : Desc) (i : Nat) : Nat := ((qpArrays d).take i).foldl (· + ·) 0 * 64

/-- QPE LOAD (R121, R123, R124): a lower bound above its upper bound sets INFEASIBLE; WARM keeps the iterates. -/
def execQpeLoad (t c : Nat) (slot : BitVec 48) (s : State) : Host.Outcome State Fault Refusal :=
  engRun t 1 c slot.toNat 1 s fun s o d =>
    let (s, raw, poison) := s.takeGran (d.inAddr + o.arg) d.inLen
    let ws (i n : Nat) : List Nat := (words32 (raw.drop (qpOff d i))).take n
    let hs (i n : Nat) : List Nat := (List.range n).map (fun k => ofLe ((raw.drop (qpOff d i + 2 * k)).take 2))
    let n := qpN d
    let pr := (ws 5 (qpMD d)).map (fun w => (w % 65536, w / 65536))
    let lo := ws 3 n ++ ws 6 (qpMD d) ++ ws 11 (qpMG d)
    let hi := ws 4 n ++ ws 7 (qpMD d) ++ ws 12 (qpMG d)
    let bad := (vmap2 (fun l u => b2n (lt32 u l)) lo hi).any (· = 1)
    let warm := bitOf d.flags 0
    let old := s.eng.qp
    let q : QpSt :=
    { n := n, w := qpW d, mD := qpMD d, mG := qpMG d, cg := qpCg d, sets := ws 0 7,
      pDiag := ws 1 ((qpW d + 1) * n), q := ws 2 n, lo := lo, hi := hi, pairs := pr, rowStart := ws 8 (qpMG d + 1),
      colIdx := hs 9 (qpNnz d), vals := ws 10 (qpNnz d),
      x := if warm then old.x else List.replicate n 0,
      z := if warm then old.z else vmap2 (fun l u => clamp32 0 l u) lo hi,
      y := if warm then old.y else List.replicate lo.length 0, iters := 0, infeasible := bad, poison := poison }
    ({ s with eng := { s.eng with qp := q } }, { poison := poison, bit6 := bad })

/-- QPE ITER (R122): exactly ARG2 iterations; an infeasible problem leaves every iterate unchanged. -/
def execQpeIter (t c : Nat) (slot : BitVec 48) (s : State) : Host.Outcome State Fault Refusal :=
  engRun t 1 c slot.toNat 2 s fun s o _ =>
    let q := s.eng.qp
    let q' := if q.infeasible then { q with iters := q.iters + o.arg2 } else QpSt.iterN o.arg2 q
    ({ s with eng := { s.eng with qp := q' } }, { poison := q.poison })

/-- r_p and r_d, and whether both tolerances hold (R122). -/
def QpSt.residuals (q : QpSt) : Nat × Nat × Bool :=
  let ax := q.mulA q.x
  let px := q.mulP q.x
  let aty := q.mulAt q.y
  let rp := normInf (vmap2 sub32 ax q.z)
  let rd := normInf (vmap2 add32 (vmap2 add32 px q.q) aty)
  let ea := q.setting 5
  let er := q.setting 6
  let okP := !lt32 (add32 ea (mul32 er (max32 (normInf ax) (normInf q.z)))) rp && !fp32.isNan rp
  let okD := !lt32 (add32 ea (mul32 er (max32 (max32 (normInf px) (normInf aty)) (normInf q.q)))) rd && !fp32.isNan rd
  (rp, rd, okP && okD)

/-- Values padded to whole granules. -/
def granVals (l : List Nat) : List Byte := fitBytes (cdiv (l.length * 4) 64 * 64) (unwords l)

/-- QPE STORE (R122, R123). -/
def execQpeStore (t c : Nat) (slot : BitVec 48) (s : State) : Host.Outcome State Fault Refusal :=
  engRun t 1 c slot.toNat 3 s fun s o d =>
    let q := s.eng.qp
    let f (l : List Nat) : List Nat := if q.poison then l.map (fun _ => nan32) else l.map canon32
    let r := q.residuals
    let all := f q.x ++ f q.y ++ f q.z
    (s.putBytes ((d.outAddr + o.arg) * 64) (granVals (f q.x) ++ granVals (f q.y) ++ granVals (f q.z)),
      { poison := q.poison, nonfin := all.any nonfin32, bit6 := r.2.2 && !q.infeasible, count := q.iters,
        detail := leBytes 4 r.1 ++ leBytes 4 r.2.1, spec := if r.2.2 && !q.infeasible then 0 else 1 })
/-! ## Estimator (R125) -/

/-- A matrix as rows. -/
abbrev FMat := List FVec

/-- Product of matrices, sums in ascending order. -/
def mMul (a b : FMat) (cols : Nat) : FMat :=
  a.map (fun r => (List.range cols).map (fun j => sum32 ((List.range r.length).map (fun k => mul32 ((fe r k)) ((fe (b.getD k []) j))))))

/-- Transpose of a matrix with a number of columns. -/
def mTr (a : FMat) (cols : Nat) : FMat := (List.range cols).map (fun j => a.map (fun r => (fe r j)))

/-- Sum of matrices. -/
def mAdd (a b : FMat) : FMat := List.zipWith (vmap2 add32) a b

/-- Product with a vector. -/
def mApp (a : FMat) (v : FVec) : FVec := a.map (fun r => dot32 r v)

/-- Index in the upper triangle, row by row, of an 8 by 8 matrix (R125). -/
def triIdx (i j : Nat) : Nat := (min i j) * 8 - (min i j) * (min i j - 1) / 2 + (max i j - min i j)

/-- A symmetric matrix of order `n` from an upper triangle of order 8. -/
def symOf (n : Nat) (tri : FVec) : FMat := (List.range n).map (fun i => (List.range n).map (fun j => (fe tri (triIdx i j))))

/-- The upper triangle with a symmetric matrix of order `n` written into it. -/
def triPut (tri : FVec) (n : Nat) (m : FMat) : FVec :=
  (List.range n).foldl (fun t i => (List.range n).foldl (fun t j => if i ≤ j then t.set (triIdx i j) ((fe (m.getD i []) j)) else t) t) tri

/-- A model block (R125). -/
structure EstBlk where
  x : FVec
  tri : FVec
  marks : Nat
  nis : Nat
  updates : Nat
  deriving DecidableEq, Repr

/-- Read a model block. -/
def State.estRead (s : State) (a : Nat) : EstBlk :=
  ⟨s.f32s a 8, s.f32s (a + 0x20) 36, s.le (a + 0xB0) 4, s.le (a + 0xB4) 4, s.le (a + 0xB8) 4⟩

/-- Write a model block. -/
def State.estWrite (s : State) (a : Nat) (b : EstBlk) : State :=
  s.putBytes a (fitBytes 256 (unwords (b.x.map canon32) ++ unwords (b.tri.map canon32) ++ leBytes 4 b.marks ++
    leBytes 4 b.nis ++ leBytes 4 b.updates))

/-- Every entry finite. -/
def matFinite (m : FMat) : Bool := m.all (fun r => r.all (fun x => !nonfin32 x))

/-- Is any diagonal entry negative? -/
def diagNeg (m : FMat) : Bool := (List.range m.length).any (fun i => lt32 ((fe (m.getD i []) i)) 0)

/-- Diagonals below the floor are raised to it. -/
def floorDiag (pmin : Nat) (m : FMat) : FMat :=
  (List.range m.length).zipWith (fun i r => if lt32 ((fe r i)) pmin then r.set i pmin else r) m

/-- Take new x and P, or mark DIVERGED with the prior values kept (R125). -/
def EstBlk.accept (b : EstBlk) (n : Nat) (x : FVec) (p : FMat) (pmin : Option Nat) : EstBlk × Bool :=
  if x.any nonfin32 || !matFinite p || diagNeg p then ({ b with marks := b.marks ||| 1 }, true)
  else
    let p := match pmin with
      | some f => floorDiag f p
      | none => p
    ({ b with x := x ++ b.x.drop n, tri := triPut b.tri n p }, false)

/-- PREDICT of a model (R125): x takes F x + b, P takes F P F^T + Q. -/
def estPredict (s : State) (n : Nat) (a : Nat) (b : EstBlk) : EstBlk × Bool :=
  let f := (List.range n).map (fun i => s.f32s (a + 32 * i) n)
  let bb := s.f32s (a + 0x100) n
  let q := symOf n (s.f32s (a + 0x120) 36)
  let x := vmap2 add32 ((mApp f (b.x.take n))) bb
  let p := (mAdd ((mMul ((mMul f (symOf n b.tri) n)) ((mTr f n)) n)) q)
  b.accept n x p none

/-- Cholesky factor of a symmetric matrix of order `m`, by rows; none where it is not positive definite. -/
def cholRow (sm : FMat) (l : FMat) (i : Nat) : Nat → Nat → FVec → Option FVec
  | 0, _, row => some row
  | k + 1, j, row =>
    let dots := sum32 ((List.range j).map (fun u => mul32 ((fe row u)) ((fe (if i = j then row else l.getD j []) u))))
    let v := sub32 ((fe (sm.getD i []) j)) dots
    if i = j then (if (f32 v).isFin && lt32 0 v then some (row ++ [sqrt32 v]) else none)
    else cholRow sm l i k (j + 1) (row ++ [div32 v ((fe (l.getD j []) j))])

/-- The rows of the factor from `i` on. -/
def cholGo (sm : FMat) (m : Nat) : Nat → Nat → FMat → Option FMat
  | 0, _, l => some l
  | k + 1, i, l =>
    match cholRow sm l i (i + 1) 0 [] with
    | some r => cholGo sm m k (i + 1) (l ++ [r])
    | none => none

/-- Solve L u = v. -/
def forwardSub (l : FMat) (v : FVec) : FVec :=
  (List.range v.length).foldl (fun u i =>
    u ++ [div32 (sub32 ((fe v i)) (dot32 ((l.getD i []).take i) u)) ((fe (l.getD i []) i))]) []

/-- Solve L^T u = v, last element first. -/
def backSub (l : FMat) (v : FVec) : FVec :=
  let n := v.length
  (List.range n).foldl (fun u k =>
    let i := n - 1 - k
    let sm := sum32 ((List.range k).map (fun j => mul32 ((fe (l.getD (i + 1 + j) []) i)) ((fe u j))))
    div32 (sub32 ((fe v i)) sm) ((fe (l.getD i []) i)) :: u) []

/-- UPDATE of a model (R125). -/
def estUpdate (s : State) (n p gate pmin : Nat) (a : Nat) (b : EstBlk) : EstBlk × Bool :=
  let y := s.f32s a p
  let yh := s.f32s (a + 0x10) p
  let h := (List.range p).map (fun i => s.f32s (a + 0x20 + 32 * i) n)
  let noise := s.f32s (a + 0xA0) p
  let pm := symOf n b.tri
  let ht := (mTr h n)
  let pht := (mMul pm ht p)
  let s0 := (mMul h pht p)
  let sm := (List.range p).zipWith (fun i (r : FVec) => r.set i (add32 ((fe r i)) ((fe noise i)))) s0
  let nu := vmap2 sub32 y yh
  match cholGo sm p p 0 [] with
  | none => ({ b with marks := b.marks ||| 1 }, true)
  | some l =>
    let si := backSub l (forwardSub l nu)
    let nis := dot32 nu si
    if nonfin32 nis then ({ b with marks := b.marks ||| 1 }, true)
    else if lt32 gate nis then ({ b with marks := b.marks ||| 2, nis := nis }, false)
    else
      let k : FMat := pht.map (fun r => backSub l (forwardSub l r))
      let x := vmap2 add32 (b.x.take n) ((mApp k nu))
      let kh := (mMul k h n)
      let ikh := (List.range n).map (fun i => (List.range n).map (fun j =>
        sub32 (if i = j then fOne else 0) ((fe (kh.getD i []) j))))
      let knk := (mMul (k.map (fun r => vmap2 mul32 r noise)) ((mTr k p)) n)
      let pn := (mAdd ((mMul ((mMul ikh pm n)) ((mTr ikh n)) n)) knk)
      let r := b.accept n x pn (some pmin)
      if r.2 then r else ({ r.1 with nis := nis, updates := r.1.updates + 1, marks := r.1.marks &&& 0xFFFFFFFD }, false)

/-- One model of an op: its block is read, worked and written back to OUT; a poisoned input makes its values NaN and marks
POISON (R119, R125). Answers whether it was marked DIVERGED by this op. -/
def State.estModel (s : State) (o : EngOp) (d : Desc) (i : Nat) : State × Bool :=
  let a := (d.inAddr + o.arg + 4 * i) * 64
  let aux := (if o.op = 2 then d.auxAddr + 3 * i else if bitOf d.flags 0 then d.auxAddr else d.auxAddr + 8 * i) * 64
  let bad := s.poisonedIn a 256 || s.poisonedIn aux (if o.op = 2 then 192 else 512)
  let b := s.estRead a
  let b := if bad then { b with marks := b.marks ||| 4 } else b
  let r := if o.op = 2 then estUpdate s (d.p 0) (d.p 1) (d.p 3) (d.p 4) aux b else estPredict s (d.p 0) aux b
  (s.estWrite ((d.outAddr + o.arg + 4 * i) * 64) r.1, r.2)

/-- All models of an op. -/
def State.estAll (s : State) (o : EngOp) (d : Desc) : State × OpOut :=
  let r := (List.range (d.p 2)).foldl (fun x i =>
    let y := x.1.estModel o d i
    (y.1, if y.2 then x.2 + 1 else x.2)) (s, 0)
  let poison := s.poisonedIn ((d.inAddr + o.arg) * 64) (d.p 2 * 256)
  (r.1, { poison := poison, bit7 := decide (0 < r.2), count := d.p 2, spec := r.2 })

/-- EST PREDICT (R125). -/
def execEstPredict (t c : Nat) (slot : BitVec 48) (s : State) : Host.Outcome State Fault Refusal :=
  engRun t 2 c slot.toNat 1 s fun s o d => s.estAll o d

/-- EST UPDATE (R125). -/
def execEstUpdate (t c : Nat) (slot : BitVec 48) (s : State) : Host.Outcome State Fault Refusal :=
  engRun t 2 c slot.toNat 2 s fun s o d => s.estAll o d

end Sys2Proof.Machine
end

