-- ==== Sys2Proof/Machine/Shm.lean ====
section
/-!
DEFINITION. Data movement and the memories (R107 to R113, R134 to R142): DMA channels, ingress and egress, the window
accesses of bank group 15, scrubbing, and the MRDIMM channels.
-/
namespace Sys2Proof.Machine

/-! ## DMA channels (R134, R135) -/

/-- Copy a granule with its poison (R119). -/
def State.copyGran (s : State) (src dst : Nat) : State :=
  let marks := (List.range 8).filter (fun w => s.poisoned (src + 8 * w))
  (s.putBytes dst (s.bytes src 64)).forAll marks (fun s w => s.setPoison (dst + 8 * w) true)

/-- Copy a granule into tile SRAM: a poisoned granule is written as NaN (R134). -/
def State.granToTile (s : State) (src dst : Nat) : State :=
  if s.poisonedIn src 64 then s.setBytes dst (unwords (List.replicate 16 nan32)) else s.setBytes dst (s.bytes src 64)

/-- Carry out a static DMA op's movements. -/
def State.dmaMove (s : State) (op die : Nat) (mv : List (Nat × Nat)) : State :=
  s.forAll mv (fun s m =>
    match op with
    | 4 => s.granToTile (m.1 * 64) (dieAddr die m.2)
    | 5 => s.putBytes (m.2 * 64) (s.bytes (dieAddr die m.1) 64)
    | _ => s.copyGran (m.1 * 64) (m.2 * 64))

/-- A static DMA op (R134): the movements in order; the status reports POISON where a source granule was poisoned. -/
def dmaStatic (t c : Nat) (ch : Fin 4) (slot : BitVec 40) (op : Nat) (s : State) : Host.Outcome State Fault Refusal :=
  engRun t (9 + ch) c slot.toNat op s fun s o d =>
    let mv := dmaMoves (fun k => srcLe s.descSrc (indexOff ch k) 4) o d
    let poison := op ≠ 5 && mv.any (fun m => s.poisonedIn (m.1 * 64) 64)
    let s' := s.dmaMove op (s.steerStack (o.arg2 % 4)) mv
    (s', { poison := poison, count := mv.length })

/-- DMA COPY (R134). -/
def execDmaCopy (t c : Nat) (ch : Fin 4) (slot : BitVec 40) (s : State) : Host.Outcome State Fault Refusal :=
  dmaStatic t c ch slot 1 s

/-- DMA GATHER (R134). -/
def execDmaGather (t c : Nat) (ch : Fin 4) (slot : BitVec 40) (s : State) : Host.Outcome State Fault Refusal :=
  dmaStatic t c ch slot 2 s

/-- DMA SCATTER (R134). -/
def execDmaScatter (t c : Nat) (ch : Fin 4) (slot : BitVec 40) (s : State) : Host.Outcome State Fault Refusal :=
  dmaStatic t c ch slot 3 s

/-- DMA TILE_IN (R134). -/
def execDmaTileIn (t c : Nat) (ch : Fin 4) (slot : BitVec 40) (s : State) : Host.Outcome State Fault Refusal :=
  dmaStatic t c ch slot 4 s

/-- DMA TILE_OUT (R134). -/
def execDmaTileOut (t c : Nat) (ch : Fin 4) (slot : BitVec 40) (s : State) : Host.Outcome State Fault Refusal :=
  dmaStatic t c ch slot 5 s

/-- Queue an asynchronous transfer (R135); a full queue of 16 answers at once with TRUNC. -/
def dmaAsync (t c : Nat) (ch : Fin 4) (slot : BitVec 40) (op : Nat) (s : State) : Host.Outcome State Fault Refusal :=
  run t s fun s =>
    let e := 9 + ch.val
    let o := { EngOp.ofBits e slot.toNat with op := op }
    if s.absCyc c < s.freeCyc e then s.inc (engReg e 0x108) else
    let d := s.descOf e o.desc
    let read := op = 6
    if 16 ≤ s.eng.async[ch].length then
      let r : OpOut := { trunc := true, spec := 1 }
      (s.putStatus d.stsAddr op o.desc r).engDone e op o.desc r 0
    else
      let x : AsyncX := ⟨read, ((if read then d.outAddr else d.inAddr) + o.arg) * 64, d.p 5 * 2 ^ 32 + d.p 4,
        (if read then d.outLen else d.inLen) * 64, d.stsAddr, o.desc, s.seq.body.frame⟩
      let s := { s with eng := { s.eng with async := s.eng.async.set ch (s.eng.async[ch] ++ [x]) } }
      s.setReg (Reg.DMA_ASYNC_DEPTH ch) (s.reg (Reg.DMA_ASYNC_DEPTH ch) + 1)

/-- DMA MR_READ (R135). -/
def execDmaMrRead (t c : Nat) (ch : Fin 4) (slot : BitVec 40) (s : State) : Host.Outcome State Fault Refusal :=
  dmaAsync t c ch slot 6 s

/-- DMA MR_WRITE (R135). -/
def execDmaMrWrite (t c : Nat) (ch : Fin 4) (slot : BitVec 40) (s : State) : Host.Outcome State Fault Refusal :=
  dmaAsync t c ch slot 7 s

/-- The MRDIMM channel of an address and the offset in it (R141). -/
def mrChan (a : Nat) : Nat × Nat := ((a - 0x8000000000) / 0x2000000000 % 4, (a - 0x8000000000) % 0x2000000000)

/-- Is an MRDIMM byte inside a usable channel's capacity (R141)? -/
def State.mrOk (s : State) (a : Nat) : Bool :=
  let (c, o) := mrChan a
  0x8000000000 ≤ a && a < 0x10000000000 && s.bit (Reg.DDC_STS c) 2 && o < s.reg (Reg.DDC_CAP c) * 2 ^ 30

/-- An access above a channel's capacity is counted (R141). -/
def State.mrHole (s : State) (a : Nat) : State := s.inc (Reg.DDC_HOLE_CNT (mrChan a).1)

/-- Run a transfer: data and poison move granule by granule; a transfer that meets a hole moves nothing, and what it would
have read is poisoned. -/
def State.runAsync (s : State) (x : AsyncX) : State × Bool :=
  let n := cdiv x.len 64
  let ok := x.len = 0 || (s.mrOk x.mr && s.mrOk (x.mr + x.len - 1))
  if ok then
    (s.forAll (List.range n) (fun s i =>
      if x.read then s.copyGran (x.mr + 64 * i) (x.shm + 64 * i) else s.copyGran (x.shm + 64 * i) (x.mr + 64 * i)),
     (if x.read then s.poisonedIn x.mr x.len else s.poisonedIn x.shm x.len))
  else
    let s := s.mrHole (if s.mrOk x.mr then x.mr + x.len - 1 else x.mr)
    (if x.read then s.forAll (List.range (8 * n)) (fun s i => s.setPoison (x.shm + 8 * i) true) else s, true)

/-- The transfer at the head of a channel's queue completes: its status carries the sequence number since SOFT_RESET
(R135). -/
def execDmaAsyncDone (t : Nat) (ch : Fin 4) (s : State) : Host.Outcome State Fault Refusal :=
  run t s fun s =>
    match s.eng.async[ch] with
    | [] => s
    | x :: rest =>
      let (s, poison) := s.runAsync x
      let q := s.eng.asyncSeq[ch] + 1
      let s := { s with eng := { s.eng with async := s.eng.async.set ch rest, asyncSeq := s.eng.asyncSeq.set ch q } }
      let op := if x.read then 6 else 7
      let r : OpOut := { poison := poison, count := q }
      let s := (s.setReg (Reg.DMA_ASYNC_DEPTH ch) (s.reg (Reg.DMA_ASYNC_DEPTH ch) - 1)).inc (Reg.DMA_ASYNC_DONE ch)
      (s.putStatus x.sts op x.desc r).engDone (9 + ch) op x.desc r 0

/-! ## Ingress (R136) -/

/-- Byte address of flit slot `i` of a port's ring; rings 32 and 33 are Chain's east and west (R318). -/
def ringAddr (p i : Nat) : Nat := (if p < 32 then 0x3C000000 + p * 0x40000 else 0x3CA00000 + (p - 32) * 0x40000) + (i % 1024) * 256

/-- Byte address of a port's status granule (R136, R318). -/
def portStatus (p : Nat) : Nat := if p < 32 then 0x3C800000 + p * 0x40 else 0x3CA80000 + (p - 32) * 0x40

/-- Element of the table of rings. -/
def at32 (v : Vector Nat 34) (p : Nat) : Nat := if h : p < 34 then v[p] else 0

/-- Replace an element of the table of rings. -/
def set32 (v : Vector Nat 34) (p x : Nat) : Vector Nat 34 := if h : p < 34 then v.set p x else v

/-- ING COPY (R136): the flits between the copied and the committed index, at most Q, then empty flits. -/
def execIngCopy (t c : Nat) (slot : Word) (s : State) : Host.Outcome State Fault Refusal :=
  engRun t 13 c slot.toNat 1 s fun s o d =>
    let p := if 0x40 ≤ d.p 0 then 32 + d.p 0 % 2 else d.p 0 % 32
    let q := d.p 1
    let cop := at32 s.eng.ringCopied p
    let av := at32 s.eng.ringPublished p - cop
    let n := min av q
    let out := (d.outAddr + o.arg) * 64
    let poison := (List.range n).any (fun i => s.poisonedIn (ringAddr p (cop + i)) 256)
    let s := s.forAll (List.range n) (fun s i => s.forAll (List.range 4) (fun s g =>
      s.copyGran (ringAddr p (cop + i) + 64 * g) (out + 256 * i + 64 * g)))
    let s := s.putBytes (out + 256 * n) (List.replicate (256 * (q - n)) 0#8)
    let s := { s with eng := { s.eng with ringCopied := set32 s.eng.ringCopied p (cop + n) } }
    let s := if n < av then s.addCnt Reg.ING_CARRY (av - n) else s
    (s, { poison := poison, count := (cop + n) % 2 ^ 32 })

/-- Land a flit in a port's ring, where a slot is free only when COPY and the mover have both taken it (R136). Answers
whether it landed. -/
def State.ringPut (s : State) (p : Nat) (flit : List Byte) : State × Bool :=
  let w := at32 s.eng.ringWritten p
  let taken := if p < 32 then min (at32 s.eng.ringCopied p) (at32 s.eng.ringMoved p) else at32 s.eng.ringCopied p
  if 1024 ≤ w - taken then (if p < 32 then s.inc (Reg.ING_DROP p) else s, false)
  else
    let s := s.putBytes (ringAddr p w) (fitBytes 256 flit)
    ({ s with eng := { s.eng with ringWritten := set32 s.eng.ringWritten p (w + 1) } }, true)

/-- The mover takes everything landed in a port's ring (R110, R143). -/
def State.ringMove (s : State) (p : Nat) : State :=
  { s with eng := { s.eng with ringMoved := set32 s.eng.ringMoved p (at32 s.eng.ringWritten p) } }

/-- At a control-frame boundary the receive path publishes each port's committed index in its status granule (R136, R318). -/
def State.publishRings (s : State) : State :=
  let s := s.forAll (List.range 34) (fun s p =>
    if at32 s.eng.ringWritten p = at32 s.eng.ringPublished p then s
    else s.putBytes (portStatus p) (fitBytes 64 (leBytes 4 (at32 s.eng.ringWritten p))))
  { s with eng := { s.eng with ringPublished := s.eng.ringWritten } }

/-! ## Egress (R138) -/

/-- Cut the granules of an op's input into messages of `n` bytes each. -/
def State.egrInput (s : State) (g n : Nat) (count : Nat) : List (List Byte) :=
  (List.range count).map (fun i => s.bytes (g * 64 + i * n) n)

/-- A handoff is withheld after a failure (R68). -/
def State.handoffWithheld (s : State) : Bool := s.seq.withheld

/-- EGR REF (R50, R68, R138): one granule to the pulse die, marked where poisoned; withheld and counted after a failure. -/
def execEgrRef (t c : Nat) (slot : Word) (s : State) : Host.Outcome State Fault Refusal :=
  engRun t 14 c slot.toNat 1 s fun s o d =>
    let (s, raw, poison) := s.takeGran (d.inAddr + o.arg) 1
    if s.handoffWithheld then (s.inc Reg.SEQ_WITHHELD, { poison := poison })
    else ({ s with eng := { s.eng with refOut := some (raw, poison) } }, { poison := poison, count := 1 })

/-- EGR PLAN (R138): the coarse plan to the pulse die's plan buffer. -/
def execEgrPlan (t c : Nat) (slot : Word) (s : State) : Host.Outcome State Fault Refusal :=
  engRun t 14 c slot.toNat 2 s fun s o d =>
    let (s, raw, poison) := s.takeGran (d.inAddr + o.arg) (d.p 0)
    ({ s with eng := { s.eng with planOut := pieces 64 (d.p 0) raw } }, { poison := poison, count := d.p 0 })

/-- Queue a message of several items, whole or not at all (R138). -/
def queueAll (cap : Nat) (q l : List (List Byte)) : List (List Byte) × Bool :=
  if q.length + l.length ≤ cap then (q ++ l, true) else (q, false)

/-- EGR STRAND (R138): up to 16 flits to a port's queue of 64. -/
def execEgrStrand (t c : Nat) (slot : Word) (s : State) : Host.Outcome State Fault Refusal :=
  engRun t 14 c slot.toNat 3 s fun s o d =>
    let g := d.inAddr + o.arg
    let l := s.egrInput g 256 (min (d.inLen / 4) 16)
    let poison := s.poisonedIn (g * 64) (d.inLen * 64)
    if h : d.p 0 < 32 then
      let (q, ok) := queueAll 64 s.eng.strandQ[d.p 0] l
      if ok then ({ s with eng := { s.eng with strandQ := s.eng.strandQ.set (d.p 0) q } },
        { poison := poison, count := l.length })
      else (s.inc Reg.EGR_DROP, { poison := poison, trunc := true })
    else (s, { poison := poison })

/-- Queue to one Chain direction. -/
def State.chainQueue (s : State) (dir : Fin 2) (l : List (List Byte)) : State × Bool :=
  let (q, ok) := queueAll 64 s.eng.chainQ[dir] l
  if ok then ({ s with eng := { s.eng with chainQ := s.eng.chainQ.set dir q } }, true) else (s.inc Reg.EGR_DROP, false)

/-- EGR CHAIN (R138): direction 0 east, 1 west, 2 both. -/
def execEgrChain (t c : Nat) (slot : Word) (s : State) : Host.Outcome State Fault Refusal :=
  engRun t 14 c slot.toNat 4 s fun s o d =>
    let g := d.inAddr + o.arg
    let l := s.egrInput g 256 (min (d.inLen / 4) 16)
    let poison := s.poisonedIn (g * 64) (d.inLen * 64)
    let (s, a) := if d.p 0 ≠ 1 then s.chainQueue 0 l else (s, true)
    let (s, b) := if d.p 0 ≠ 0 then s.chainQueue 1 l else (s, true)
    (s, { poison := poison, trunc := !(a && b), count := if a && b then l.length else 0 })

/-- EGR SLOT (R138): up to 64 granules to the slot-link queue of 256. -/
def execEgrSlot (t c : Nat) (slot : Word) (s : State) : Host.Outcome State Fault Refusal :=
  engRun t 14 c slot.toNat 5 s fun s o d =>
    let g := d.inAddr + o.arg
    let l := s.egrInput g 64 (min d.inLen 64)
    let poison := s.poisonedIn (g * 64) (d.inLen * 64)
    let (q, ok) := queueAll 256 s.eng.slotQ l
    if ok then ({ s with eng := { s.eng with slotQ := q } }, { poison := poison, count := l.length })
    else (s.inc Reg.EGR_DROP, { poison := poison, trunc := true })

/-- The links have sent what was queued (R138): the queues are empty again at each control-frame boundary (log 30). -/
def State.drainEgress (s : State) : State :=
  { s with eng := { s.eng with strandQ := Vector.replicate 32 [], chainQ := Vector.replicate 2 [], slotQ := [] } }

/-! ## Window accesses (R109 to R112, R139) -/

/-- Count a corrected error of a bank (R112, R149). -/
def State.bankCe (s : State) (bank : Nat) : State :=
  let a := Reg.SHM_BANK_CE (bank / 4)
  let s := s.setFld a (8 * (bank % 4)) 8 (satAdd 8 (s.fld a (8 * (bank % 4)) 8) 1)
  s.inc Reg.SHM_ECC_CE

/-- Capture the address and stamp of an uncorrectable or parity error. -/
def State.shmCapture (s : State) (a : Nat) : State := (s.setReg Reg.SHM_ERR_ADDR a).stampReg Reg.SHM_ERR_STAMP

/-- An uncorrectable error on a read (R112). -/
def State.shmUe (s : State) (a : Nat) : State :=
  let s := ((s.inc Reg.SHM_ECC_UE).setBit Reg.SHM_STS 0 true).shmCapture a
  s.post 0x50 sevWarn 0x0031 0 0 (bankOf (a / 64)) (a % 2 ^ 32) (a / 2 ^ 32)

/-- An address-parity mismatch (R112). -/
def State.shmParity (s : State) (a : Nat) : State :=
  let s := ((s.inc Reg.SHM_APAR_CNT).setBit Reg.SHM_STS 1 true).shmCapture a
  s.post 0x50 sevFault 0x0030 0 0 (bankOf (a / 64)) (a % 2 ^ 32) (a / 2 ^ 32)

/-- The agent's number in WIN_GRANT, from 0. -/
def winNum : WinAgent → Nat
  | .strand => 0
  | .mover => 1
  | .dma _ => 2
  | .nugen => 3

/-- Where a window agent may go (R110, R111, R139): group 15 always; Nugen, while the sequencer is not RUNNING, every group
and the tile SRAM window. -/
def State.winAllowed (s : State) (ag : WinAgent) (a : Nat) : Bool :=
  let shm := a < 0x40000000
  if shm && inG15 (a / 64) then true
  else ag == .nugen && s.blk seqPg ≠ stRunning && (shm || (0x4100000000 ≤ a && a < 0x4200000000))

/-- A write by a window agent: a full granule of clean data clears poison (R112); a scrub write-back of the line is
cancelled (R113). -/
def State.winWrite (s : State) (a : Nat) (l : List Byte) : State :=
  let s := s.setBytes a l
  let s := if l.length = 64 && a % 64 = 0 then s.unpoison a 64 else s
  { s with scrub := { s.scrub with back := s.scrub.back.filter (fun b => b.1 ≠ bankOf (a / 64) || b.2 ≠ rowOf (a / 64)) } }

/-- A window access (R110 to R112). -/
def execWindowAccess (t : Nat) (q : WinReq) (s : State) : Host.Outcome State Fault Refusal :=
  run t s fun s =>
    if !s.winAllowed q.agent q.addr then (s.inc Reg.SHM_WIN_REJ).setBit Reg.SHM_STS 2 true else
    let s := s.inc (Reg.WIN_GRANT (winNum q.agent))
    if q.parity then s.shmParity q.addr else
    match q.data with
    | some l => s.winWrite q.addr (l.take 64)
    | none =>
      let k := s.poisonWords q.addr (min q.len 64)
      let s := if 0 < k then s.addCnt Reg.SHM_POISON_RD k else s
      match q.err with
      | .none => s
      | .ce => s.bankCe (bankOf (q.addr / 64))
      | .ue => s.shmUe q.addr

/-! ## Scrubbing (R113) -/

/-- The granule at a row of a bank (the inverse of R108). -/
def granOf (bank row : Nat) : Nat :=
  let hi := (bank / 32) * 2 ^ 20 + row * 32
  hi + ((bank % 32) ^^^ (fieldOf hi 5 5 ^^^ (fieldOf hi 10 5 ^^^ fieldOf hi 15 5)))

/-- Lines a bank has scrubbed. -/
def State.scrubLines (s : State) (bank : Nat) : Nat := sparseGet (fun _ => 0) s.scrub.lines bank

/-- Have all banks completed `n` passes? -/
def scrubPassed (lines : List (Nat × Nat)) (n : Nat) : Bool :=
  n = 0 || ((lines.filter (fun x => n * 32768 ≤ x.2)).length = 512)

/-- An idle cycle of a bank reads its next line (R113). -/
def execShmScrubRead (t : Nat) (bank : Fin 512) (err : ReadErr) (s : State) : Host.Outcome State Fault Refusal :=
  run t s fun s =>
    if !s.bit Reg.SHM_SCRUB_CTL 0 then s else
    let n := s.scrubLines bank
    let row := n % 32768
    let a := granOf bank row * 64
    let s := match err with
      | .none => s
      | .ce =>
        let s := s.bankCe bank
        { s with scrub := { s.scrub with back := s.scrub.back.filter (fun (b : Nat × Nat) => b.1 ≠ bank.val) ++ [(bank.val, row)] } }
      | .ue =>
        let s := ((s.inc Reg.SHM_ECC_UE).setBit Reg.SHM_STS 0 true).shmCapture a
        s.forAll (List.range 8) (fun s w => s.setPoison (a + 8 * w) true)
    let s := { s with scrub := { s.scrub with lines := sparseSet (fun _ => 0) s.scrub.lines bank.val (n + 1) } }
    let passes := s.reg Reg.SHM_SCRUB_PASS_CNT
    if scrubPassed s.scrub.lines (passes + 1) then
      let ms := (s.now - s.scrub.passStart) / 1000000
      let s := (s.inc Reg.SHM_SCRUB_PASS_CNT).setReg Reg.SHM_SCRUB_MAX_MS (max (s.reg Reg.SHM_SCRUB_MAX_MS) ms)
      { s with scrub := { s.scrub with passStart := s.now } }
    else s

/-- The bank's next idle cycle writes the corrected line back, unless a write cancelled it (R113). -/
def execShmScrubWriteback (t : Nat) (bank : Fin 512) (s : State) : Host.Outcome State Fault Refusal :=
  run t s fun s => { s with scrub := { s.scrub with back := s.scrub.back.filter (fun (b : Nat × Nat) => b.1 ≠ bank.val) } }

/-! ## MRDIMM (R140 to R142) -/

/-- Endpoints of the order code (R143). -/
def State.endpoints (s : State) : Nat := if s.fx.full then 128 else 64

/-- Bytes of a frame slot (R143). -/
def State.slotBytes (s : State) : Nat := 1920 * s.endpoints

/-- Ring slots of a channel (R144). -/
def State.chanSlots (s : State) (c : Nat) : Nat :=
  if s.bit (Reg.DDC_STS c) 2 then
    (s.reg (Reg.DDC_CAP c) * 2 ^ 30 - (if c = 0 then 8 * 2 ^ 30 else 0)) / s.slotBytes
  else 0

/-- FR_SLOTS (R144). -/
def State.ringSlots (s : State) : Nat := sumTo 4 s.chanSlots

/-- A trained DIMM. -/
def trained : Option Dimm → Bool
  | some d => d.rate ≠ 3
  | none => false

/-- CONFIG of an MRDIMM population (R140, R471). -/
def State.ddcConfig (s : State) (c cap : Nat) : State := s.post 0x58 sevWarn 0x0001 c 4 cap 0 0

/-- Which channels are used (R140): a lone one of channels 2 and 3, and any beyond channel 1 on QW-SC9-B, is not. -/
def ddcUsed (full : Bool) (ok : Nat → Bool) (c : Nat) : Bool :=
  if c < 2 then ok c else full && ok 2 && ok 3

/-- Training finds the DIMMs (R140, R144): capacities, the common rate, configuration events. -/
def execDdcTraining (t : Nat) (d : List (Option Dimm)) (s : State) : Host.Outcome State Fault Refusal :=
  run t s fun s =>
    let dm (c : Nat) : Option Dimm := d.getD c none
    let ok (c : Nat) : Bool := trained (dm c)
    let use := (List.range 4).filter (ddcUsed s.fx.full ok)
    let caps := use.filterMap (fun c => (dm c).map (·.gib))
    let cap := caps.foldl min (caps.headD 0)
    let rates := use.filterMap (fun c => (dm c).map (fun x => x.rate.val))
    let rate := rates.foldl max 0
    let s := s.forAll (List.range 4) (fun s c =>
      let here := (dm c).isSome
      let u := use.contains c
      let cause := if u then 0 else if !here then 1 else if !ok c then 2 else 3
      (s.setReg (Reg.DDC_STS c) (b2n here + 2 * b2n (ok c) + 4 * b2n u + 16 * (if u then rate else 0) + 256 * cause)).setReg
        (Reg.DDC_CAP c) (if u then cap else 0))
    let s := s.setReg Reg.FR_SLOTS s.ringSlots
    let lone := (List.range 4).filter (fun c => (dm c).isSome && ok c && !use.contains c)
    let s := s.forAll lone (fun s c => s.ddcConfig c 0)
    let differ := use.filter (fun c => match dm c, dm 0 with
      | some a, some b => a.gib ≠ b.gib || a.ranks ≠ b.ranks || a.grade ≠ b.grade
      | _, _ => false)
    s.forAll differ (fun s c => s.ddcConfig c cap)

/-- The ring slot that holds an MRDIMM byte, if any (R144). -/
def State.slotOfAddr (s : State) (a : Nat) : Option Nat :=
  let (c, o) := mrChan a
  let base := if c = 0 then 8 * 2 ^ 30 else 0
  if o < base then none else
  let i := (o - base) / s.slotBytes
  if i < s.chanSlots c then some (sumTo c s.chanSlots + i) else none

/-- Mark the slot of an address as holding an uncorrectable error: flagged in export (R142, R147). -/
def State.markSlotUe (s : State) (a : Nat) : State :=
  match s.slotOfAddr a with
  | some k => { s with fr := { s.fr with slots := s.fr.slots.map (fun x => if x.1 = k then (x.1, { x.2 with ue := true }) else x) } }
  | none => s

/-- The patrol scrub of a channel (R142): corrected errors, and the address of an uncorrectable one. -/
def execDdcPatrolScrub (t : Nat) (ch : Fin 4) (ce : Nat) (ue : Option Nat) (s : State) : Host.Outcome State Fault Refusal :=
  run t s fun s =>
    let s := s.addCnt (Reg.DDC_ECC_CE ch) ce
    match ue with
    | none => s
    | some a => (((s.inc (Reg.DDC_ECC_UE ch)).setReg (Reg.DDC_ERR_ADDR ch) a).markSlotUe a)

end Sys2Proof.Machine
end

