-- ==== Sys2Proof/Machine/Strand.lean ====
section
/-!
DEFINITION. The Strand ports (R151 to R170): flits in and out, identity check, admission, time, STATUS, bursts, and the
treatment of intents (R167 to R169).
-/
namespace Sys2Proof.Machine

/-! ## Names -/

/-- The link states of R190. -/
def lkDown : Nat := 0
def lkTraining : Nat := 1
def lkIdent : Nat := 2
def lkWaiting : Nat := 3
def lkAdmitted : Nat := 4
def lkQuarantined : Nat := 5
def lkDisabled : Nat := 6

/-- STR_STS.LINK of a port. -/
def State.link (s : State) (p : Nat) : Nat := s.fld (Reg.STR_STS p) 0 3

/-- Move a port to a link state. -/
def State.setLink (s : State) (p x : Nat) : State := s.setFld (Reg.STR_STS p) 0 3 x

/-- Replace a port's record. -/
def State.updPort (s : State) (p : Fin 32) (f : PortSt → PortSt) : State := { s with port := s.port.set p (f s.port[p]) }

/-- Replace an endpoint's record. -/
def State.updEp (s : State) (n : Fin 128) (f : EpSt → EpSt) : State := { s with ep := s.ep.set n (f s.ep[n]) }

/-- Endpoint `e` of the tray that port `p` serves (R24). -/
def epOf (p : Fin 32) (e : Nat) : Fin 128 := ⟨4 * p.val + e % 4, by omega⟩

/-- The port of an endpoint. -/
def portOf (n : Fin 128) : Fin 32 := ⟨n.val / 4, by omega⟩

/-- The four endpoints of a port. -/
def epsOf (p : Fin 32) : List (Fin 128) := [epOf p 0, epOf p 1, epOf p 2, epOf p 3]

/-- Is the port there, its base die up, the port enabled (R189, R190) and its plug not held in low power (R453)? -/
def State.portUp (s : State) (p : Nat) : Bool :=
  pagePresent s.fx (0x60 + p) && s.baseUp && s.bit (Reg.STR_CTL p) 0 && s.link p ≠ lkDisabled && !s.plugHeld (p / 4)

/-- `n` little-endian bytes of a list at an offset, as a number. -/
def leAt (l : List Byte) (o n : Nat) : Nat := ofLe ((l.drop o).take n)

/-- A byte of a list. -/
def byteAt (l : List Byte) (o : Nat) : Nat := (l.getD o 0#8).toNat

/-! ## Flits out (R152, R155) -/

/-- Send a flit of a type on a port, with a stamp and a payload from offset 0x10. -/
def State.sendFlit (s : State) (p : Fin 32) (ty stamp : Nat) (body : List Byte) : State :=
  let x := s.port[p]
  let f : TxFlit := ⟨ty, x.txSeq, stamp, body⟩
  (s.updPort p (fun x => { x with
    txSeq := (x.txSeq + 1) % 2 ^ 32, sent := sparseIns (sparseErase x.sent ty) ty f })).inc (Reg.STR_TX_FLITS p)

/-- The eight header bytes of a flit (R152). -/
def flitHeader (ty sub ep agg seq qual : Nat) : List Byte :=
  let h := [BitVec.ofNat 8 (ty % 32 + 32 * (sub % 8)), BitVec.ofNat 8 (ep % 4 + 4 * (agg % 2))] ++ leBytes 4 seq ++
    [BitVec.ofNat 8 qual]
  h ++ [crc8 h]

/-- The module's IDENT flit: serial, port, protocol version (R155). -/
def State.sendIdent (s : State) (p : Fin 32) : State :=
  let s := s.updPort p (fun x => { x with identAt := s.now })
  s.sendFlit p 0x13 s.now (leBytes 8 s.fx.serial.toNat ++ [BitVec.ofNat 8 p.val] ++ leBytes 2 Config.protoVersion)

/-- Is an echo due on a port (R164): 16 at bring-up, then one a second? -/
def echoDue (now : Nat) (x : PortSt) : Bool := x.echoes < 16 || decide (x.lastEcho + 1000000000 ≤ now)

/-- A TIME flit (R164): DELAY and FLAGS; the echo's t1 is kept until its answer. -/
def State.sendTime (s : State) (p : Fin 32) : State :=
  let e := echoDue s.now s.port[p]
  let s := s.updPort p (fun x => if e then
    { x with echoes := min 16 (x.echoes + 1), lastEcho := s.now, t1s := lastN 16 (x.t1s ++ [s.now]) } else x)
  s.sendFlit p 0x12 s.now (leBytes 4 (s.reg (Reg.STR_LINK_DELAY p)) ++ leBytes 4 (b2n e))

/-- Every control frame, each port that has left TRAINING sends TIME (R156, R164). -/
def State.strandTimeSend (s : State) : State :=
  s.forAll (List.finRange 32) (fun s p => if s.portUp p && 2 ≤ s.link p then s.sendTime p else s)

/-! ## The wiring plan (R312) -/

/-- Is the plan's header as R312 lays it down? -/
def wirOk (l : List Byte) : Bool :=
  leAt l 0 4 = 0x4C505751 && leAt l 4 2 = 1 && leAt l 6 2 = 0x40 && 1 ≤ byteAt l 0x19 && byteAt l 0x19 ≤ 192

/-- Entries in the node table. -/
def wirNodes (l : List Byte) : Nat := byteAt l 0x19

/-- Offset of node entry `i`. -/
def wirNode (i : Nat) : Nat := 0x40 + 32 * i

/-- SN_A and SN_B of a node entry. -/
def wirSnA (l : List Byte) (i : Nat) : Nat := leAt l (wirNode i + 8) 8
def wirSnB (l : List Byte) (i : Nat) : Nat := leAt l (wirNode i + 16) 8

/-- The node entry of a module by its serial. -/
def wirFind (l : List Byte) (sn : Nat) : Option Nat :=
  (List.range (wirNodes l)).find? (fun i => wirSnA l i = sn || wirSnB l i = sn)

/-- Offset of the tray entry of a port in the tray table of node entry `i`. -/
def wirTray (l : List Byte) (i p : Nat) : Nat := leAt l 0x24 4 + 512 * i + 16 * p

/-- The node entry of this module in the plan in force. -/
def State.myEntry (s : State) : Option Nat :=
  match s.wiring with
  | some l => wirFind l s.fx.serial.toNat
  | none => none

/-! ## Identity check (R156) -/

/-- The endpoints an aggregator's IDENT describes. -/
def identEp (b : List Byte) (e : Nat) : EpIdent :=
  let o := 0x30 + 16 * e
  ⟨byteAt b o, leAt b (o + 2) 2, leAt b (o + 4) 2, leAt b (o + 6) 2, leAt b (o + 8) 2⟩

/-- The cause of a mismatch (R156, R471), 0 where the check passes. -/
def State.identCause (s : State) (p : Nat) (b : List Byte) : Nat :=
  match s.wiring, s.myEntry with
  | some l, some i =>
    let o := wirTray l i p
    let present := List.filter (fun e => bitOf (byteAt b 0x16) e) [0, 1, 2, 3]
    if !bitOf (byteAt l (o + 13)) 0 ∨ leAt l o 4 ≠ leAt b 0x10 4 then 1
    else if byteAt l (o + 12) % 16 ≠ byteAt b 0x16 % 16 then 2
    else if leAt b 0x20 8 ≠ s.fx.serial.toNat ∨ byteAt b 0x28 ≠ p then 3
    else if present.any (fun e => (identEp b e).pMax < (identEp b e).pFloor) then 4
    else if present.any (fun e => (identEp b e).slewDn = 0) then 5
    else 0
  | _, _ => 6

/-- Enter IDENT_WAIT (R156): IDENT goes out, echoes begin again. -/
def State.enterIdentWait (s : State) (p : Fin 32) : State :=
  let s := (s.setLink p lkIdent).setBit (Reg.STR_STS p) 5 false
  let s := s.updPort p (fun x => { x with waitSince := s.now, echoes := 0, t1s := [], delays := [] })
  s.sendIdent p

/-- A port gains FEC lock (R156). -/
def execStrandFecLock (t : Nat) (p : Fin 32) (s : State) : Host.Outcome State Fault Refusal :=
  run t s fun s =>
    if s.portUp p && (s.link p = lkDown || s.link p = lkTraining) then
      (s.setBit (Reg.STR_STS p) 3 true).enterIdentWait p
    else s

/-- The port repeats its IDENT every 10 ms (R156). -/
def execStrandIdentRetry (t : Nat) (p : Fin 32) (s : State) : Host.Outcome State Fault Refusal :=
  run t s fun s =>
    if s.portUp p && s.link p = lkIdent && s.port[p].identAt + 10000000 ≤ s.now then s.sendIdent p else s

/-- 100 ms without an answer: back to TRAINING (R156). -/
def execStrandIdentTimeout (t : Nat) (p : Fin 32) (s : State) : Host.Outcome State Fault Refusal :=
  run t s fun s =>
    if s.portUp p && s.link p = lkIdent && s.port[p].waitSince + 100000000 ≤ s.now then
      (s.setLink p lkTraining).setBit (Reg.STR_STS p) 3 false
    else s

/-! ## Flits in (R153, R154, R158) -/

/-- Fields of an inbound flit (R152). -/
def flitType (b : List Byte) : Nat := byteAt b 0 % 32
def flitSub (b : List Byte) : Nat := byteAt b 0 / 32
def flitEp (b : List Byte) : Nat := byteAt b 1 % 4
def flitAgg (b : List Byte) : Bool := bitOf (byteAt b 1) 2
def flitSeq (b : List Byte) : Nat := leAt b 2 4
def flitStamp (b : List Byte) : Nat := leAt b 8 8

/-- Is a flit late: TELEM by R162, any other by R25? -/
def flitLate (now : Nat) (b : List Byte) : Bool :=
  if flitType b = 1 then decide (flitStamp b + 9600 < now) else decide (flitStamp b / 10000 < now / 10000)

/-- The landed form (R154). QUAL carries LATE; with TIME_OK at 0 the module marks the telemetry with UNC 1 or above (R33). -/
def landedForm (p : Nat) (late timeOk : Bool) (b : List Byte) : List Byte :=
  let q := withField (byteAt b 6) 3 1 (b2n late)
  let q := if !timeOk && flitType b = 1 && fieldOf q 0 2 = 0 then withField q 0 2 1 else q
  let src := if flitAgg b then 0x3000 + p else 0x2000 + 4 * p + flitEp b
  fitBytes 8 (b.drop 8) ++ leBytes 2 src ++ [BitVec.ofNat 8 q, b.getD 0 0#8] ++ (b.drop 2).take 4 ++ (b.drop 16).take 240

/-- An inbound flit that a command brings as one of type `ty` (R153, R154, R158): discarded and counted, or taken; all but
BURST are landed in the port's ring, and the effect is told whether that succeeded. -/
def State.rxFlit (s : State) (p : Fin 32) (f : FlitIn) (ty : Nat) (eff : State → Bool → State) : State :=
  if !s.portUp p || !s.bit (Reg.STR_STS p) 3 then s else
  let b := fitBytes 256 f.bytes
  let s := if f.ce = 0 then s else s.addCnt (Reg.STR_FEC_CE p) f.ce
  if f.ue then s.inc (Reg.STR_FEC_UE p)
  else if crc8 (b.take 7) ≠ b.getD 7 0#8 then s.inc (Reg.STR_HCRC_ERR p)
  else if flitType b = 0 ∨ 8 < flitType b then s.inc (Reg.STR_BAD_TYPE p)
  else if flitType b ≠ ty then s
  else if s.link p ≠ lkAdmitted ∧ s.link p ≠ lkQuarantined ∧ ty ≠ 5 ∧ ty ≠ 6 ∧ ty ≠ 7 then
    (s.updPort p (fun x => { x with preFrame := some (s.now / 1000000) })).inc (Reg.STR_PRE_ADMIT p)
  else if ty = 8 then eff s true
  else
    let late := flitLate s.now b
    let (s, ok) := s.ringPut p (landedForm p late (s.bit (Reg.STR_STS p) 4) b)
    let s := if ok then s.inc (Reg.STR_RX_FLITS p) else s
    let s := if ok && late && ty = 1 then s.inc (Reg.STR_LATE p) else s
    eff s ok

/-- The aggregator's IDENT arrives (R156): checked against the wiring plan; the port waits for a slot. -/
def execStrandIdent (t : Nat) (p : Fin 32) (f : FlitIn) (s : State) : Host.Outcome State Fault Refusal :=
  run t s fun s => s.rxFlit p f 5 fun s _ =>
    if s.link p ≠ lkIdent then s else
    let b := fitBytes 256 f.bytes
    let c := s.identCause p b
    let s := s.forAll [0, 1, 2, 3] (fun s e => s.updEp (epOf p e) (fun x => { x with ident := identEp b e }))
    let s := (s.setReg (Reg.STR_TRAY_ID p) (leAt b 0x10 4)).setReg (Reg.STR_AGG_SN p) (leAt b 0x18 8)
    let s := (s.setFld (Reg.STR_STS p) 8 4 (byteAt b 0x16)).setBit (Reg.STR_STS p) 5 (c = 0)
    (s.updPort p (fun x => { x with mismatch := c, proto := leAt b 0x14 2 })).setLink p lkWaiting

/-- A TELEM flit's power of an endpoint over its control frame (R162, R163): for each rail with a description, the mean of
the samples present of voltage times current, times the scales. -/
def telemPower (rails : List (Nat × RailDesc)) (b : List Byte) : Fv :=
  (List.range 6).foldl (fun acc j =>
    match sparseFind rails (6 * flitSub b + j) with
    | none => acc
    | some d =>
      let codes := (List.range 10).map (fun k => leAt b (0x10 + 40 * j + 4 * k) 4)
      let present := codes.filter (fun c => c ≠ 0x8000FFFF)
      if present.length = 0 then acc else
      let sum := present.foldl (fun a c => a + (c % 65536 : Nat) * sext 16 (c / 65536)) (0 : Int)
      let p := ((Fv.ofInt sum).div (Fv.ofNat present.length)).mul ((f32 d.vLsb).mul (f32 d.iLsb))
      acc.add p) Fv.zero

/-- A TELEM flit lands (R162); a sample older than 20 control frames is not used for forecasting, one that comes late joins
the next forecast (R21). -/
def execStrandTelem (t : Nat) (p : Fin 32) (f : FlitIn) (s : State) : Host.Outcome State Fault Refusal :=
  run t s fun s => s.rxFlit p f 1 fun s ok =>
    let b := fitBytes 256 f.bytes
    if !ok || flitAgg b || flitStamp b + 200000 < s.now then s else
    let n := epOf p (flitEp b)
    let codes := (List.range 60).map (fun i => leAt b (0x10 + 4 * i) 4)
    let s := { s with hmk := { s.hmk with telem := s.hmk.telem ++ [(flitStamp b / 10000, (n.val, (flitSub b, codes)))] } }
    s.updEp n (fun x => { x with acc := x.acc.add (telemPower x.rails b), accFrames := 1 })

/-- A RAILDESC flit lands the descriptions of 12 rails (R163). -/
def execStrandRaildesc (t : Nat) (p : Fin 32) (f : FlitIn) (s : State) : Host.Outcome State Fault Refusal :=
  run t s fun s => s.rxFlit p f 6 fun s ok =>
    let b := fitBytes 256 f.bytes
    if !ok || flitAgg b then s else
    s.updEp (epOf p (flitEp b)) (fun x => (List.range 12).foldl (fun (x : EpSt) j =>
      let o := 0x10 + 16 * j
      let r := byteAt b o
      if r / 12 ≠ flitSub b ∨ 48 ≤ r then x else
      let d : RailDesc := ⟨byteAt b (o + 1), leAt b (o + 2) 2, leAt b (o + 4) 4, leAt b (o + 8) 4, s.now⟩
      { x with rails := sparseIns (sparseErase x.rails r) r d }) x)

/-- Half of a number of ns; an odd one's rounding is open (R164). -/
def halfNs (x : Int) : Int := if x % 2 = 0 then x / 2 else Config.oddHalf x

/-- Insert into a rising list. -/
def insertInt : List Int → Int → List Int
  | [], a => [a]
  | k :: r, a => if a ≤ k then a :: k :: r else k :: insertInt r a

/-- The median of a list (of an even number, half the sum of the middle two). -/
def medianNs (l : List Int) : Int :=
  let q := l.foldl insertInt []
  let n := q.length
  if n % 2 = 1 then q.getD (n / 2) 0 else halfNs (q.getD (n / 2 - 1) 0 + q.getD (n / 2) 0)

/-- A TIME_RPT (R164): with a t2 it answers the oldest echo still open and DELAY follows; the other reports carry OFFSET. -/
def execStrandTimeRpt (t : Nat) (p : Fin 32) (f : FlitIn) (s : State) : Host.Outcome State Fault Refusal :=
  run t s fun s => s.rxFlit p f 7 fun s _ =>
    let b := fitBytes 256 f.bytes
    let t2 := leAt b 0x10 8
    if t2 ≠ 0 then
      match s.port[p].t1s with
      | [] => s
      | t1 :: rest =>
        let d := halfNs (((s.now : Int) - t1) - ((leAt b 0x18 8 : Int) - t2))
        let l := lastN 16 (s.port[p].delays ++ [d])
        (s.updPort p (fun x => { x with t1s := rest, delays := l })).setReg (Reg.STR_LINK_DELAY p) (ofInt 32 (medianNs l))
    else
      let off := leAt b 0x20 4
      (s.setReg (Reg.STR_TIME_OFFSET p) off).setBit (Reg.STR_STS p) 4 ((sext 32 off).natAbs ≤ 10)

/-- E_ACC of the STATUS nearest an epoch's END goes with that epoch's record (R298). -/
def State.noteEacc (s : State) (n stamp eacc : Nat) : State :=
  let far (e a : Nat) : Nat := max e a - min e a
  let note (x : EpochSt) : EpochSt :=
    match x.stop with
    | none => x
    | some e =>
      match sparseFind x.eacc n with
      | some (_, a) => if far e stamp < far e a then
          { x with eacc := sparseIns (sparseErase x.eacc n) n (eacc, stamp) } else x
      | none => { x with eacc := sparseIns x.eacc n (eacc, stamp) }
  { s with hmk := { s.hmk with epochs := s.hmk.epochs.map note } }

/-- An endpoint's STATUS (R165): transitions to LAPSED are counted. -/
def execStrandStatus (t : Nat) (p : Fin 32) (f : FlitIn) (s : State) : Host.Outcome State Fault Refusal :=
  run t s fun s => s.rxFlit p f 4 fun s _ =>
    let b := fitBytes 256 f.bytes
    let n := epOf p (flitEp b)
    let was : Nat := (s.ep[n].status.map EpStatus.state).getD 0
    let x : EpStatus := ⟨flitStamp b, byteAt b 0x10, byteAt b 0x11, leAt b 0x14 4, leAt b 0x18 8, leAt b 0x20 2⟩
    let s := if x.state = 1 ∧ was ≠ 1 then s.inc (Reg.STR_LAPSE p) else s
    (s.updEp n (fun e => { e with status := some x })).noteEacc n x.stamp x.eAcc

/-! ## Admission (R157 to R161) -/

/-- The operator policy: POP of a class, FLOOR_GRANT and TIER of an endpoint, with the defaults of R179, in 0.25 W. -/
def State.pop (s : State) (n : Fin 128) (c : Nat) : Nat :=
  match s.arb.policy with
  | some l => leAt l (0x40 + 24 * n.val + 2 * c) 2
  | none => s.ep[n].ident.pMax
def State.floorGrant (s : State) (n : Fin 128) : Nat :=
  match s.arb.policy with
  | some l => leAt l (0x52 + 24 * n.val) 2
  | none => min 5000 s.ep[n].ident.pMax
def State.tier (s : State) (n : Fin 128) : Nat :=
  match s.arb.policy with
  | some l => byteAt l (0x50 + 24 * n.val) % 4
  | none => 3

/-- Is the endpoint reported present? -/
def State.epPresent (s : State) (n : Fin 128) : Bool := s.bit (Reg.STR_STS (n.val / 4)) (8 + n.val % 4)

/-- The payload of a GRANT or ADMIT flit (R181). -/
def State.grantBody (s : State) (p : Fin 32) (gseq effect : Nat) : List Byte :=
  let mask := s.fld (Reg.STR_STS p) 8 4
  let ent (n : Fin 128) : List Byte :=
    if s.epPresent n then ((List.range 8).map (fun c => leBytes 2 (s.ep[n].grants.getD c 0))).flatten ++
      leBytes 2 (s.floorGrant n) ++ List.replicate 6 0#8
    else List.replicate 24 0#8
  leBytes 8 effect ++ leBytes 8 (effect + 5000000) ++ leBytes 4 gseq ++
    [BitVec.ofNat 8 mask, BitVec.ofNat 8 (b2n s.arb.gridLoss)] ++ List.replicate 10 0#8 ++ ((epsOf p).map ent).flatten

/-- Send the grants of a tray (R181): a sequence number of the port, effect at the next plan-frame boundary. -/
def State.sendGrants (s : State) (p : Fin 32) (ty : Nat) : State :=
  let q := (s.port[p].gseq + 1) % 2 ^ 32
  let e := (s.now / 1000000 + 1) * 1000000
  let s := s.updPort p (fun x => { x with gseq := q })
  let s := s.forAll (epsOf p) (fun s n => s.updEp n (fun x => { x with effect := e, expiry := e + 5000000 }))
  s.sendFlit p ty s.now (s.grantBody p q e)

/-- Admit a WAITING port at a slot, or quarantine it (R157, R159): its endpoints start at their floor grants (R160) and
enter the plan at the next plan frame. -/
def State.admitPort (s : State) (p : Fin 32) : State :=
  let s := s.stampReg (Reg.STR_ADMIT_STAMP p)
  if s.port[p].mismatch = 0 then
    let s := s.setLink p lkAdmitted
    let s := s.forAll (epsOf p) (fun s n => let g := s.floorGrant n; s.updEp n (fun x => { x with
      grants := List.replicate 8 g, planFrom := some (s.now / 1000000 + 1), lapsed := false, held := false }))
    s.sendGrants p 0x14
  else
    let s := s.setLink p lkQuarantined
    let s := s.forAll (epsOf p) (fun s n => s.updEp n (fun x => { x with
      grants := List.replicate 8 (s.floorGrant n), planFrom := some (s.now / 1000000 + 1) }))
    s.post (0x60 + p.val) sevWarn 0x0042 p.val s.port[p].mismatch 0 0 0

/-- The ports in admission order: ascending, from the one after the last admitted, wrapping (R157). -/
def State.admitOrder (s : State) : List (Fin 32) :=
  (List.range 32).map (fun i => ⟨(s.arb.lastPort + 1 + i) % 32, Nat.mod_lt _ (by decide)⟩)

/-- The WAITING ports in admission order. -/
def State.waitingPorts (s : State) : List (Fin 32) :=
  s.admitOrder.filter (fun p => s.portUp p && s.link p.val = lkWaiting)

/-- Admit up to `n` ports; a port that reached WAITING at this very slot waits for the next (R157). -/
def State.admitPorts (s : State) (n : Nat) : State :=
  s.forAll (s.waitingPorts.take n) (fun s p =>
    let s := s.admitPort p
    { s with arb := { s.arb with lastPort := p.val } })

/-- Has the sequencer reached RUNNING since the base die started (R157, R410)? -/
def State.seqSeen (s : State) : Bool := s.seq.lastFrame.isSome || s.blk 0x10 = stRunning

/-- The admission slot that a port takes if no other arrives before it (R158): four ports a slot, those WAITING first. -/
def State.promisedSlot (s : State) (p : Fin 32) : Nat :=
  if !s.seqSeen then 2 ^ 64 - 1 else
  let ahead := if s.link p = lkWaiting then (s.waitingPorts.takeWhile (fun q => q ≠ p)).length else s.waitingPorts.length
  (s.now / 10000000 + 1 + ahead / 4) * 10000000

/-- In a plan frame in which it discarded a flit before admission, a port sends one HOLDOFF (R158). -/
def State.holdoffSend (s : State) : State :=
  s.forAll (List.finRange 32) (fun s p =>
    match s.port[p].preFrame with
    | none => s
    | some _ =>
      let s := s.updPort p (fun x => { x with preFrame := none })
      if s.portUp p && (s.link p = lkIdent || s.link p = lkWaiting) then
        let slot := s.promisedSlot p
        (s.setReg (Reg.STR_ADMIT_STAMP p) slot).sendFlit p 0x15 slot []
      else s)

/-- An endpoint's intents are discarded. -/
def State.dropIntents (s : State) (n : Fin 128) : State := s.updEp n (fun x => { x with intents := [] })

/-- A port loses FEC lock (R161): DOWN; the intents of its endpoints are discarded. -/
def execStrandFecLoss (t : Nat) (p : Fin 32) (s : State) : Host.Outcome State Fault Refusal :=
  run t s fun s =>
    if s.portUp p && s.bit (Reg.STR_STS p) 3 then
      ((s.setLink p lkDown).setBit (Reg.STR_STS p) 3 false).forAll (epsOf p) State.dropIntents
    else s

/-- The endpoint's lease has lapsed on a port that is no longer admitted: the plan takes it at its lapse level (R161). -/
def execEndpointLeaseLapse (t : Nat) (n : Fin 128) (s : State) : Host.Outcome State Fault Refusal :=
  run t s fun s =>
    let x := s.ep[n]
    if s.link (n.val / 4) ≠ lkAdmitted ∧ x.planFrom.isSome ∧ x.expiry ≤ s.now then
      s.updEp n (fun x => { x with lapsed := true })
    else s

/-- The lapse level per class (R182): the lower of FLOOR_GRANT and the last grant. -/
def State.lapseLevel (s : State) (n : Fin 128) (c : Nat) : Nat := min (s.floorGrant n) (s.ep[n].grants.getD c 0)

/-! ## Burst capture (R166) -/

/-- STATE of STR_BURST_STS: 0 IDLE, 1 ARMED, 2 CAPTURING, 3 DONE. -/
def State.burstState (s : State) (p : Nat) : Nat := s.fld (Reg.STR_BURST_STS p) 0 2

/-- Is a burst slot in use by a port's capture? -/
def State.burstSlotUsed (s : State) (slot : Nat) : Bool :=
  (List.range 32).any (fun q => (s.burstState q = 1 || s.burstState q = 2) && s.fld (Reg.STR_BURST_CFG q) 16 3 = slot)

/-- The capture that STR_CTL.BURST_GO asks for (R166): refused for more than 8 rails, a window outside 1 to 50 ms or a slot
in use; otherwise BURST_REQ goes out. -/
def State.burstGo (s : State) (p : Fin 32) : State :=
  let win := s.fld (Reg.STR_BURST_CFG p) 8 8
  let slot := s.fld (Reg.STR_BURST_CFG p) 16 3
  let rails := s.reg (Reg.STR_BURST_RAILS p)
  if 8 < popcount 64 rails ∨ 50 < win ∨ win = 0 ∨ s.burstSlotUsed slot then s.setBit (Reg.STR_BURST_STS p) 2 true
  else
    let s := s.setReg (Reg.STR_BURST_STS p) 1
    let s := s.updPort p (fun x => { x with burstSlot := slot, burstBytes := 0 })
    s.sendFlit p 0x16 (s.reg (Reg.STR_BURST_START p)) (leBytes 4 (win * 1000) ++ List.replicate 4 0#8 ++
      leBytes 8 rails ++ [BitVec.ofNat 8 (s.fld (Reg.STR_BURST_CFG p) 0 2)])

/-- A write of STR_CTL is rejected where it sets BURST_GO while a capture is ARMED or CAPTURING (R189). -/
def strCtlOk (p : Fin 32) (s : State) (v : Nat) : Bool := !(bitOf v 2) || (s.burstState p ≠ 1 && s.burstState p ≠ 2)

/-- What a write of STR_CTL does (R189, R190): ADMIT_EN 0 holds the port in DISABLED, from which 1 lets it out to DOWN;
REIDENT returns the port to IDENT_WAIT, without effect while DOWN or TRAINING (R159); BURST_GO. -/
def strCtlEff (p : Fin 32) (s : State) (v : Nat) : State :=
  let s := if v % 2 = 0 then (s.setLink p lkDisabled).setBit (Reg.STR_STS p) 3 false
    else if s.link p = lkDisabled then s.setLink p lkDown else s
  let s := if bitOf v 1 && s.portUp p && s.bit (Reg.STR_STS p) 3 then s.enterIdentWait p else s
  if bitOf v 2 && pagePresent s.fx (0x60 + p) then s.burstGo p else s

/-- A write of STR_CTL that sets REIDENT (R159). -/
def execStrReident (t : Nat) (w : Writer) (p : Fin 32) (s : State) : Host.Outcome State Fault Refusal :=
  run t s fun s => s.ownWrite w (Reg.STR_CTL p) (s.reg (Reg.STR_CTL p) % 2 + 2) (strCtlOk p) (strCtlEff p)

/-- A write of STR_CTL that sets BURST_GO (R166). -/
def execStrBurstGo (t : Nat) (w : Writer) (p : Fin 32) (s : State) : Host.Outcome State Fault Refusal :=
  run t s fun s => s.ownWrite w (Reg.STR_CTL p) (s.reg (Reg.STR_CTL p) % 2 + 4) (strCtlOk p) (strCtlEff p)

/-- Bytes of a burst slot (40 MiB), and its address in the burst area. -/
def burstSize : Nat := 40 * 2 ^ 20
def burstAddr (slot : Nat) : Nat := 0x8060000000 + slot * burstSize

/-- A BURST flit is stored unchanged, header included, or discarded with TRUNC set (R166). -/
def execStrandBurst (t : Nat) (p : Fin 32) (f : FlitIn) (s : State) : Host.Outcome State Fault Refusal :=
  run t s fun s => s.rxFlit p f 8 fun s _ =>
    if s.burstState p ≠ 1 ∧ s.burstState p ≠ 2 then s else
    let s := s.setFld (Reg.STR_BURST_STS p) 0 2 2
    let x := s.port[p]
    if burstSize < x.burstBytes + 256 then s.setBit (Reg.STR_BURST_STS p) 3 true
    else
      let a := burstAddr x.burstSlot + x.burstBytes
      let s := if s.mrOk a then s.putBytes a (fitBytes 256 f.bytes) else s.mrHole a
      let s := s.updPort p (fun x => { x with burstBytes := x.burstBytes + 256 })
      (s.setFld (Reg.STR_BURST_STS p) 8 24 (s.fld (Reg.STR_BURST_STS p) 8 24 + 1)).inc (Reg.STR_RX_FLITS p)

/-- The capture's window has passed (R166): DONE. -/
def execBurstCaptureEnd (t : Nat) (p : Fin 32) (s : State) : Host.Outcome State Fault Refusal :=
  run t s fun s =>
    if (s.burstState p = 1 ∨ s.burstState p = 2) ∧
        s.reg (Reg.STR_BURST_START p) + s.fld (Reg.STR_BURST_CFG p) 8 8 * 1000000 ≤ s.now then
      s.setFld (Reg.STR_BURST_STS p) 0 2 3
    else s

/-! ## Intents (R167 to R169) -/

/-- The instant at which a phase ends. -/
def IntentRec.stop (i : IntentRec) : Nat := i.start + i.dur * 1000

/-- The intent a flit carries (R167). -/
def intentOf (b : List Byte) : IntentRec :=
  ⟨flitStamp b, leAt b 0x10 8, leAt b 0x18 4, byteAt b 0x1C, byteAt b 0x1D, leAt b 0x1E 2, leAt b 0x20 2, leAt b 0x22 2,
   leAt b 0x24 2, leAt b 0x26 2, leAt b 0x28 2, bitOf (leAt b 0x2A 2) 0, 0⟩

/-- An INTENT flit lands; it is treated at the first control frame after (R168). -/
def execStrandIntent (t : Nat) (p : Fin 32) (f : FlitIn) (s : State) : Host.Outcome State Fault Refusal :=
  run t s fun s => s.rxFlit p f 2 fun s ok =>
    let b := fitBytes 256 f.bytes
    if !ok || flitAgg b then s else
    { s with arb := { s.arb with
        landed := s.arb.landed ++ [((epOf p (flitEp b)).val, (s.now / 10000, intentOf b))] } }

/-- Are an endpoint's intents barred (R169)? -/
def EpSt.barred (x : EpSt) : Bool := x.barUntil.isSome

/-- Treat an intent by the first row of R168's table that applies. -/
def treatIntent (s : State) (n : Fin 128) (frame : Nat) (i : IntentRec) : EpSt :=
  let x : EpSt := s.ep[n]
  let p := n.val / 4
  let pend : List IntentRec := x.intents.filter (fun j => s.now < j.stop)
  let x := { x with intents := pend }
  if s.link p ≠ lkAdmitted ∨ !s.bit (Reg.STR_STS p) 4 ∨ x.barred then { x with cntDiscarded := x.cntDiscarded + 1 }
  else if 7 < i.cls ∨ i.dur = 0 ∨ !(i.lo ≤ i.mean ∧ i.mean ≤ i.hi) then { x with cntRejected := x.cntRejected + 1 }
  else if i.created + 10000000000 < i.start then { x with cntRejected := x.cntRejected + 1 }
  else if i.cancel then { x with intents := pend.filter (fun j => j.iid ≠ i.iid) }
  else if i.stop ≤ frame * 10000 then { x with cntDiscarded := x.cntDiscarded + 1 }
  else
    let late := if i.start < s.now then x.cntLate + 1 else x.cntLate
    if pend.any (fun j => j.iid = i.iid) then
      { x with intents := pend.filter (fun j => j.iid ≠ i.iid) ++ [i], cntLate := late }
    else if 32 ≤ pend.length then { x with cntRejected := x.cntRejected + 1 }
    else { x with intents := pend ++ [i], cntLate := late }

/-- At a control frame, the intents that landed in earlier frames are treated in the order in which they landed. -/
def execIntentTreat (t : Nat) (s : State) : Host.Outcome State Fault Refusal :=
  run t s fun s =>
    let due := s.arb.landed.filter (fun e => e.2.1 < s.now / 10000)
    let s := { s with arb := { s.arb with landed := s.arb.landed.filter (fun e => !(e.2.1 < s.now / 10000)) } }
    s.forAll due (fun s e => if h : e.1 < 128 then s.updEp ⟨e.1, h⟩ (fun _ => treatIntent s ⟨e.1, h⟩ e.2.1 e.2.2) else s)

/-- The intent that governs an instant: of those pending that cover it, the one created last (R168). -/
def EpSt.intentAt (x : EpSt) (at' : Nat) : Option IntentRec :=
  (x.intents.filter (fun i => i.start ≤ at' && decide (at' < i.stop))).foldl (fun (b : Option IntentRec) i =>
    match b with
    | none => some i
    | some j => if j.created ≤ i.created then some i else some j) none

/-- Is a mean power (W) outside an intent's envelope by more than 5 % of P_HI (R169)? In eightieths of a watt. -/
def outside (i : IntentRec) (w : Fv) : Bool :=
  let m := w.mul (Fv.ofNat 80)
  m.lt (Fv.ofInt (20 * (i.lo : Int) - i.hi)) || (Fv.ofNat (21 * i.hi)).lt m

/-- Judge a window [a, a + 100 us) against an intent: only windows wholly inside the phase count, without its first and its
last. -/
def judgeWindow (a : Nat) (w : Fv) (i : IntentRec) : IntentRec :=
  if i.start + 100000 ≤ a ∧ a + 200000 ≤ i.stop then { i with out := if outside i w then i.out + 1 else 0 } else i

/-- The window that ends now is judged (R169): falsified intents leave; eight within 10 s bar the endpoint's intents. -/
def falsify (now : Nat) (x : EpSt) : EpSt :=
  if x.winFrames = 0 then x else
  let w := x.win.div (Fv.ofNat x.winFrames)
  let l := x.intents.map (judgeWindow (now - 100000) w)
  let bad := l.filter (fun i => 3 ≤ i.out)
  let f := (x.falsified ++ bad.map (fun _ => now)).filter (fun e => now < e + 10000000000)
  let bar := 8 ≤ f.length && x.barUntil.isNone
  { x with intents := if bar then [] else l.filter (fun i => i.out < 3), falsified := if bar then [] else f,
           barUntil := if bar then some (now + 10000000000) else x.barUntil, win := Fv.zero, winFrames := 0 }

/-- INTENT_FALSIFIED at a control-frame boundary (R169). -/
def State.intentFalsified (s : State) : State :=
  if s.now % 100000 ≠ 0 then s else
  s.forAll (List.finRange 128) (fun s n =>
    let x := falsify s.now s.ep[n]
    let s := if x.barUntil.isSome then s.setBit (Reg.STR_STS (n.val / 4)) (12 + n.val % 4) true else s
    s.updEp n (fun _ => x))

/-- The bar on an endpoint's intents ends (R169). -/
def execIntentBarExpire (t : Nat) (n : Fin 128) (s : State) : Host.Outcome State Fault Refusal :=
  run t s fun s =>
    match s.ep[n].barUntil with
    | none => s
    | some u =>
      if u ≤ s.now then
        (s.updEp n (fun x => { x with barUntil := none })).setBit (Reg.STR_STS (n.val / 4)) (12 + n.val % 4) false
      else s

/-! ## The short forecast (R172) -/

/-- Every control frame: the power measured in the frame becomes p_last, the 100 us window grows, the last frame's error is
kept until the next model run, and every ten frames the load model runs. -/
def State.shortForecast (s : State) : State :=
  let newRun := s.now % 100000 = 0
  let s := { s with free := s.free + b2n newRun }
  s.forAll (List.finRange 128) (fun s n =>
    let x := s.ep[n]
    if x.accFrames = 0 ∧ !newRun then s else
    let meas := x.accFrames ≠ 0
    let last := if meas then x.acc else x.fc.pLast
    let err := last.sub x.fc.pLast
    let fc : FcSt := if newRun then ⟨last, s.free, s.now / 10000, [], x.fc.longRun⟩
      else { x.fc with pLast := last, errs := if meas then lastN 10 (x.fc.errs ++ [err]) else x.fc.errs }
    s.updEp n (fun x => { x with
      acc := Fv.zero, accFrames := 0, fc := fc,
      win := if meas then x.win.add last else x.win, winFrames := x.winFrames + b2n meas,
      intents := x.intents.filter (fun i => s.now < i.stop) }))

/-- The base of a forecast step before its edges are shaped (R172): inside a pending intent c * P_MEAN + (1 - c) * p_last
with c = CONF / 255, elsewhere p_last; on a port whose TIME_OK is 0 the endpoint is forecast without its intents (R33). -/
def State.fcBase (s : State) (n : Fin 128) (at' : Nat) : Fv :=
  let x := s.ep[n]
  match if s.bit (Reg.STR_STS (n.val / 4)) 4 then x.intentAt at' else none with
  | none => x.fc.pLast
  | some i =>
    let m := (Fv.ofNat i.mean).scale (-2)
    (((Fv.ofNat i.conf).mul m).add ((Fv.ofNat (255 - i.conf)).mul x.fc.pLast)).div (Fv.ofNat 255)

/-- The base with the phase's edge shaped at RISE and FALL (W per microsecond) from the level before it (R172). -/
def State.fcShaped (s : State) (n : Fin 128) (at' : Nat) : Fv :=
  let b := s.fcBase n at'
  match s.ep[n].intentAt at' with
  | none => b
  | some i =>
    let prev := s.fcBase n (max s.now i.start - 1)
    let us := Fv.ofNat ((at' - max s.now i.start) / 1000)
    (b.min (prev.add (us.mul (Fv.ofNat i.rise)))).max (prev.sub (us.mul (Fv.ofNat i.fall)))

/-- Step `i` of an endpoint's short forecast (R172): base, learned residual, and the errors since the last model run. -/
def State.forecast (s : State) (n : Fin 128) (i : Nat) : Fv :=
  let fc := s.ep[n].fc
  let age := s.now / 10000 - fc.runFrame
  let base := (s.fcShaped n (s.now + 10000 * i)).add (f32 (Config.residual fc.run n (i + age)))
  fc.errs.reverse.zipIdx.foldl (fun (a : Fv) e => a.add (e.1.mul (f32 (Config.errWeight (i + e.2))))) base

/-- The spread sigma of a step (R172). -/
def State.forecastSpread (s : State) (n : Fin 128) (i : Nat) : Fv :=
  let fc := s.ep[n].fc
  f32 (Config.spread fc.run n (i + (s.now / 10000 - fc.runFrame)))

end Sys2Proof.Machine
end

