-- ==== Sys2Proof/Machine/Bricks.lean ====
section
/-!
DEFINITION. The phase bricks, Pleat and shedding (R194 to R207), the floor wires (R184 to R186, R230), and what every
protection action shares: faults, trips and reports (R231, R472, R362).
-/
namespace Sys2Proof.Machine

/-! ## Strings in pairs -/

/-- String 0 is A, 1 is B. -/
def strNum : Str → Fin 2
  | .A => 0
  | .B => 1

/-- The member of a pair for a string. -/
def sel {α : Type} (p : α × α) (x : Nat) : α := if x = 0 then p.1 else p.2

/-- A pair with the member for a string replaced. -/
def upd {α : Type} (p : α × α) (x : Nat) (a : α) : α × α := if x = 0 then (a, p.2) else (p.1, a)

/-- The bricks of a string (R194). -/
def bricksOf (x : Nat) : List (Fin 48) := (List.finRange 48).filter (fun b => b.val / 24 = x)

/-- The string of a brick. -/
def strOf (b : Fin 48) : Nat := b.val / 24

/-! ## Ownership (R16, R235) -/

/-- Is the module's OWNER line asserted (R332): commanded, and its hold timer runs? -/
def State.ownLine (s : State) : Bool := s.clp.drive && s.pulseUp && decide (s.now < s.clp.timerAt + 4000)

/-- Does the module drive the power stages: owner, not contested (R235), its lease checker passing (R329)? -/
def State.drives (s : State) : Bool := s.clp.drive && s.pulseUp && !s.clp.contest && s.clp.checkOk

/-- A discrete input's value in use, 1 while active (R421, R422). -/
def State.dinActive (s : State) (n : Nat) : Bool := s.bit (Reg.DIN_STS n) 2

/-! ## Brick states -/

/-- STATE of a brick (R198). -/
def State.bst (s : State) (b : Fin 48) : Nat := s.fld (Reg.PCM_STS b) 0 3

/-- Set a brick's STATE. -/
def State.setBst (s : State) (b : Fin 48) (x : Nat) : State := s.setFld (Reg.PCM_STS b) 0 3 x

/-- Replace a brick's record. -/
def State.updBrick (s : State) (b : Fin 48) (f : BrickSt → BrickSt) : State :=
  { s with pd := { s.pd with brick := s.pd.brick.set b (f s.pd.brick[b]) } }

/-- EXCLUDE of a brick. -/
def State.brickExcl (s : State) (b : Fin 48) : Bool := s.bit (Reg.PCM_CTL b) 2

/-- Has a brick that was active or shed been told to stop, and its stop not begun: that is at the next pulse-period boundary, at
which it leaves the shedding counts (R198)? -/
def State.stopAhead (s : State) (b : Fin 48) : Bool :=
  s.bst b = stStopping && (s.bit (Reg.PCM_STS b) 3 || s.bit (Reg.PCM_STS b) 4) &&
  (match s.pd.brick[b].ramp with
    | some k => decide (s.now < 4000 * k)
    | none => false)

/-- Is a brick in service: RUNNING, active or shed, and not excluded, or its stop still ahead (R198)? -/
def State.inSvc (s : State) (b : Fin 48) : Bool := (s.bst b = stRunning && !s.brickExcl b) || s.stopAhead b

/-- Bricks of a string in service. -/
def State.svcCount (s : State) (x : Nat) : Nat := (bricksOf x).countP s.inSvc

/-- STATE of a string's contactor block (R258). -/
def State.ctcState (s : State) (x : Nat) : Nat := s.fld (Reg.CTC_STS x) 0 3

/-- Is a string in service for the laws, the envelope and shedding: RUNNING (not parked, R268), with a brick in service
(R231), and its bricks not stopped by a contest (R335)? -/
def State.strSvc (s : State) (x : Nat) : Bool := s.ctcState x = stRunning && s.drives && 0 < s.svcCount x

/-- The strings in service. -/
def State.strs (s : State) : List Nat := [0, 1].filter s.strSvc

/-- Does the PCM block run (R235)? -/
def State.pcmRuns (s : State) : Bool := s.blk 0x102 = stRunning

/-! ## Events and reports (R472, R362) -/

/-- The CLE's report message (R362). -/
def cleReport (kind code unit index stamp value : Nat) : BitVec 2048 :=
  BitVec.ofNat 2048 (ofLe ([BitVec.ofNat 8 kind, BitVec.ofNat 8 code, BitVec.ofNat 8 unit, 0#8] ++ leBytes 2 index ++
    [0#8, 0#8] ++ leBytes 8 stamp ++ leBytes 4 value))

/-- The CLE posts a report to mailbox 36, if its TX_MASK admits the CLE (agent 2) and the base die can take it. -/
def State.reportCle (s : State) (kind code unit index value : Nat) : State :=
  s.mbxSelf 36 2 (cleReport kind code unit index s.now value)

/-- A protection trip (R231, R257): the PROT_TRIP event of the condition and the CLE's report. -/
def State.protTrip (s : State) (page cond unit index value : Nat) : State :=
  (s.post page sevFault 0x0050 unit cond index value 0).reportCle 2 cond unit index value

/-! ## Pleat (R200 to R203) -/

/-- The brick at an index of the map in force. -/
def State.mapAt (s : State) (i : Nat) : Fin 48 := ⟨s.pd.map.getD (i % 48) 0 % 48, Nat.mod_lt _ (by decide)⟩

/-- The rotated order (R200): position p holds PLT_MAP[(p + rho) mod 48]. -/
def State.order (s : State) : List (Fin 48) := (List.range 48).map (fun p => s.mapAt (p + s.reg Reg.PLT_ROT))

/-- The active count of a string in force: at most its bricks in service; all of them while SHD_CTL.ENABLE is 0 (R203,
R207). -/
def State.nOf (s : State) (x : Nat) : Nat :=
  if s.bit Reg.SHD_CTL 0 then min (sel s.pd.n x) (s.svcCount x) else s.svcCount x

/-- A string's bricks in service, in rotated order. -/
def State.svcOrder (s : State) (x : Nat) : List (Fin 48) := s.order.filter (fun b => s.inSvc b && strOf b = x)

/-- A string's active set (R203): its first n bricks in service in rotated order; none while it is parked (R268). -/
def State.activeOf (s : State) (x : Nat) : List (Fin 48) :=
  if s.ctcState x = stHold then [] else (s.svcOrder x).take (s.nOf x)

/-- The active bricks of both strings in rotated order. -/
def State.activeSet (s : State) : List (Fin 48) :=
  let a := s.activeOf 0
  let b := s.activeOf 1
  s.order.filter (fun k => a.contains k || b.contains k)

/-- A word of a register array that shows a byte per element. -/
def wordOf (l : List Nat) (w : Nat) : Nat :=
  l.getD (4 * w) 0 + 256 * l.getD (4 * w + 1) 0 + 65536 * l.getD (4 * w + 2) 0 + 16777216 * l.getD (4 * w + 3) 0

/-- Show the rotated order in PLT_ORDER. -/
def State.showOrder (s : State) : State :=
  let l := s.order.map (fun b => b.val)
  s.forAll (List.range 12) (fun s w => s.setReg (Reg.PLT_ORDER w) (wordOf l w))

/-- Recompute the offsets, ACTIVE and SHED after a change of the active set or of rho (R200): brick q of n at
floor(q * 10,000 / n) ticks; a brick that has left the set keeps the offset it had. -/
def State.pleat (s : State) : State :=
  let act := s.activeSet
  let n := act.length
  let s := s.forAll act.zipIdx (fun s e => s.updBrick e.1 (fun x => { x with offset := e.2 * 10000 / n }))
  let s := s.forAll (List.finRange 48) (fun s b =>
    let a := act.contains b
    let v := withField (withField (s.reg (Reg.PCM_STS b)) 3 1 (b2n a)) 4 1 (b2n (s.inSvc b && !a))
    if v = s.reg (Reg.PCM_STS b) then s else s.setReg (Reg.PCM_STS b) v)
  s.setFld Reg.SHD_STS 0 6 n

/-- Set a string's active count. -/
def State.setN (s : State) (x k : Nat) : State := { s with pd := { s.pd with n := upd s.pd.n x k } }

/-! ## Faults, stops and starts -/

/-- Put a brick into FAULT (R198): output low at once, a stop or a start ended, REARM_PENDING cleared (R234). -/
def State.brickFault (s : State) (cause : Nat) (b : Fin 48) : State :=
  if s.bst b = stFault then s else
  let v := withField (withField (withField (withField (s.reg (Reg.PCM_STS b)) 0 3 stFault) 3 2 0) 7 1 0) 8 8 cause
  (s.setReg (Reg.PCM_STS b) v).updBrick b (fun x => { x with on := false, armed := false, ramp := none, waitRot := false })

/-- Put all bricks of a list into FAULT. -/
def State.faultBricks (s : State) (l : List (Fin 48)) (cause : Nat) : State := s.forAll l (fun s b => s.brickFault cause b)

/-- Every brick. -/
def allBricks : List (Fin 48) := List.finRange 48

/-- Return a brick from FAULT to OFF. -/
def State.brickClear (s : State) (b : Fin 48) : State :=
  if s.bst b = stFault then
    let v := withField (withField (s.reg (Reg.PCM_STS b)) 0 3 stOff) 8 8 0
    (s.setReg (Reg.PCM_STS b) v).updBrick b (fun x => { x with cbcRun := 0, hit := false })
  else s

/-- Start a brick from OFF (R198, R235): it joins at the next pulse-period boundary, or at the next rotation where another
brick of its string runs; a module that does not drive, and a block that does not run, only keep ENABLE. -/
def State.brickStart (s : State) (b : Fin 48) : State :=
  if !s.drives || !s.pcmRuns || s.brickExcl b || s.bst b ≠ stOff then s else
  let other := (bricksOf (strOf b)).any (fun c => s.bst c = stRunning)
  (s.setBst b stStarting).updBrick b (fun x => { x with waitRot := other, onAt := s.now, m2 := [], ramp := none })

/-- Stop a brick (R198): its threshold ramps to 0 over 4 pulse periods from the next boundary. -/
def State.brickStop (s : State) (b : Fin 48) : State :=
  if s.bst b = stStarting ∨ s.bst b = stRunning then
    (s.setBst b stStopping).updBrick b (fun x => { x with
      ramp := some (alignUp 4000 s.now / 4000), rampCode := s.reg (Reg.PCM_CODE b), waitRot := false })
  else s

/-- A write of ENABLE to a brick by the table of R234 (FAULT with 1 is judged before). -/
def State.brickEnable (s : State) (b : Fin 48) (on : Bool) : State :=
  let st := s.bst b
  if on then
    if st = stOff then s.brickStart b
    else if st = stStopping then s.setBit (Reg.PCM_STS b) 7 true else s
  else if st = stStopping then s.setBit (Reg.PCM_STS b) 7 false
  else s.brickStop b

/-- Bricks not in FAULT go to OFF without a ramp (R235). -/
def State.brickDrop (s : State) (b : Fin 48) : State :=
  let s := s.setBit (Reg.PCM_STS b) 7 false
  if s.bst b = stFault then s else
  let v := withField (withField (s.reg (Reg.PCM_STS b)) 0 3 stOff) 3 2 0
  (s.setReg (Reg.PCM_STS b) v).updBrick b (fun x => { x with on := false, armed := false, ramp := none, waitRot := false })

/-- Has the cause of a brick's FAULT gone (R199)? -/
def State.brickGone (s : State) (b : Fin 48) : Bool :=
  match s.fld (Reg.PCM_STS b) 8 8 with
  | 1 => s.reg (Reg.PCM_IPK b) < s.reg (Reg.PCM_HARD b) || !s.pd.brick[b].on
  | 2 => true
  | 3 => !s.dinActive (8 + b)
  | 7 =>
    let met (i : Nat) : Bool := (sparseFind s.cle.metRun i).getD 0 = 16
    met 4 && met (5 + strOf b)
  | _ => false

/-- May a write of PCM_CTL be taken (R199, R234)? -/
def pcmCtlOk (b : Fin 48) (s : State) (v : Nat) : Bool :=
  if s.bst b = stFault then if bitOf v 1 then s.brickGone b else v % 2 = 0 else true

/-- What a write of PCM_CTL does: CLEAR first, then EXCLUDE, then ENABLE (R198, R199, R234). -/
def pcmCtlEff (b : Fin 48) (s : State) (v : Nat) : State :=
  let s := if bitOf v 1 then s.brickClear b else s
  if bitOf v 2 then (if s.bst b = stStopping then s else s.brickStop b) else s.brickEnable b (v % 2 = 1)

/-- A write of PCM_CTL that sets or clears ENABLE (R198). -/
def execPcmEnable (t : Nat) (w : Writer) (b : Fin 48) (v : Word) (s : State) : Host.Outcome State Fault Refusal :=
  run t s fun s => s.ownWrite w (Reg.PCM_CTL b) v.toNat (pcmCtlOk b) (pcmCtlEff b)

/-- A write of PCM_CTL that sets or clears EXCLUDE (R198). -/
def execPcmExclude (t : Nat) (w : Writer) (b : Fin 48) (v : Word) (s : State) : Host.Outcome State Fault Refusal :=
  run t s fun s => s.ownWrite w (Reg.PCM_CTL b) v.toNat (pcmCtlOk b) (pcmCtlEff b)

/-- A write of PCM_CTL that sets CLEAR (R199). -/
def execPcmClear (t : Nat) (w : Writer) (b : Fin 48) (v : Word) (s : State) : Host.Outcome State Fault Refusal :=
  run t s fun s => s.ownWrite w (Reg.PCM_CTL b) v.toNat (pcmCtlOk b) (pcmCtlEff b)

/-- The stop ramp of a STOPPING brick has run its 4 pulse periods (R198): OFF; a pending rearm starts it (R234). -/
def execBrickStopDone (t : Nat) (b : Fin 48) (s : State) : Host.Outcome State Fault Refusal :=
  run t s fun s =>
    match s.pd.brick[b].ramp with
    | none => s
    | some k =>
      if s.bst b = stStopping ∧ k + 4 ≤ s.now / 4000 then
        let rearm := s.bit (Reg.PCM_STS b) 7
        let s := (s.setBst b stOff).setBit (Reg.PCM_STS b) 7 false
        let s := s.updBrick b (fun x => { x with ramp := none, on := false, armed := false })
        if rearm then s.brickStart b else s
      else s

/-! ## A switching period (R194, R195) -/

/-- DIR of a string (R196): its bricks all carry it; the string's first brick tells it. -/
def State.strDir (s : State) (x : Nat) : Bool := s.bit (Reg.PCM_STS (24 * x)) 5

/-- The cycle-by-cycle limit in the direction in force (R195). -/
def State.cbcLimit (s : State) (b : Fin 48) : Nat :=
  if s.strDir (strOf b) then s.fld (Reg.PCM_LIMIT b) 16 12 else s.fld (Reg.PCM_LIMIT b) 0 12

/-- A quotient whose rounding the spec leaves open when it is not whole (log 33). -/
def divOpen (kind a b : Nat) : Nat := if a % b = 0 then a / b else Config.roundOpen kind a b

/-- The threshold a brick loads at its turn-on at picosecond `ps` (R195, R197, R198, R204): the string's, the one before
where the turn-on falls before the string law's write, with the trim and clamped; 0 while the string turns; a part of it
while the brick ramps to 0. -/
def State.loadCode (s : State) (b : Fin 48) (ps : Nat) : Nat :=
  let x := strOf b
  let base := if ps < sel s.pd.thrAt x then sel s.pd.thrPrev x else sel s.pd.thr x
  let c := (clampInt 0 (s.cbcLimit b) ((base : Int) + sext 8 (s.reg (Reg.PCM_TRIM b)))).toNat
  if sel s.pd.turn x then 0 else
  match s.pd.brick[b].ramp with
  | none => c
  | some k => let e := s.now / 4000 - k; if 4 ≤ e then 0 else divOpen 1 (c * (4 - e)) 4

/-- Does a brick switch now: its module drives, and it is active or ramps to 0? -/
def State.brickSwitches (s : State) (b : Fin 48) : Bool :=
  s.drives && (s.bit (Reg.PCM_STS b) 3 || (s.pd.brick[b].ramp.isSome && s.bst b ≠ stFault && s.bst b ≠ stOff))

/-- Turn-on (R194): at its Pleat offset the brick loads its threshold and the ramp starts at 0; the period's hit is clear. -/
def execBrickTurnOn (t : Nat) (b : Fin 48) (s : State) : Host.Outcome State Fault Refusal :=
  run t s fun s =>
    if s.brickSwitches b && s.prt.pll then
      let ps := s.now / 4000 * 4000000 + s.pd.brick[b].offset * 400
      let s := s.setReg (Reg.PCM_CODE b) (s.loadCode b ps)
      s.updBrick b (fun x => { x with on := true, onAt := s.now, armed := false, hit := false })
    else s

/-- The end of blanking arms the comparator (R194). -/
def execBrickBlankEnd (t : Nat) (b : Fin 48) (s : State) : Host.Outcome State Fault Refusal :=
  run t s fun s =>
    if s.pd.brick[b].on then s.updBrick b (fun x => { x with armed := true }) else s

/-- The downslope m2 in use (R195): the mean of the last 16 measured; in a brick's first 16 periods the mean of the active
bricks of its string. PCM_DS shows it. -/
def State.m2 (s : State) (b : Fin 48) : Fv := f32 (s.reg (Reg.PCM_DS b))

/-- The level that ends the pulse `ticks` after turn-on (R195), in DAC steps of 10 mA: threshold less
SLOPE / 64 * m2 * (t - BLANK), m2 in A per microsecond and a tick of 0.4 ns. -/
def State.rampLevel (s : State) (b : Fin 48) (ticks : Nat) : Fv :=
  let d := ticks - s.reg (Reg.PCM_BLANK b)
  let fall := ((s.m2 b).mul (Fv.ofNat (s.fld (Reg.PCM_SLOPE b) 0 8 * d * 4))).div (Fv.ofNat 6400)
  (Fv.ofNat (s.reg (Reg.PCM_CODE b))).sub fall

/-- The sensed current in the direction in force (R195). -/
def State.senseDir (s : State) (b : Fin 48) (i : Int) : Int := if s.strDir (strOf b) then -i else i

/-- The end of a pulse: the peak current, whether the cycle-by-cycle limit ended it, and the run of such periods. -/
def State.turnOff (s : State) (b : Fin 48) (i : Int) (hit : Bool) : State :=
  let s := s.setReg (Reg.PCM_IPK b) (min (s.senseDir b i).toNat 4095)
  let s := s.setBit (Reg.PCM_STS b) 6 hit
  let s := if hit then s.inc (Reg.PCM_CBC_CNT b) else s
  s.updBrick b (fun x => { x with on := false, armed := false, hit := hit, cbcRun := if hit then x.cbcRun + 1 else 0 })

/-- The sensed current crosses the threshold less the ramp (R195): turn-off. -/
def execBrickThresholdCross (t : Nat) (b : Fin 48) (i : Int) (ticks : Nat) (s : State) : Host.Outcome State Fault Refusal :=
  run t s fun s =>
    let x := s.pd.brick[b]
    if x.on && x.armed && s.reg (Reg.PCM_BLANK b) ≤ ticks && (s.rampLevel b ticks).le (Fv.ofInt (s.senseDir b i)) then
      s.turnOff b i false
    else s

/-- The cycle-by-cycle limit is crossed after BLANK (R194): turn-off, CBC_HIT. -/
def execBrickCbcLimit (t : Nat) (b : Fin 48) (i : Int) (ticks : Nat) (s : State) : Host.Outcome State Fault Refusal :=
  run t s fun s =>
    let x := s.pd.brick[b]
    if x.on && x.armed && s.reg (Reg.PCM_BLANK b) ≤ ticks && (s.cbcLimit b : Int) ≤ s.senseDir b i then s.turnOff b i true
    else s

/-- MAX_ON without a crossing (R194): forced turn-off. -/
def execBrickMaxOn (t : Nat) (b : Fin 48) (i : Int) (ticks : Nat) (s : State) : Host.Outcome State Fault Refusal :=
  run t s fun s =>
    if s.pd.brick[b].on && s.reg (Reg.PCM_MAX_ON b) ≤ ticks then s.turnOff b i false else s

/-- The hard-limit comparator (R194, R231): turn-off, blanking included, and FAULT. -/
def execBrickHardLimit (t : Nat) (b : Fin 48) (i : Int) (s : State) : Host.Outcome State Fault Refusal :=
  run t s fun s =>
    if s.reg (Reg.PCM_HARD b) ≤ i.natAbs ∧ (s.bst b = stRunning ∨ s.bst b = stStopping) then
      let s := s.setReg (Reg.PCM_IPK b) (min i.natAbs 4095)
      let s := s.brickFault 1 b
      s.protTrip (0x102 + b.val / 8) 0x06 (strOf b) b.val (rn32 ((Fv.ofNat i.natAbs).div (Fv.ofNat 100)))
    else s

/-- The cycle-by-cycle limit has ended PRT_CBC_PERSIST consecutive periods (R231): FAULT. -/
def execBrickPersistentLimit (t : Nat) (b : Fin 48) (s : State) : Host.Outcome State Fault Refusal :=
  run t s fun s =>
    if s.reg Reg.PRT_CBC_PERSIST ≤ s.pd.brick[b].cbcRun ∧ s.pd.brick[b].cbcRun ≠ 0 ∧ s.bst b ≠ stFault then
      (s.brickFault 2 b).protTrip (0x102 + b.val / 8) 0x07 (strOf b) b.val 0
    else s

/-- A deglitched brick alert (R231, R421): FAULT. -/
def execBrickAlertFault (t : Nat) (b : Fin 48) (s : State) : Host.Outcome State Fault Refusal :=
  run t s fun s =>
    if s.dinActive (8 + b) && s.pulseUp && s.bst b ≠ stFault then
      (s.brickFault 3 b).protTrip (0x102 + b.val / 8) 0x08 (strOf b) b.val 0
    else s

/-! ## Rotation (R200, R201, R206) -/

/-- Does a rotation boundary fall on this pulse period? -/
def State.rotDue (s : State) : Bool :=
  s.now % 4000 = 0 && s.now / 4000 % max 1 (s.reg Reg.PLT_PERIOD) = 0 && s.pd.rotAt ≠ s.now

/-- Is a step re-add in its two pulse periods (R206)? -/
def State.inReadd (s : State) : Bool :=
  match s.pd.b0 with
  | some b => decide (s.now < b + 8000)
  | none => false

/-- The pending map as words of PLT_MAP. -/
def State.pendingMap (s : State) : List Nat :=
  ((List.range 12).map (fun w => (List.range 4).map (fun k => s.fld (Reg.PLT_MAP w) (8 * k) 8))).flatten

/-- Is a list a permutation of 0 to 47? -/
def isPerm48 (l : List Nat) : Bool := l.length = 48 && (List.range 48).all (fun b => l.contains b)

/-- The pending map is judged whole at a rotation boundary (R201). -/
def State.judgeMap (s : State) : State :=
  if !s.bit Reg.PLT_STS 1 then s else
  let l := s.pendingMap
  let s := s.setBit Reg.PLT_STS 1 false
  if isPerm48 l then { s.setBit Reg.PLT_STS 2 false with pd := { s.pd with map := l } }
  else
    let s := (s.setBit Reg.PLT_STS 2 true).irqSet 0x109 0x10
    let e : AudRec := { s.audEntry ⟨s.pd.mapPath, 0, .auditor⟩ (Reg.PLT_MAP 0) 0 false true with src := 0x0109 }
    let s := s.audPdPut e
    s.forAll (List.range 12) (fun s w => s.setReg (Reg.PLT_MAP w) (wordOf s.pd.map w))

/-- Bricks that wait for a rotation enter in the shed state (R347). -/
def State.reenter (s : State) : State :=
  s.forAll allBricks (fun s b =>
    if s.bst b = stStarting ∧ s.pd.brick[b].waitRot then
      (s.setBst b stRunning).updBrick b (fun x => { x with waitRot := false })
    else s)

/-- A rotation boundary takes place (R200, R201): the map is judged, bricks enter, rho advances unless frozen. -/
def State.rotate (s : State) : State :=
  let s := s.judgeMap.reenter
  let s := if s.bit Reg.PLT_CTL 0 then (s.setReg Reg.PLT_ROT ((s.reg Reg.PLT_ROT + 1) % 48)).inc Reg.PLT_ROT_CNT else s
  s.showOrder.pleat

/-- A rotation boundary (R200); within a step re-add it is deferred (R206). -/
def execPleatRotation (t : Nat) (s : State) : Host.Outcome State Fault Refusal :=
  run t s fun s =>
    if s.pulseUp && s.rotDue then
      let s := { s with pd := { s.pd with rotAt := s.now } }
      if s.inReadd then { s.setBit Reg.PLT_STS 0 true with pd := { s.pd with deferred := s.pd.deferred + 1 } }
      else s.rotate
    else s

/-- The deferred rotation at B0 + 8 us (R206). -/
def execDeferredRotation (t : Nat) (s : State) : Host.Outcome State Fault Refusal :=
  run t s fun s =>
    if s.bit Reg.PLT_STS 0 && !s.inReadd && s.now % 4000 = 0 then
      let k := s.pd.deferred
      let s := { s.setBit Reg.PLT_STS 0 false with pd := { s.pd with deferred := 0 } }
      s.forAll (List.range k) (fun s _ => s.rotate)
    else s

/-- A word write of PLT_MAP (R201). Reading and writing go to the pending map. -/
def pltMapEff (w : Writer) (s : State) (_ : Nat) : State :=
  { s.setBit Reg.PLT_STS 1 true with pd := { s.pd with mapPath := w.path } }

/-- A word write of PLT_MAP goes into the pending map (R201). -/
def execPltMapWrite (t : Nat) (w : Writer) (i : Fin 12) (v : Word) (s : State) : Host.Outcome State Fault Refusal :=
  run t s fun s => s.ownWrite w (Reg.PLT_MAP i) v.toNat anyValue (pltMapEff w)

/-! ## Shedding (R203 to R207) -/

/-- Does the hold-off after a step run (R206)? -/
def State.holdoff (s : State) : Bool :=
  match s.pd.lastStep with
  | some b => decide (s.now < b + s.reg Reg.SHD_HOLDOFF * 1000000)
  | none => false

/-- A step is detected (R205, R206): counted, stamped, the hold-off starts again; a step during a re-add changes nothing
else. -/
def State.stepDetect (s : State) : State :=
  let s := (s.inc Reg.SHD_STEP_CNT).stampReg Reg.SHD_STEP_STAMP
  let s := s.setBit Reg.SHD_STS 8 true
  { s with pd := { s.pd with
      lastStep := some s.now, stepAt := if s.inReadd then s.pd.stepAt else some (s.pd.stepAt.getD s.now) } }

/-- Start shed bricks: the string's count grows, and a ramp in progress is aborted and counted. -/
def State.addTo (s : State) (x k : Nat) : State := s.setN x (s.nOf x + k)

/-- Bricks of the active set that still ramp rejoin it (R206). -/
def State.abortRamps (s : State) : State :=
  s.forAll s.activeSet (fun s b =>
    if s.pd.brick[b].ramp.isSome && s.bst b = stRunning then
      (s.updBrick b (fun x => { x with ramp := none })).inc Reg.SHD_ABORT_CNT
    else s)

/-- The first boundary B0 after a step (R206): shedding is aborted, and the first half of the shed bricks in rotated order
start. -/
def State.stepReadd (s : State) : State :=
  let ramping := allBricks.filter (fun b => s.pd.brick[b].ramp.isSome && s.bst b = stRunning)
  let s := s.forAll ramping (fun s b =>
    ((s.updBrick b (fun x => { x with ramp := none })).inc Reg.SHD_ABORT_CNT).addTo (strOf b) 1)
  let act := s.activeSet
  let shed := s.order.filter (fun b => s.inSvc b && !act.contains b && s.ctcState (strOf b) ≠ stHold)
  let half := shed.take ((shed.length + 1) / 2)
  let s := s.forAll [0, 1] (fun s x => s.addTo x (half.countP (fun b => strOf b = x)))
  let s := { s with pd := { s.pd with b0 := some s.now, stepAt := none, shedPulse := none, lowSince := none } }
  (s.setFld Reg.SHD_STS 6 2 3).pleat

/-- B0 + 4 us: the rest of the shed bricks start (R206). -/
def execStepReaddSecond (t : Nat) (s : State) : Host.Outcome State Fault Refusal :=
  run t s fun s =>
    match s.pd.b0 with
    | none => s
    | some b =>
      if s.now = b + 4000 then
        let s := s.forAll [0, 1] (fun s x => s.setN x (s.svcCount x))
        (s.setFld Reg.SHD_STS 6 2 0).pleat
      else s

/-- Magnitude of a string's command over its active bricks, compared: is |s_x| / n_x below / above an FP32 level? -/
def State.perBrick (s : State) (x : Nat) (lvl : Nat) (above : Bool) : Bool :=
  let p := (f32 (s.reg (if x = 0 then Reg.PLS_S_A else Reg.PLS_S_B))).abs
  let l := (f32 lvl).mul (Fv.ofNat (s.nOf x))
  if above then l.lt p else p.lt l

/-- The condition for shedding holds at this boundary (R204). -/
def State.shedCond (s : State) : Bool :=
  !s.strs.isEmpty && s.strs.all (fun x => s.perBrick x (s.reg Reg.SHD_OFF_KW) false)

/-- May one more position, or pair, be shed (R203)? -/
def State.canShed (s : State) : Bool :=
  let tot := s.nOf 0 + s.nOf 1
  match s.strs with
  | [x] => 1 ≤ s.nOf x && s.reg Reg.SHD_MIN + 1 ≤ tot
  | [_, _] => 1 ≤ s.nOf 0 && 1 ≤ s.nOf 1 && s.reg Reg.SHD_MIN + 2 ≤ tot
  | _ => false

/-- Shed the last active position, or pair (R203, R204): its threshold ramps to 0 over 4 pulse periods. -/
def State.shedOne (s : State) : State :=
  if !s.canShed then s else
  let s := s.forAll s.strs (fun s x =>
    match (s.activeOf x).getLast? with
    | none => s
    | some b => (s.updBrick b (fun e => { e with ramp := some (s.now / 4000), rampCode := s.reg (Reg.PCM_CODE b) })).setN x
        (s.nOf x - 1))
  { s with pd := { s.pd with shedPulse := some (s.now / 4000) } }.pleat

/-- Shedding starts once its condition has held for SHD_DWELL with no hold-off (R204). -/
def execShedStart (t : Nat) (s : State) : Host.Outcome State Fault Refusal :=
  run t s fun s =>
    match s.pd.lowSince with
    | some b =>
      if s.bit Reg.SHD_CTL 0 && s.pd.shedPulse.isNone && !s.holdoff && !s.inReadd && s.now % 4000 = 0 &&
          decide (b + s.reg Reg.SHD_DWELL * 1000000 ≤ s.now) then
        (s.setFld Reg.SHD_STS 6 2 1).shedOne
      else s
    | none => s

/-- Every 16 pulse periods the next position or pair is shed while the condition holds (R204). -/
def execShedStep (t : Nat) (s : State) : Host.Outcome State Fault Refusal :=
  run t s fun s =>
    match s.pd.shedPulse, s.pd.lowSince with
    | some k, some _ => if s.bit Reg.SHD_CTL 0 && s.now % 4000 = 0 && decide (k + 16 ≤ s.now / 4000) then s.shedOne else s
    | _, _ => s

/-- The hold-off ends (R206). -/
def execShedHoldoffEnd (t : Nat) (s : State) : Host.Outcome State Fault Refusal :=
  run t s fun s => if s.holdoff then s else s.setBit Reg.SHD_STS 8 false

/-- One add (R203, R204): a shed brick of each string in service that still has one. -/
def State.addOne (s : State) : State :=
  s.forAll s.strs (fun s x => if s.nOf x < s.svcCount x then s.addTo x 1 else s)

/-- A string that enters service (R203): all its bricks where none runs, else the other string's count. -/
def State.entryCounts (s : State) : State :=
  let was := s.pd.entered
  let has (x : Nat) : Bool := s.ctcState x = stRunning && 0 < s.svcCount x
  let s := s.forAll [0, 1] (fun s x =>
    if has x && !sel was x then
      if sel was (1 - x) && has (1 - x) then s.setN x (min (s.nOf (1 - x)) (s.svcCount x)) else s.setN x (s.svcCount x)
    else s)
  { s with pd := { s.pd with entered := (has 0, has 1) } }

/-- The bounds that always hold (R203): n_A = n_B but for the extra bricks of the string with more in service, and never
below SHD_MIN nor above the bricks in service. -/
def State.boundCounts (s : State) : State :=
  let s := match s.strs with
    | [_, _] =>
      let a := s.nOf 0
      let b := s.nOf 1
      if a < b then s.setN 0 (min (s.svcCount 0) (max a (b - (s.svcCount 1 - s.svcCount 0))))
      else if b < a then s.setN 1 (min (s.svcCount 1) (max b (a - (s.svcCount 0 - s.svcCount 1)))) else s
    | _ => s
  s.forAll (List.range 48) (fun s _ => if s.nOf 0 + s.nOf 1 < s.reg Reg.SHD_MIN then s.addOne else s)

/-- The shedding controller at a pulse-period boundary (R203 to R206): entries, the step re-add, adds while per-brick power
exceeds SHD_ADD_KW, and since when shedding's condition holds. -/
def State.shedBoundary (s : State) : State :=
  let s := s.entryCounts
  let s := { s with pd := { s.pd with b0 := if s.inReadd then s.pd.b0 else none } }
  if !s.bit Reg.SHD_CTL 0 then
    let s := s.forAll allBricks (fun s b => if s.bst b = stRunning then s.updBrick b (fun x => { x with ramp := none }) else s)
    let s := { s with pd := { s.pd with n := (s.svcCount 0, s.svcCount 1), lowSince := none, shedPulse := none, stepAt := none } }
    (s.setFld Reg.SHD_STS 6 2 0).pleat
  else
    match s.pd.stepAt with
    | some k => if k < s.now ∧ s.pd.b0Min ≤ s.now ∧ !s.inReadd then s.stepReadd else s
    | none =>
      if s.inReadd then s else
      if s.strs.any (fun x => s.perBrick x (s.reg Reg.SHD_ADD_KW) true) then
        let s := { s.addOne.boundCounts with pd := { s.addOne.boundCounts.pd with lowSince := none, shedPulse := none } }
        (s.setFld Reg.SHD_STS 6 2 2).abortRamps.pleat
      else if s.shedCond then
        let low := s.pd.lowSince.getD s.now
        let s := { s.boundCounts with pd := { s.boundCounts.pd with lowSince := some low } }
        (s.setFld Reg.SHD_STS 6 2 (b2n s.pd.shedPulse.isSome)).pleat
      else
        let s := { s.boundCounts with pd := { s.boundCounts.pd with lowSince := none, shedPulse := none } }
        (s.setFld Reg.SHD_STS 6 2 0).abortRamps.pleat

/-! ## Floor wires (R230) -/

/-- The trays some source asserts. -/
def State.floorMask (s : State) : Nat :=
  s.gov.planMask ||| s.gov.holdMask ||| s.gov.alertMask ||| s.reg Reg.PLS_FLOOR_FORCE

/-- Does protection call for FLOOR_ALL_N (R231): undervoltage warning or trip? -/
def State.floorAllProt (s : State) : Bool := s.bit Reg.PRT_STS 1 || s.bit Reg.PRT_STS 9

/-- Does the module drive the floor wires (R16, R335): it commands its line, and the line reads asserted? -/
def State.drivesFloors (s : State) : Bool := s.clp.drive && s.pulseUp && s.clp.line && s.clp.checkOk

/-- Show what the module drives on the floor wires (R230, R236). -/
def State.refreshFloors (s : State) : State :=
  let own := s.drivesFloors
  let s := s.setReg Reg.PLS_FLOOR_OUT (if own then s.floorMask else 0)
  let all := own && (s.floorAllProt || s.bit Reg.PLS_FLOOR_ALL 31)
  (s.setBit Reg.PLS_FLOOR_ALL 0 all).setBit Reg.PLS_FLOOR_ALL 1 s.floorAllProt

/-- A tray's alert is active: the pulse die asserts the tray's floor (R185). -/
def State.alertActive (s : State) (j : Nat) : State :=
  { s with gov := { s.gov with
      alertMask := s.gov.alertMask ||| 2 ^ j, alerts := s.gov.alerts ||| 2 ^ j,
      alertEnd := sparseErase s.gov.alertEnd j } }.refreshFloors

/-- TRAY_ALERT_N active (R185). -/
def execTrayAlertActive (t : Nat) (j : Fin 32) (s : State) : Host.Outcome State Fault Refusal :=
  run t s fun s => if s.pulseUp then s.alertActive j else s

/-- TRAY_ALERT_N of a tray has become inactive at an instant. -/
def State.alertInactive (s : State) (j : Nat) : State :=
  { s with gov := { s.gov with
      alerts := withField s.gov.alerts j 1 0, alertEnd := sparseIns (sparseErase s.gov.alertEnd j) j s.now } }

/-- After 1 ms of an inactive alert its floor is released (R185); a wire another source holds stays asserted (R230). -/
def execTrayAlertRelease (t : Nat) (j : Fin 32) (s : State) : Host.Outcome State Fault Refusal :=
  run t s fun s =>
    match sparseFind s.gov.alertEnd j.val with
    | none => s
    | some e =>
      if e + 1000000 ≤ s.now then
        { s with gov := { s.gov with
            alertMask := withField s.gov.alertMask j.val 1 0, alertEnd := sparseErase s.gov.alertEnd j.val } }.refreshFloors
      else s

/-- A write of PLS_FLOOR_FORCE (R230). -/
def execPlsFloorForceWrite (t : Nat) (w : Writer) (v : Word) (s : State) : Host.Outcome State Fault Refusal :=
  run t s fun s => s.ownWrite w Reg.PLS_FLOOR_FORCE v.toNat anyValue (fun s _ => s.refreshFloors)

/-- A write of PLS_FLOOR_ALL (R230). -/
def execPlsFloorAllForce (t : Nat) (w : Writer) (v : Word) (s : State) : Host.Outcome State Fault Refusal :=
  run t s fun s => s.ownWrite w Reg.PLS_FLOOR_ALL v.toNat anyValue (fun s _ => s.refreshFloors)

end Sys2Proof.Machine
end

