-- ==== Sys2Proof/Machine/Cle.lean ====
section
/-!
DEFINITION. The storage command (R191), the voltage-mode channels (R216 to R219) and the control-law engine (R208 to R215),
with the contactor coils that both share with protection.
-/
namespace Sys2Proof.Machine

/-! ## The envelope row in force and the storage command (R191, R222) -/

/-- A value of an envelope row (R224): k = 0 S_MIN, 1 S_MAX, 2 SLEW, 3 R_MAX. -/
def State.rowVal (s : State) (r k : Nat) : Nat := s.reg (Reg.GOV_ROW0_SMIN + 16 * r + 4 * k)

/-- The envelope row in force. -/
def State.row (s : State) : Nat := s.fld Reg.GOV_STS 1 2

/-- The bricks of a string that count in k_x: none while it is parked (R268). -/
def State.kCount (s : State) (x : Nat) : Nat := if s.ctcState x = stHold then 0 else s.svcCount x

/-- 8.75 kW times a number of bricks. -/
def brickKw (n : Nat) : Fv := (Fv.ofNat (35 * n)).scale (-2)

/-- L_x (R191): the row's bounds met with the bricks in service; [0, 0] without any; no charge while the string is cold
(R257). -/
def State.limits (s : State) (x : Nat) : Fv × Fv :=
  let n := s.svcCount x
  if n = 0 then (Fv.zero, Fv.zero) else
  let b := brickKw n
  let cold := if x = 0 then !s.loop[0].coldInputs.isEmpty else !s.loop[1].coldInputs.isEmpty
  (if cold then Fv.zero else (f32 (s.rowVal s.row 0)).max b.neg, (f32 (s.rowVal s.row 1)).min b)

/-- Clamp of an FP32 code to bounds; what is no number is a free value. -/
def clampCmd (lo hi : Fv) (x free : Nat) : Nat :=
  if (f32 x) = .nan then free % 2 ^ 32
  else if (f32 x).lt lo then rn32 lo else if hi.lt (f32 x) then rn32 hi else x

/-- k_x * b + t_x, rounded once to FP32. -/
def State.rawCmd (s : State) (x : Nat) : Nat :=
  let t := f32 (s.reg (if x = 0 then Reg.GOV_T_A else Reg.GOV_T_B))
  let tot := s.kCount 0 + s.kCount 1
  if tot = 0 then rn32 t else
  rn32 (((t.mul (Fv.ofNat tot)).add ((f32 s.pd.busLaw).mul (Fv.ofNat (s.kCount x)))).div (Fv.ofNat tot))

/-- The storage command s_x (R191), an FP32 code in kW. -/
def State.sCmd (s : State) (x : Nat) : Nat :=
  let l := s.limits x
  if s.svcCount x = 0 then 0 else clampCmd l.1 l.2 (s.rawCmd x) (Config.freeValue s.free x)

/-- PLS_S_A and PLS_S_B take the storage commands. -/
def State.storeCmd (s : State) : State :=
  { (s.setReg Reg.PLS_S_A (s.sCmd 0)).setReg Reg.PLS_S_B (s.sCmd 1) with free := s.free + 1 }

/-- The stored command of a string. -/
def State.sReg (s : State) (x : Nat) : Nat := s.reg (if x = 0 then Reg.PLS_S_A else Reg.PLS_S_B)

/-! ## Contactor coils (R259, R260) -/

/-- Replace a string's contactor record. -/
def State.updCtc (s : State) (x : Fin 2) (f : CtcSt → CtcSt) : State := { s with ctc := s.ctc.set x (f s.ctc[x]) }

/-- Drive or release a string's main coil (CTC_STS [5]); a change of command is stamped (R231). -/
def State.mainCoil (s : State) (x : Fin 2) (on : Bool) : State :=
  if s.bit (Reg.CTC_STS x) 5 = on then s
  else (s.setBit (Reg.CTC_STS x) 5 on).updCtc x (fun c => { c with mainAt := s.now })

/-- Drive or release a string's precharge coil (CTC_STS [7]). -/
def State.preCoil (s : State) (x : Fin 2) (on : Bool) : State :=
  if s.bit (Reg.CTC_STS x) 7 = on then s
  else (s.setBit (Reg.CTC_STS x) 7 on).updCtc x (fun c => { c with preAt := s.now })

/-- Set a contactor block's STATE. -/
def State.setCtc (s : State) (x : Fin 2) (st : Nat) : State := s.setFld (Reg.CTC_STS x) 0 3 st

/-! ## Voltage-mode channels (R216 to R219) -/

/-- STATE of a channel. -/
def State.vmst (s : State) (n : Fin 4) : Nat := s.fld (Reg.VMC_STS n) 0 3

/-- Replace a channel's record. -/
def State.updVm (s : State) (n : Fin 4) (f : VmSt → VmSt) : State := { s with vm := s.vm.set n (f s.vm[n]) }

/-- A channel's target in V (R216): its string's voltage, or VMC_TARGET in 10 mV. -/
def State.vmTarget (s : State) (n : Fin 4) : Fv :=
  if s.bit (Reg.VMC_CTL n) 1 then f32 (if n.val = 0 then s.pd.sense.vA else s.pd.sense.vB)
  else (Fv.ofNat (s.reg (Reg.VMC_TARGET n))).div (Fv.ofNat 100)

/-- Is the output within 2 % of the target? -/
def State.vmWithin (s : State) (n : Fin 4) : Bool :=
  let t := s.vmTarget n
  (((f32 (s.reg (Reg.VMC_VOUT n))).sub t).abs.mul (Fv.ofNat 50)).le t

/-- The soft-start reference (R217), an FP32 code in V: from the voltage at the start linearly to the target at
TARGET / SS_TIME; the target once reached, and while RUNNING. -/
def State.ssRef (s : State) (n : Fin 4) : Nat :=
  let t := s.vmTarget n
  let x := s.vm[n]
  if s.vmst n ≠ stStarting then rn32 t else
  let step := (t.mul (Fv.ofNat (s.now - x.startAt))).div (Fv.ofNat (max 1 (s.reg (Reg.VMC_SS_TIME n) * 1000000)))
  let v := f32 x.v0
  rn32 (if v.lt t then (v.add step).min t else (v.sub step).max t)

/-- A channel becomes RUNNING. -/
def State.vmRun (s : State) (n : Fin 4) : State := (s.setFld (Reg.VMC_STS n) 0 3 stRunning).updVm n (fun x => { x with runAt := s.now })

/-- A start (R217): RUNNING at once where the output is already within 2 %. Only a module that drives its stages, and a
block that runs, start one (R235). -/
def State.vmStart (s : State) (n : Fin 4) : State :=
  if !s.drives || s.blk 0x108 ≠ stRunning then s else
  let s := (s.setFld (Reg.VMC_STS n) 0 3 stStarting).updVm n (fun x => { x with
    v0 := s.reg (Reg.VMC_VOUT n), startAt := s.now })
  if s.vmWithin n then s.vmRun n else s

/-- RETRY of a channel (R218), whole in RETRY_N and saturated in RETRY. -/
def State.setRetry (s : State) (n : Fin 4) (k : Nat) : State :=
  (s.setFld (Reg.VMC_STS n) 16 4 k).setFld (Reg.VMC_STS n) 5 2 (min k 3)

/-- Turn a channel's output off. -/
def State.vmOff (s : State) (n : Fin 4) : State := s.setReg (Reg.VMC_DUTY n) 0

/-- A stop (R234): the duty ramps to 0 over 1 ms. -/
def State.vmStop (s : State) (n : Fin 4) : State :=
  (s.setFld (Reg.VMC_STS n) 0 3 stStopping).updVm n (fun x => { x with stopAt := s.now })

/-- A write of ENABLE to a channel by the table of R234. -/
def State.vmEnable (s : State) (n : Fin 4) (on : Bool) : State :=
  let st := s.vmst n
  if on then
    if st = stOff then s.vmStart n else if st = stStopping then s.setBit (Reg.VMC_STS n) 4 true else s
  else if st = stStopping then s.setBit (Reg.VMC_STS n) 4 false
  else if st = stStarting ∨ st = stRunning ∨ st = stHold then s.vmStop n else s

/-- The module itself sets or clears a channel's ENABLE. -/
def State.vmSetEnable (s : State) (n : Fin 4) (on : Bool) : State :=
  (s.setBit (Reg.VMC_CTL n) 0 on).vmEnable n on

/-- A close or a contactor block ends in FAULT (R259): coil drive removed, the precharge channel's enable cleared. -/
def State.ctcFault (s : State) (x : Fin 2) (cause : Nat) (keepMain : Bool) : State :=
  let s := (s.setCtc x stFault).setFld (Reg.CTC_STS x) 16 8 cause
  let s := s.setBit (Reg.CTC_STS x) 4 false
  let s := if keepMain then s else s.mainCoil x false
  let s := (s.preCoil x false).vmSetEnable ⟨x.val, by omega⟩ false
  s.updCtc x (fun c => { c with waiting := false, runFrame := none, leaving := false, restAt := none })

/-- A channel enters FAULT (R213, R217, R218, R231): VMC_FAULT, the CLE's report for SHORT and TIMEOUT (R472), and the end of
a close that its string runs (R259). -/
def State.vmFault (s : State) (n : Fin 4) (cause : Nat) : State :=
  if s.vmst n = stFault then s else
  let s := (s.vmOff n).setReg (Reg.VMC_STS n)
    (withField (withField (withField (s.reg (Reg.VMC_STS n)) 0 3 stFault) 4 1 0) 8 8 cause)
  let v := s.reg (Reg.VMC_VOUT n)
  let s := s.post 0x108 sevFault 0x0051 n.val cause v 0 0
  let s := if cause = 1 ∨ cause = 2 then s.reportCle 2 0x0F n.val cause v else s
  if h : n.val < 2 then
    if s.ctcState n.val = stStarting then s.ctcFault ⟨n.val, h⟩ 2 false else s
  else s

/-- A channel not in FAULT goes to OFF without its ramp (R235). -/
def State.vmDrop (s : State) (n : Fin 4) : State :=
  let s := s.setBit (Reg.VMC_STS n) 4 false
  if s.vmst n = stFault then s else (s.setFld (Reg.VMC_STS n) 0 3 stOff).vmOff n

/-- Consecutive samples of an instance that met their deadline, at most 16. -/
def State.metRun (s : State) (i : Nat) : Nat := (sparseFind s.cle.metRun i).getD 0

/-- Has a channel's fault cause gone (R219)? -/
def State.vmGone (s : State) (n : Fin 4) : Bool :=
  match s.fld (Reg.VMC_STS n) 8 8 with
  | 1 => true
  | 2 => true
  | 3 => s.metRun n = 16
  | _ => false

/-- Return a channel from FAULT to OFF; RETRY returns to 0 (R218). -/
def State.vmClear (s : State) (n : Fin 4) : State :=
  if s.vmst n = stFault then ((s.setFld (Reg.VMC_STS n) 0 3 stOff).setFld (Reg.VMC_STS n) 8 8 0).setRetry n 0 else s

/-- May a write of VMC_CTL be taken (R216, R219, R234)? -/
def vmcCtlOk (n : Fin 4) (s : State) (v : Nat) : Bool :=
  !(bitOf v 1 && 2 ≤ n.val) &&
  (if s.vmst n = stFault then if bitOf v 2 then s.vmGone n else v % 2 = 0 else true)

/-- What a write of VMC_CTL does: CLEAR first, then ENABLE (R234). -/
def vmcCtlEff (n : Fin 4) (s : State) (v : Nat) : State :=
  let s := if bitOf v 2 then s.vmClear n else s
  s.vmEnable n (v % 2 = 1)

/-- A write of VMC_CTL that sets or clears ENABLE (R234). -/
def execVmcEnable (t : Nat) (w : Writer) (n : Fin 4) (v : Word) (s : State) : Host.Outcome State Fault Refusal :=
  run t s fun s => s.ownWrite w (Reg.VMC_CTL n) v.toNat (vmcCtlOk n) (vmcCtlEff n)

/-- A write of VMC_CTL that changes TARGET_MODE (R216). -/
def execVmcTargetMode (t : Nat) (w : Writer) (n : Fin 4) (v : Word) (s : State) : Host.Outcome State Fault Refusal :=
  run t s fun s => s.ownWrite w (Reg.VMC_CTL n) v.toNat (vmcCtlOk n) (vmcCtlEff n)

/-- A write of VMC_CTL that sets CLEAR (R219). -/
def execVmcClear (t : Nat) (w : Writer) (n : Fin 4) (v : Word) (s : State) : Host.Outcome State Fault Refusal :=
  run t s fun s => s.ownWrite w (Reg.VMC_CTL n) v.toNat (vmcCtlOk n) (vmcCtlEff n)

/-- A STARTING channel has stayed within 2 % of its target for 1 ms (R216). -/
def execVmcInRegulation (t : Nat) (n : Fin 4) (heldNs : Nat) (s : State) : Host.Outcome State Fault Refusal :=
  run t s fun s => if s.vmst n = stStarting ∧ 1000000 ≤ heldNs ∧ s.vmWithin n then s.vmRun n else s

/-- A start not RUNNING within VMC_TIMEOUT (R217): FAULT TIMEOUT, no retry. -/
def execVmcTimeout (t : Nat) (n : Fin 4) (s : State) : Host.Outcome State Fault Refusal :=
  run t s fun s =>
    if s.vmst n = stStarting ∧ s.vm[n].startAt + s.reg (Reg.VMC_TIMEOUT n) * 1000000 ≤ s.now then s.vmFault n 2 else s

/-- Is a short's condition met (R218): at the current limit for SHORT_WIN with the output low? -/
def State.vmShort (s : State) (n : Fin 4) (heldNs : Nat) : Bool :=
  let pct := if s.vmst n = stStarting then s.fld (Reg.VMC_SHORT n) 16 8 else 50
  (s.vmst n = stStarting || s.vmst n = stRunning) && decide (s.fld (Reg.VMC_SHORT n) 0 16 * 1000 ≤ heldNs) &&
  (Fv.ofNat (s.reg (Reg.VMC_ILIM n))).le ((f32 (s.reg (Reg.VMC_IOUT n))).mul (Fv.ofNat 100)) &&
  ((f32 (s.reg (Reg.VMC_VOUT n))).mul (Fv.ofNat 100)).lt ((s.vmTarget n).mul (Fv.ofNat pct))

/-- A short (R218): hiccup, or FAULT SHORT once the retries are spent. -/
def execVmcShort (t : Nat) (n : Fin 4) (heldNs : Nat) (s : State) : Host.Outcome State Fault Refusal :=
  run t s fun s =>
    if !s.vmShort n heldNs then s
    else if s.fld (Reg.VMC_SHORT n) 24 4 ≤ s.fld (Reg.VMC_STS n) 16 4 then s.vmFault n 1
    else
      let s := (s.vmOff n).setFld (Reg.VMC_STS n) 0 3 stHold
      (s.updVm n (fun x => { x with holdAt := s.now })).inc (Reg.VMC_RETRY_CNT n)

/-- After HICCUP_OFF the channel starts again with RETRY incremented (R218). -/
def execVmcHiccupEnd (t : Nat) (n : Fin 4) (s : State) : Host.Outcome State Fault Refusal :=
  run t s fun s =>
    if s.vmst n = stHold ∧ s.vm[n].holdAt + s.reg (Reg.VMC_HICCUP_OFF n) * 1000000 ≤ s.now then
      (s.setRetry n (s.fld (Reg.VMC_STS n) 16 4 + 1)).vmStart n
    else s

/-- RETRY returns to 0 after 1 s of RUNNING (R218). -/
def execVmcRetryReset (t : Nat) (n : Fin 4) (s : State) : Host.Outcome State Fault Refusal :=
  run t s fun s => if s.vmst n = stRunning ∧ s.vm[n].runAt + 1000000000 ≤ s.now then s.setRetry n 0 else s

/-- The 1 ms duty ramp ends (R234): OFF; a pending rearm is a full start. -/
def execVmcStopDone (t : Nat) (n : Fin 4) (s : State) : Host.Outcome State Fault Refusal :=
  run t s fun s =>
    if s.vmst n = stStopping ∧ s.vm[n].stopAt + 1000000 ≤ s.now then
      let rearm := s.bit (Reg.VMC_STS n) 4
      let s := ((s.vmOff n).setFld (Reg.VMC_STS n) 0 3 stOff).setBit (Reg.VMC_STS n) 4 false
      if rearm then s.vmStart n else s
    else s

/-- Channel n turns on n * 6,250 ticks after a control-frame boundary, with the duty in force (R216). -/
def execVmChannelCycle (t : Nat) (n : Fin 4) (s : State) : Host.Outcome State Fault Refusal :=
  run t s fun s =>
    if (s.vmst n = stStarting ∨ s.vmst n = stRunning ∨ s.vmst n = stStopping) ∧ s.now % 10000 = n.val * 2500 then
      let lim := (Fv.ofNat (s.reg (Reg.VMC_ILIM n))).le ((f32 (s.reg (Reg.VMC_IOUT n))).mul (Fv.ofNat 100))
      (s.updVm n (fun x => { x with cycleAt := s.now })).setBit (Reg.VMC_STS n) 7 lim
    else s

/-! ## The control-law engine (R208 to R215) -/

/-- Words of an instance's record (R209). -/
def State.cleRec (s : State) (i k : Nat) : Nat := s.reg (Reg.CLE_REC0 i + 4 * k)

/-- Fields of an instance's record. -/
def State.cleOn (s : State) (i : Nat) : Bool := bitOf (s.cleRec i 0) 0
def State.cleBankOf (s : State) (i : Nat) : Bool := bitOf (s.cleRec i 0) 1
def State.cleFrame (s : State) (i : Nat) : Bool := bitOf (s.cleRec i 0) 2
def State.cleDiv (s : State) (i : Nat) : Nat := fieldOf (s.cleRec i 0) 3 8
def State.clePhase (s : State) (i : Nat) : Nat := fieldOf (s.cleRec i 0) 11 8
def State.cleN (s : State) (i : Nat) : Nat := fieldOf (s.cleRec i 0) 19 4
def State.cleM (s : State) (i : Nat) : Nat := fieldOf (s.cleRec i 0) 23 2 + 1

/-- An FP32 code of a decimal fraction. -/
def dec32 (num den : Nat) : Nat := rn32 ((Fv.ofNat num).div (Fv.ofNat den))

/-- K_P and K_I of the voltage-mode compensators of the shipped law table (R212). -/
def lawKp (i : Nat) : Nat := if i < 2 then dec32 8 10000 else if i = 2 then dec32 2 100 else dec32 16 1000
def lawKi (i : Nat) : Nat := if i < 2 then dec32 1 10000 else if i = 2 then dec32 2 1000 else dec32 16 10000

/-- A word of the shipped law table (R210, R212): the same for both banks; 0 for instances 7 to 63. -/
def lawWord (i w : Nat) : Nat :=
  if i < 4 then
    match w with
    | 0 => dec32 1 1
    | 64 => neg32 (lawKi i)
    | 65 => lawKi i
    | 96 => dec32 1 1
    | 104 => neg32 (lawKp i)
    | 105 => lawKp i
    | 109 => dec32 95 100
    | _ => 0
  else if i = 4 then
    match w with
    | 104 => neg32 (dec32 200 1)
    | 108 => neg32 (dec32 420 1)
    | 109 => dec32 420 1
    | 110 => dec32 50 1
    | _ => 0
  else if i < 7 then
    match w with
    | 0 => dec32 1 1
    | 64 => dec32 5 100
    | 65 => neg32 (dec32 5 100)
    | 96 => dec32 1 1
    | 104 => dec32 125 100
    | 109 => dec32 4095 100
    | _ => 0
  else 0

/-- Key of a coefficient word. -/
def cleKey (i : Nat) (bank : Bool) (w : Nat) : Nat := (i * 2 + b2n bank) * 128 + w

/-- What a coefficient word holds that no one has written. -/
def cleDefault (k : Nat) : DWord := BitVec.ofNat 64 (lawWord (k / 256) (k % 128))

/-- A coefficient word. -/
def State.coef (s : State) (i : Nat) (bank : Bool) (w : Nat) : Nat := (sparseGet cleDefault s.cle.bank (cleKey i bank w)).toNat

/-- Write a coefficient word. -/
def State.setCoef (s : State) (i : Nat) (bank : Bool) (w v : Nat) : State :=
  { s with cle := { s.cle with bank := sparseSet cleDefault s.cle.bank (cleKey i bank w) (BitVec.ofNat 64 v) } }

/-- The direction's sign on a code (R211): negated while the string charges. -/
def State.dirSign (s : State) (x v : Nat) : Nat := if s.strDir x then neg32 v else v

/-- The excitation current added to a string's target in a burst (R270), as exact as an FP32 code gives it: 2 A at 317 Hz, 0
outside a burst and while it is suspended. -/
def State.excitation (s : State) (x : Nat) : Fv :=
  let b := if x = 0 then s.ctc[0].excAt else s.ctc[1].excAt
  let i := f32 (if x = 0 then s.pd.sense.iA else s.pd.sense.iB)
  match b with
  | none => Fv.zero
  | some a =>
    if s.row = 1 ∨ s.row = 3 ∨ s.ctcState x = stHold ∨ (Fv.ofNat 250).lt i.abs then Fv.zero
    else f32 (Config.excSine a s.now)

/-- The per-brick current target s_x * 1,000 / (V_x * n_x) in A, with a burst's excitation divided among the active bricks
(R270), rounded once; with no active brick or no string voltage the spec states no value, and it is free (R211). -/
def State.brickTarget (s : State) (x : Nat) : Nat :=
  let v := f32 (if x = 0 then s.pd.sense.vA else s.pd.sense.vB)
  let d := v.mul (Fv.ofNat (s.activeOf x).length)
  if d.isZero ∨ !d.isFin then Config.freeValue s.free (8 + x) % 2 ^ 32
  else rn32 ((((f32 (s.sReg x)).mul (Fv.ofNat 1000)).add ((s.excitation x).mul v)).div d)

/-- A source of R211, an FP32 code. -/
def State.cleSource (s : State) (c : Nat) : Nat :=
  let q := s.pd.sense
  if c = 0x01 then (q.fine.getLast?).getD q.vbus
  else if c = 0x02 then q.ibus
  else if c = 0x03 then q.vA
  else if c = 0x04 then q.vB
  else if c = 0x05 then s.dirSign 0 q.phA
  else if c = 0x06 then s.dirSign 1 q.phB
  else if c = 0x07 then q.pbus
  else if c / 4 = 2 then s.reg (Reg.VMC_VOUT (c % 4))
  else if c / 4 = 3 then s.reg (Reg.VMC_IOUT (c % 4))
  else if c = 0x10 then s.dirSign 0 (s.brickTarget 0)
  else if c = 0x11 then s.dirSign 1 (s.brickTarget 1)
  else if c / 4 = 5 then s.ssRef ⟨c % 4, Nat.mod_lt _ (by decide)⟩
  else if 0x20 ≤ c ∧ c ≤ 0x5F then s.reg (Reg.CLE_OUT (c - 0x20))
  else 0

/-- Is a source or a destination code defined (R211)? -/
def srcOk (c : Nat) : Bool := c ≤ 0x11 || (0x14 ≤ c && c ≤ 0x17) || (0x20 ≤ c && c ≤ 0x5F)
def dstOk (c : Nat) : Bool := c ≤ 4 || c = 8 || c = 9 || c = 10

/-- One fused multiply-add: rounded once (R208). -/
def fma32 (acc a b : Nat) : Nat := rn32 ((f32 acc).add ((f32 a).mul (f32 b)))

/-- A sum of products from 0, in order (R208). -/
def cleDot (l : List (Nat × Nat)) : Nat := l.foldl (fun acc p => fma32 acc p.1 p.2) 0

/-- Inputs of an instance: u_j = RN(source_j - OFF_j). -/
def State.cleInputs (s : State) (i : Nat) (bank : Bool) : List Nat :=
  (List.range (s.cleM i)).map (fun j => sub32 (s.cleSource (fieldOf (s.cleRec i 1) (8 * j) 8)) (s.coef i bank (110 + j)))

/-- States of an instance. -/
def State.cleX (s : State) (i : Nat) : List Nat :=
  let l := (sparseFind s.cle.x i).getD []
  (List.range (s.cleN i)).map (fun r => l.getD r 0)

/-- Set an instance's states. -/
def State.setCleX (s : State) (i : Nat) (l : List Nat) : State :=
  { s with cle := { s.cle with x := sparseIns (sparseErase s.cle.x i) i l } }

/-- A bank swap takes effect (R214): the state is kept unless RESET_ON_SWAP. -/
def State.cleSwapNow (s : State) (i : Nat) (bank : Bool) : State :=
  let s := s.setBit (Reg.CLE_REC0 i) 1 bank
  let s := { s.setBit Reg.CLE_SWAP_PEND i false with cle := { s.cle with swap := sparseErase s.cle.swap i } }
  if bitOf (s.cleRec i 0) 26 then s.setCleX i [] else s

/-- The swap that waits for an instance, if any, takes effect. -/
def State.cleSwapDue (s : State) (i : Nat) : State :=
  match sparseFind s.cle.swap i with
  | some b => s.cleSwapNow i b
  | none => s

/-- Write an output to its destination (R211); the threshold's picosecond of writing is `ps`. -/
def State.cleDest (s : State) (i y ps : Nat) : State :=
  let d := fieldOf (s.cleRec i 2) 0 8
  let v := f32 y
  if 1 ≤ d ∧ d ≤ 4 then s.setReg (Reg.VMC_DUTY (d - 1)) (clampCmd Fv.zero (f32 (dec32 95 100)) y (Config.freeValue s.free 10))
  else if d = 8 then { s with pd := { s.pd with busLaw := y } }.storeCmd
  else if d = 9 ∨ d = 10 then
    let x := d - 9
    let c := if v = .nan then Config.freeValue s.free 11 % 4096 else
      if v.isFin then (clampInt 0 4095 (v.mul (Fv.ofNat 100)).nearest).toNat else if v.isNeg then 0 else 4095
    { s with pd := { s.pd with
        thrPrev := upd s.pd.thrPrev x (sel s.pd.thr x), thr := upd s.pd.thr x c, thrAt := upd s.pd.thrAt x ps } }
  else s

/-- A sample of an instance (R208): inputs, output in C then D order, clamp, destination, then the state update in A then B
order unless HOLD_ON_CLAMP forbids it. -/
def State.cleRun (s : State) (i ps : Nat) : State :=
  let bank := s.cleBankOf i
  let u := s.cleInputs i bank
  let x := s.cleX i
  let raw := cleDot (x.zipIdx.map (fun e => (s.coef i bank (96 + e.2), e.1)) ++
    u.zipIdx.map (fun e => (s.coef i bank (104 + e.2), e.1)))
  let y := clampCmd (f32 (s.coef i bank 108)) (f32 (s.coef i bank 109)) raw (Config.freeValue s.free 12)
  let nx := (List.range (s.cleN i)).map (fun r =>
    cleDot (x.zipIdx.map (fun e => (s.coef i bank (8 * r + e.2), e.1)) ++
      u.zipIdx.map (fun e => (s.coef i bank (64 + 4 * r + e.2), e.1))))
  let s := { s with free := s.free + 1 }
  let s := (s.setReg (Reg.CLE_OUT i) y).cleDest i y ps
  if bitOf (s.cleRec i 0) 25 ∧ y ≠ raw then s else s.setCleX i nx

/-- Engine cycles of a sample (R208). -/
def cleCycles (n m : Nat) : Nat := 8 + ((n + m) * (n + 1) + 3) / 4

/-- Count the cycles of a sample that runs in CLE_UTIL: the busiest pulse period of the second, in % of 1,600 cycles. -/
def State.cleUtil (s : State) (cyc : Nat) : State :=
  let p := s.now / 4000
  let sec := s.now / 1000000000
  let used := (if s.cle.utilPulse = p then s.cle.utilCycles else 0) + cyc
  let m := if s.cle.utilSecond = sec then max s.cle.utilMax used else used
  { s.setReg Reg.CLE_UTIL (m * 100 / 1600) with cle := { s.cle with
      utilPulse := p, utilCycles := used, utilSecond := sec, utilMax := m } }

/-- A missed deadline (R213, R362): the sample is abandoned and counted, the previous output stays. -/
def State.cleMiss (s : State) (i : Nat) : State :=
  let k := (sparseFind s.cle.missRun i).getD 0 + 1
  let s := (s.inc (Reg.CLE_MISS i)).inc Reg.CLE_MISS_CNT
  let s := (s.setBit Reg.CLE_STS 0 true).setFld Reg.CLE_STS 8 6 i
  let s := { s with cle := { s.cle with
      missRun := sparseIns (sparseErase s.cle.missRun i) i k, metRun := sparseErase s.cle.metRun i } }
  s.reportCle 1 i 0xFF (min k 65535) 0

/-- Is this instant a sample instant of an instance (R209)? -/
def State.cleDue (s : State) (i : Nat) : Bool :=
  let p := if s.cleFrame i then 10000 else 4000
  s.pulseUp && s.cleOn i && s.now % p = 0 && s.cleDiv i ≠ 0 && s.now / p % s.cleDiv i = s.clePhase i

/-- A control-law instance samples, `wait` engine cycles after its sample instant (R208, R213). -/
def execCleInstanceSample (t : Nat) (i : Fin 64) (wait : Nat) (s : State) : Host.Outcome State Fault Refusal :=
  run t s fun s =>
    if !s.cleDue i then s else
    let s := s.cleSwapDue i
    let cyc := cleCycles (s.cleN i) (s.cleM i)
    if wait + cyc ≤ fieldOf (s.cleRec i 2) 16 16 then
      let k := min 16 (s.metRun i + 1)
      let s := { s.cleUtil cyc with cle := { (s.cleUtil cyc).cle with
          missRun := sparseErase s.cle.missRun i.val, metRun := sparseIns (sparseErase s.cle.metRun i.val) i.val k } }
      s.cleRun i (s.now * 1000 + (wait + cyc) * 2500)
    else s.cleMiss i

/-- 16 consecutive misses of instances 0 to 6 stop the function they serve (R213). -/
def execCleDeadlineFault (t : Nat) (i : Fin 64) (s : State) : Host.Outcome State Fault Refusal :=
  run t s fun s =>
    if (sparseFind s.cle.missRun i.val).getD 0 < 16 then s
    else if h : i.val < 4 then s.vmFault ⟨i.val, h⟩ 3
    else if i.val = 4 then s.faultBricks allBricks 7
    else if i.val = 5 ∨ i.val = 6 then s.faultBricks (bricksOf (i.val - 5)) 7
    else s

/-- Request a bank swap (R214): at once for an instance that is not enabled, else at its next sample; the latest request
stands. -/
def State.cleSwapReq (s : State) (i : Nat) (bank : Bool) : State :=
  if s.cleOn i then
    { s.setBit Reg.CLE_SWAP_PEND i true with cle := { s.cle with swap := sparseIns (sparseErase s.cle.swap i) i bank } }
  else s.cleSwapNow i bank

/-- What a write of CLE_SWAP does. -/
def cleSwapEff (s : State) (v : Nat) : State := s.cleSwapReq (v % 64) (bitOf v 8)

/-- A write of CLE_SWAP (R214). -/
def execCleSwapWrite (t : Nat) (w : Writer) (v : Word) (s : State) : Host.Outcome State Fault Refusal :=
  run t s fun s => s.ownWrite w Reg.CLE_SWAP v.toNat anyValue cleSwapEff

/-- The swap takes effect at the instance's sample instant (R214). -/
def execCleBankSwap (t : Nat) (i : Fin 64) (s : State) : Host.Outcome State Fault Refusal :=
  run t s fun s => if s.cleDue i then s.cleSwapDue i else s

/-- May a coefficient of an instance's bank be written (R210, R212): not the bank in use, and instances 0 to 6 only where
RWL is open? -/
def State.coefOpen (s : State) (i : Nat) (bank : Bool) : Bool := s.cleBankOf i != bank && (7 ≤ i || lcRwl s.lc)

/-- May CLE_WDATA be written now? -/
def cleWdataOk (s : State) (_ : Nat) : Bool := s.coefOpen (s.fld Reg.CLE_WADDR 0 6) (s.bit Reg.CLE_WADDR 6)

/-- What a write of CLE_WDATA does: the coefficient at CLE_WADDR, whose word field advances. -/
def cleWdataEff (s : State) (v : Nat) : State :=
  let k := s.fld Reg.CLE_WADDR 7 7
  let s := s.setCoef (s.fld Reg.CLE_WADDR 0 6) (s.bit Reg.CLE_WADDR 6) k v
  s.setFld Reg.CLE_WADDR 7 7 ((k + 1) % 128)

/-- A coefficient write through CLE_WDATA (R210, R215). -/
def execCleWdataWrite (t : Nat) (w : Writer) (v : Word) (s : State) : Host.Outcome State Fault Refusal :=
  run t s fun s => s.ownWrite w Reg.CLE_WDATA v.toNat cleWdataOk cleWdataEff

/-- The rule of a record write (R209, R211, R212): ranges, codes, and the fixed bindings of instances 0 to 6. -/
def cleRecOk (i k : Nat) (s : State) (v : Nat) : Bool :=
  let frame := if k = 0 then bitOf v 2 else s.cleFrame i
  let div := if k = 0 then fieldOf v 3 8 else s.cleDiv i
  let fixed := cleResetWord i k
  (7 ≤ i || lcRwl s.lc) &&
  match k with
  | 0 => 1 ≤ div && div ≤ (if frame then 100 else 250) && fieldOf v 19 4 ≤ 8 &&
      (7 ≤ i || fieldOf v 2 9 = fieldOf fixed 2 9)
  | 1 => [0, 1, 2, 3].all (fun j => srcOk (fieldOf v (8 * j) 8)) && (7 ≤ i || v = fixed)
  | 2 => dstOk (v % 256) && (if 7 ≤ i then v % 256 = 0 else v % 256 = fixed % 256) &&
      fieldOf v 16 16 ≤ (if frame then 4000 else 1600) * div
  | _ => true

/-- A write of an instance record's word (R209). -/
def execCleRecordWrite (t : Nat) (w : Writer) (i : Fin 64) (k : Fin 4) (v : Word) (s : State) :
    Host.Outcome State Fault Refusal :=
  run t s fun s => s.ownWrite w (Reg.CLE_REC0 i + 4 * k) v.toNat (cleRecOk i k) (fun s _ => s)

end Sys2Proof.Machine
end

