-- ==== Sys2Proof/Machine/Governor.lean ====
section
/-!
DEFINITION. The reference record and the safety governor (R220 to R224, R36, R50), holdover and the plan buffer (R20, R225 to
R229), rectifier setpoints and rectifiers (R9 to R12, R37), and the configuration faults of R5 and R15.
-/
namespace Sys2Proof.Machine

/-! ## The reference record (R220) -/

/-- FRAME of a record. -/
def refFrame (g : List Byte) : Nat := leAt g 0 8
/-- S_x of a record, an FP32 code. -/
def refS (g : List Byte) (x : Nat) : Nat := leAt g (8 + 4 * x) 4
/-- R_x of a record. -/
def refR (g : List Byte) (x : Nat) : Nat := leAt g (16 + 4 * x) 4
/-- LOOK_x of a record. -/
def refLook (g : List Byte) (x : Nat) : Nat := leAt g (24 + 4 * x) 4
/-- STEP of a record. -/
def refStep (g : List Byte) : Bool := bitOf (byteAt g 0x20) 0
/-- Is the record's CRC right (R220)? -/
def refCrcOk (g : List Byte) : Bool := (crc32c (g.take 60)).toNat = leAt g 60 4

/-- A reference record reaches the pulse die (R50): one that arrives after its boundary is discarded and counted, and one that meets a
Seam held for recovery is lost (R420). -/
def execReferenceHandoffArrive (t : Nat) (g : List Byte) (poisoned : Bool) (s : State) : Host.Outcome State Fault Refusal :=
  run t s fun s =>
    let f := refFrame g
    if s.pw.seamHeld || !s.pulseUp then s
    else if (f + 1) * 10000 < s.now then (s.inc Reg.SEQ_HANDOFF_LATE).nextFlag flHandoff
    else { s with gov := { s.gov with refs := sparseIns (sparseErase s.gov.refs f) f (g, poisoned) } }

/-! ## The envelope row (R222) -/

/-- Is a warning active whose action is the LIMIT row (R231, R257)? -/
def State.limitWarn (s : State) : Bool :=
  s.bit Reg.PRT_STS 0 || s.bit Reg.PRT_STS 2 || s.bit Reg.PRT_STS 3 || s.bit Reg.BDS_TRIP_STS 6 || s.bit Reg.BDS_TRIP_STS 14 ||
  s.bit Reg.HVS_STS 1 || s.bit Reg.HVS_STS 2

/-- The row that applies now (R222). -/
def State.rowNow (s : State) : Nat :=
  if s.limitWarn then 3 else if s.strs.length = 1 then 2 else if s.holdoff then 1 else 0

/-- ENVELOPE_ROW_SELECT. -/
def State.selectRow (s : State) : State := s.setFld Reg.GOV_STS 1 2 s.rowNow

/-! ## Judging a record (R221) -/

/-- A value is in 0 to infinity and finite. -/
def finNonNeg (x : Fv) : Bool := x.isFin && !x.lt Fv.zero

/-- The number of the first check that a record fails, if any; `prev` is the midpoint pair of the previous frame's record if
that one passed checks 1 to 5. -/
def State.refFails (s : State) (r : Option (List Byte × Bool)) (prev : Option (Nat × Nat)) : Option Nat :=
  match r with
  | none => some 1
  | some (g, poisoned) =>
    let row := s.row
    let all (p : Nat → Bool) : Bool := s.strs.all p
    if poisoned then some 2
    else if !refCrcOk g || !all (fun x => (f32 (refS g x)).isFin && finNonNeg (f32 (refR g x))) then some 3
    else if !all (fun x => (f32 (refR g x)).le (f32 (s.rowVal row 3))) then some 4
    else if !all (fun x =>
        let lo := (f32 (refS g x)).sub (f32 (refR g x))
        let hi := (f32 (refS g x)).add (f32 (refR g x))
        let b := brickKw (s.svcCount x)
        (f32 (s.rowVal row 0)).le lo && hi.le (f32 (s.rowVal row 1)) && b.neg.le lo && hi.le b) then some 5
    else
      match prev with
      | none => none
      | some p =>
        if !all (fun x => ((f32 (refS g x)).sub (f32 (sel p x))).abs.le (f32 (s.rowVal row 2))) then some 6 else none

/-- Does a newly accepted record show a step (R205, conditions 1 to 3)? -/
def State.refStepSeen (s : State) (g : List Byte) : Bool :=
  let lim := f32 (s.reg Reg.SHD_STEP_KW)
  let c1 := match s.gov.accepted with
    | none => false
    | some p => s.strs.any (fun x => lim.le ((f32 (refS g x)).sub (f32 (sel p x))).abs)
  let c2 := s.strs.any (fun x =>
    !(f32 (refLook g x)).isFin || lim.le ((f32 (refLook g x)).sub (f32 (refS g x))).abs)
  c1 || c2 || refStep g

/-- Is the pulse die in holdover (R20)? -/
def State.inHoldover (s : State) : Bool := s.bit Reg.PLS_STS 3

/-- The governor judges the record of the frame that ends now (R221): accepted or rejected whole, counted, and its step
detection. -/
def State.govJudge (s : State) : State :=
  let f := s.now / 10000 - 1
  let r := sparseFind s.gov.refs f
  let prev := match s.gov.passed with
    | some (k, p) => if k + 1 = f then some p else none
    | none => none
  let fail := s.refFails r prev
  let keep := s.gov.refs.filter (fun e => decide (f < e.1))
  let g := (r.map (fun e => e.1)).getD []
  let pair := (refS g 0, refS g 1)
  let passed := match fail with
    | none => some (f, pair)
    | some k => if k = 6 then some (f, pair) else none
  let s := { s with gov := { s.gov with refs := keep, passed := passed } }
  match fail with
  | some k =>
    let s := ((s.setBit Reg.GOV_STS 0 false).setFld Reg.GOV_STS 8 4 k).inc (Reg.GOV_REJ_CNT (k - 1))
    { s with gov := { s.gov with accRun := 0, missRun := s.gov.missRun + 1 } }
  | none =>
    let step := s.refStepSeen g
    let s := ((s.setBit Reg.GOV_STS 0 true).inc Reg.GOV_ACCEPT_CNT).setReg Reg.GOV_LAST_FRAME f
    let s := { s with gov := { s.gov with
        accRun := s.gov.accRun + 1, missRun := 0, accepted := some pair,
        target := if s.inHoldover then s.gov.target else pair } }
    if step then s.stepDetect else s

/-! ## What t follows in holdover (R226) -/

/-- The current plan's bytes. -/
def State.planBytes (s : State) : List Byte := s.gov.plan.getD []

/-- START of a plan (R225). -/
def planStartOf (b : List Byte) : Nat := leAt b 8 8

/-- The interval of a plan at `d` ns after its START. -/
def planInterval (d : Nat) : Nat := if d < 80000000 then d / 5000000 else 16 + (d - 80000000) / 120000000

/-- A word of an interval of a plan: 0 G, 1 S_A, 2 S_B. -/
def planWord (b : List Byte) (k i : Nat) : Nat := leAt b (64 + 16 * k + 4 * i) 4

/-- Does the current plan cover the present instant (R226)? -/
def State.planCovers (s : State) : Bool :=
  s.gov.plan.isSome && decide (planStartOf s.planBytes ≤ s.now ∧ s.now < planStartOf s.planBytes + 2000000000)

/-- HOLD_PHASE: H1 while the plan covers the instant, else H2. -/
def State.holdPhase (s : State) : Nat := if s.planCovers then 1 else 2

/-- A word of the interval that contains the present instant. -/
def State.planNow (s : State) (i : Nat) : Nat := planWord s.planBytes (planInterval (s.now - planStartOf s.planBytes)) i

/-- The source of t_x in holdover (R226), an FP32 code: S_x,k of the plan, or k_x * (P_load - g). -/
def State.holdTarget (s : State) (x : Nat) : Nat :=
  if s.planCovers then s.planNow (1 + x)
  else
    let tot := s.kCount 0 + s.kCount 1
    if tot = 0 then 0 else
    rn32 ((((f32 (s.reg Reg.PLS_PLOAD)).sub (f32 (s.reg Reg.PLS_RECT_SP))).mul (Fv.ofNat (s.kCount x))).div (Fv.ofNat tot))

/-- HOLDOVER_PHASE_STEP: the target follows the source once per control frame. -/
def State.holdoverFollow (s : State) : State :=
  if s.inHoldover then
    let s := s.setFld Reg.PLS_STS 4 2 s.holdPhase
    { s with gov := { s.gov with target := (s.holdTarget 0, s.holdTarget 1) } }
  else s

/-- The governor at a control-frame boundary (R221 to R223, R226): the row, the judgement, the target, and a move of t that is
due at the next pulse-period boundary. -/
def State.govBoundary (s : State) : State :=
  if !s.pulseUp then s else
  let s := s.selectRow.govJudge.holdoverFollow
  { s with gov := { s.gov with due := some s.now } }

/-- One step of t towards a target: at most SLEW (R223). -/
def moveTowards (t tgt slew : Nat) : Nat :=
  let d := (f32 tgt).sub (f32 t)
  if (f32 slew).lt d.abs then rn32 (if d.isNeg then (f32 t).sub (f32 slew) else (f32 t).add (f32 slew)) else tgt

/-- REFERENCE_APPLY (R223): at the first pulse-period boundary after a judgement t takes one step, and TRANSFER shows whether
it has arrived. -/
def State.applyReference (s : State) : State :=
  match s.gov.due with
  | none => s
  | some d =>
    if s.now ≤ d then s else
    let slew := s.rowVal s.row 2
    let ta := moveTowards (s.reg Reg.GOV_T_A) s.gov.target.1 slew
    let tb := moveTowards (s.reg Reg.GOV_T_B) s.gov.target.2 slew
    let s := (s.setReg Reg.GOV_T_A ta).setReg Reg.GOV_T_B tb
    let s := s.setBit Reg.GOV_STS 3 (ta ≠ s.gov.target.1 || tb ≠ s.gov.target.2)
    { s with gov := { s.gov with due := none } }

/-- May an envelope value be written (R224)? -/
def govRowOk (r k : Nat) (s : State) (v : Nat) : Bool :=
  match k with
  | 0 => !(f32 (s.rowVal r 1)).lt (f32 v)
  | 1 => !(f32 v).lt (f32 (s.rowVal r 0))
  | _ => !(f32 v).lt Fv.zero

/-- A write of an envelope row's word (R224). -/
def execGovRowWrite (t : Nat) (w : Writer) (r : Fin 4) (k : Fin 4) (v : Word) (s : State) : Host.Outcome State Fault Refusal :=
  run t s fun s => s.ownWrite w (Reg.GOV_ROW0_SMIN + 16 * r + 4 * k) v.toNat (govRowOk r k) (fun s _ => s)

/-! ## Yield triggers (R337) -/

/-- A trigger of a yield: the owner yields at the first plan-frame boundary at least 20 us after it; never toward a peer that
sees a contest. The condition on the peer is `ok`; an automatic trigger needs AUTO_YIELD. -/
def State.yieldTrigger (s : State) (cause : Nat) (auto ok : Bool) : State :=
  if s.clp.role = 4 && ok && !s.clp.peerContest && s.clp.yieldDue.isNone && (!auto || s.bit Reg.CLP_CTL 1) then
    { s with clp := { s.clp with yieldCause := cause, yieldDue := some (alignUp 1000000 (s.now + 20000)) } }
  else s

/-! ## Holdover (R20, R225 to R229) -/

/-- Enter holdover (R20): counted, stamped, posted; the pulse die sends the setpoints from now on (R227). -/
def State.enterHoldover (s : State) (cause : Nat) : State :=
  if s.inHoldover then s else
  let s := ((s.setBit Reg.PLS_STS 3 true).setFld Reg.PLS_STS 4 2 s.holdPhase).inc Reg.PLS_HOLD_CNT
  let s := s.stampReg Reg.PLS_HOLD_STAMP
  let s := { s with gov := { s.gov with selfSp := true, accRun := 0 } }
  s.post 0x100 sevInfo 0x0053 1 cause (s.reg Reg.PLS_HOLD_CNT) 0 0

/-- 10 consecutive control frames without an accepted reference (R20). -/
def execHoldoverEnter (t : Nat) (s : State) : Host.Outcome State Fault Refusal :=
  run t s fun s => if s.pulseUp && decide (10 ≤ s.gov.missRun) then s.enterHoldover 1 else s

/-- The base die signals its own loss (R20, R337): holdover at once, and a trigger of a yield toward a ready peer. -/
def execBaseDieLossSignal (t : Nat) (s : State) : Host.Outcome State Fault Refusal :=
  run t s fun s => if s.pulseUp then (s.enterHoldover 2).yieldTrigger 2 true (s.clp.peerRole = 2) else s

/-- Accepted references in 10 consecutive control frames (R20, R229): t moves to the accepted reference; setpoints and floors
go back at the first valid plan. -/
def execHoldoverExit (t : Nat) (s : State) : Host.Outcome State Fault Refusal :=
  run t s fun s =>
    if s.inHoldover && decide (10 ≤ s.gov.accRun) then
      let s := (s.setBit Reg.PLS_STS 3 false).setFld Reg.PLS_STS 4 2 0
      let s := { s with gov := { s.gov with target := s.gov.accepted.getD s.gov.target } }
      s.post 0x100 sevInfo 0x0053 0 0 (s.reg Reg.PLS_HOLD_CNT) 0 0
    else s

/-- The first tray of a FLOOR_ORDER that no source floors. -/
def nextFloor (order : List Byte) (mask : Nat) : Option Nat :=
  (order.map (fun b => b.toNat)).find? (fun j => decide (j < 32) && !bitOf mask j)

/-- Has a string's command stood at its limit for 1 ms (R228)? -/
def State.atLimit1ms (s : State) : Bool :=
  [0, 1].any (fun x => match sel s.gov.limSince x with
    | some b => decide (b + 1000000 ≤ s.now)
    | none => false)

/-- FLOOR_ORDER of the current plan. -/
def State.floorOrder (s : State) : List Byte := (s.planBytes.drop 0x20).take 32

/-- Assert the floor of the next tray of the plan's FLOOR_ORDER. -/
def State.floorNext (s : State) : State :=
  match nextFloor s.floorOrder s.floorMask with
  | none => s
  | some j =>
    { s with gov := { s.gov with
        holdMask := s.gov.holdMask ||| 2 ^ j, lastFloor := some (s.now / 1000000) } }.refreshFloors

/-- In holdover with a command at its limit for 1 ms, the next tray is floored, at most one per plan frame (R228). -/
def execHoldoverFloor (t : Nat) (s : State) : Host.Outcome State Fault Refusal :=
  run t s fun s =>
    if s.inHoldover && s.atLimit1ms && s.gov.lastFloor != some (s.now / 1000000) then s.floorNext else s

/-- The nine granules of a PLAN op arrive in the next-plan buffer (R225). -/
def execPlanBufferArrive (t : Nat) (g : List Byte) (s : State) : Host.Outcome State Fault Refusal :=
  run t s fun s => if s.pulseUp && !s.pw.seamHeld then { s with gov := { s.gov with next := some g } } else s

/-- Is a plan's CRC right: over all nine granules with its own field taken as 0 (R225)? -/
def planCrcOk (b : List Byte) : Bool :=
  (crc32c (b.take 0x18 ++ [0#8, 0#8, 0#8, 0#8] ++ b.drop 0x1C)).toNat = leAt b 0x18 4

/-- PLAN_TAKE_EFFECT (R225) and the assertions of its floor mask (R186): at the boundary equal to START a whole plan with a
right CRC becomes current; a next plan whose boundary has come and that cannot is rejected. -/
def State.planTake (s : State) : State :=
  match s.gov.next with
  | none => s
  | some b =>
    if s.now < planStartOf b then s
    else if b.length = 576 && planStartOf b = s.now && planCrcOk b then
      let s := (s.setReg Reg.PLS_PLAN_FRAME (leAt b 0 8)).setBit Reg.PLS_STS 6 true
      { s with gov := { s.gov with
          plan := some b, next := none, planMask := s.gov.planMask ||| leAt b 0x10 4, ramp := leAt b 0x14 4,
          rectN := byteAt b 0x1C, selfSp := s.gov.selfSp && s.inHoldover } }.refreshFloors
    else { s.inc Reg.PLS_PLAN_REJ with gov := { s.gov with next := none } }

/-- The releases of the floor mask of a plan that took effect now (R186, R229): none while holdover lasts (R228). -/
def State.planRelease (s : State) : State :=
  if !s.inHoldover && s.gov.plan.isSome && planStartOf s.planBytes = s.now then
    { s with gov := { s.gov with planMask := leAt s.planBytes 0x10 4, holdMask := 0 } }.refreshFloors
  else s

/-! ## Rectifiers (R9 to R12, R183, R227) -/

/-- Rectifiers that follow setpoints: they deliver power and hold them long enough (R10). -/
def State.rectOk (s : State) : BitVec 12 := s.gov.rectUp &&& ~~~s.gov.rectBad

/-- How many rectifiers are in service. -/
def State.rectCount (s : State) : Nat := popcount 12 s.rectOk.toNat

/-- The setpoint total of holdover (R227), an FP32 code in kW: towards G_k, or P_load, by at most RAMP * 1 ms, between 0 and
33 kW per rectifier of the last valid plan. What is no number is a free value. -/
def State.holdSetpoint (s : State) : Nat :=
  let tgt := if s.planCovers then s.planNow 0 else s.reg Reg.PLS_PLOAD
  let g := f32 s.gov.g
  let step := (f32 s.gov.ramp).div (Fv.ofNat 1000)
  let v := clampCmd (g.sub step) (g.add step) tgt (Config.freeValue s.free 20)
  clampCmd Fv.zero (Fv.ofNat (33 * s.gov.rectN)) v (Config.freeValue s.free 21)

/-- HOLDOVER_SETPOINT: while the pulse die sends the setpoints, g takes its step; otherwise g is the compute half's. -/
def State.planSetpoint (s : State) : State :=
  if s.gov.selfSp then { s with gov := { s.gov with g := s.holdSetpoint }, free := s.free + 1 }
  else { s with gov := { s.gov with g := rn32 ((Fv.ofNat s.arb.setpoint).div (Fv.ofNat 1000000)) } }

/-- SETPOINT_SEND (R9): over the line every plan frame, or over PMBus every 10 plan frames after the line failed. Only the
module that holds the OWNER line, or the owner of record of a contest, sends (R16, R335). -/
def State.setpointSend (s : State) : State :=
  if s.drivesFloors && (s.gov.lineOk || s.now / 1000000 % 10 = 0) then s.setReg Reg.PLS_RECT_SP s.gov.g else s

/-- The line is back in use. -/
def State.lineBack (s : State) : State :=
  { s with gov := { s.gov with lineOk := true, lineGood := none } }.post 0x100 sevWarn 0x0040 0 2 0 0 0

/-- A line that has carried 100 frames without error is used again from a plan-frame boundary (R9). -/
def State.lineReturn (s : State) : State := if !s.gov.lineOk && s.gov.lineGood.isSome then s.lineBack else s

/-- The RS-485 setpoint line fails (R9). -/
def execSetpointLineFail (t : Nat) (s : State) : Host.Outcome State Fault Refusal :=
  run t s fun s =>
    if s.gov.lineOk then
      { s with gov := { s.gov with lineOk := false, lineFail := s.now, lineGood := none } }.post 0x100 sevWarn 0x0040 0 1 0 0 0
    else { s with gov := { s.gov with lineGood := none } }

/-- The line has carried frames without error (R9): after 100 it is used again from the first plan-frame boundary. -/
def execSetpointLineRestore (t goodFrames : Nat) (s : State) : Host.Outcome State Fault Refusal :=
  run t s fun s =>
    if s.gov.lineOk || decide (goodFrames < 100) then s
    else if s.now % 1000000 = 0 then s.lineBack
    else { s with gov := { s.gov with lineGood := some s.now } }

/-- A bit of a mask of rectifiers. -/
def setRect (m : BitVec 12) (r : Fin 12) (b : Bool) : BitVec 12 := BitVec.ofNat 12 (withField m.toNat r.val 1 (b2n b))

/-- A rectifier's hold setting is checked at admission (R10). -/
def execRectifierAdmission (t : Nat) (r : Fin 12) (holdMs : Nat) (s : State) : Host.Outcome State Fault Refusal :=
  run t s fun s =>
    let bad := holdMs < 50
    let s := { s with gov := { s.gov with rectUp := setRect s.gov.rectUp r true, rectBad := setRect s.gov.rectBad r bad } }
    if bad then s.post 0x100 sevWarn 0x0001 r.val 2 holdMs 0 0 else s

/-- Every rectifier in service reports loss of its AC input (R183). -/
def State.refreshGrid (s : State) : State :=
  { s with arb := { s.arb with gridLoss := s.arb.acLost != 0#12 && (s.rectOk &&& ~~~s.arb.acLost) == 0#12 } }

/-- A rectifier's status and telemetry are read over PMBus (R37): stamped with ARRIVAL; it is in service or not. -/
def execRectifierTelemetryRead (t : Nat) (r : Fin 12) (q : RectIn) (s : State) : Host.Outcome State Fault Refusal :=
  run t s fun s =>
    let seq := match sparseFind s.gov.rectTel r.val with
      | some x => x.seq + 1
      | none => 1
    let rec' : RectTel := ⟨seq, s.now, withField s.qual.toNat 4 1 1, q⟩
    { s with gov := { s.gov with
        rectUp := setRect s.gov.rectUp r q.inService,
        rectTel := sparseIns (sparseErase s.gov.rectTel r.val) r.val rec' } }.refreshGrid

/-- The rectifiers report that their AC input has returned (R183). -/
def execRectAcReturn (t : Nat) (back : BitVec 12) (s : State) : Host.Outcome State Fault Refusal :=
  run t s fun s => { s with arb := { s.arb with acLost := s.arb.acLost &&& ~~~back } }.refreshGrid

/-- REGULATOR_CHANGE (R11, R12): at a plan-frame boundary the rectifiers hold the bus where no string is in service; not in a
plan frame in which a coil has just been switched. -/
def State.regulatorChange (s : State) : State :=
  let want := s.strs.isEmpty
  let op (x : Fin 2) : Bool := (s.ctc[x].mainAt = s.now || s.ctc[x].preAt = s.now) && s.now ≠ 0
  if op 0 || op 1 then s else s.setBit Reg.PLS_STS 7 want

/-! ## Configuration faults of the slot (R5, R15) -/

/-- SLOT_ID changes while the Lining runs (R15): an event; the slot stays. -/
def execSlotIdChange (t : Nat) (level : Bool) (s : State) : Host.Outcome State Fault Refusal :=
  run t s fun s => if s.pw.kaOk && level != s.slotB then s.post 0x112 sevWarn 0x0001 0 3 0 0 0 else s

/-- The order code of the module. -/
def State.ownCode (s : State) : OrderCode := if s.fx.full then .F else .B

/-- A peer of the other order code is found over the slot link (R5, R338): a module that does not own stays out of
ownership. -/
def execPeerOrderMismatch (t : Nat) (peer : OrderCode) (s : State) : Host.Outcome State Fault Refusal :=
  run t s fun s =>
    if peer = s.ownCode then s else
    let s := (s.setBit Reg.SLK_STS 3 false).post 0x114 sevWarn 0x0001 0 1 0 0 0
    if s.clp.role = 4 then s else s.setBit Reg.CLP_CTL 2 true

end Sys2Proof.Machine
end

