-- ==== Sys2Proof/Machine/Protect.lean ====
section
/-!
DEFINITION. The protection rows of the bus, the strings, the contactors and the PLL (R231 to R233, R472), and the loss of
ownership (R235). The cell rows of R257 are with the Beads; the brick rows with the bricks.
-/
namespace Sys2Proof.Machine

/-! ## Trips -/

/-- Bricks that some latched trip stopped. -/
def State.tripped (s : State) (b : Nat) : Bool := s.prt.stopped.any (fun e => e.2.contains b)

/-- A trip puts bricks into FAULT and remembers under its key those that it, or another latched trip, stopped (R232). -/
def State.tripBricks (s : State) (key : Nat) (l : List (Fin 48)) (cause : Nat) : State :=
  let mine := (l.filter (fun b => s.bst b ≠ stFault || s.tripped b.val)).map (fun b => b.val)
  let was := (sparseFind s.prt.stopped key).getD []
  let s := { s with prt := { s.prt with
      stopped := sparseIns (sparseErase s.prt.stopped key) key (was ++ mine.filter (fun b => !was.contains b)) } }
  s.faultBricks l cause

/-- A trip is cleared (R232): the bricks that it stopped and that no other latched trip holds return to OFF. -/
def State.untripBricks (s : State) (key : Nat) : State :=
  let mine := (sparseFind s.prt.stopped key).getD []
  let s := { s with prt := { s.prt with stopped := sparseErase s.prt.stopped key } }
  s.forAll allBricks (fun s b => if mine.contains b.val && !s.tripped b.val then s.brickClear b else s)

/-- Both feedbacks of a string read open (R276). -/
def State.fbOpen (s : State) (x : Fin 2) : Bool := !s.bit (Reg.CTC_STS x) 6 && !s.bit (Reg.CTC_STS x) 8

/-- A string trips (R231, R257): its bricks go to FAULT, and its contactor opens once the current allows or after 2 ms; a
string that is not closed or closing keeps its STATE. -/
def State.stringTrip (s : State) (x : Fin 2) (key brickCause ctcCause : Nat) : State :=
  let s := s.tripBricks key (bricksOf x) brickCause
  if s.ctcState x = stOff ∨ s.ctcState x = stFault then s else
  let s := s.ctcFault x ctcCause true
  if s.bit (Reg.CTC_STS x) 5 then { s with prt := { s.prt with opening := upd s.prt.opening x (some s.now) } } else s

/-- A cleared trip returns the contactor block of its string from FAULT to OFF where both feedbacks read open (R261). -/
def State.ctcRelease (s : State) (x : Fin 2) (causes : List Nat) : State :=
  if s.ctcState x = stFault && causes.contains (s.fld (Reg.CTC_STS x) 16 8) && s.fbOpen x then
    (s.setCtc x stOff).setFld (Reg.CTC_STS x) 16 8 0
  else s

/-- Latch a PRT trip bit with its counter (R233). -/
def State.latchTrip (s : State) (bit : Nat) : State := (s.setBit Reg.PRT_STS bit true).inc (Reg.PRT_TRIP_CNT (bit - 8))

/-- Enter a warning of PRT (R233). -/
def State.latchWarn (s : State) (bit : Nat) : State := (s.setBit Reg.PRT_STS bit true).inc (Reg.PRT_TRIP_CNT 7)

/-- A measured value is above / below an FP32 threshold register. -/
def State.above (s : State) (x : Nat) (a : Nat) : Bool := (f32 (s.reg a)).lt (f32 x)
def State.below (s : State) (x : Nat) (a : Nat) : Bool := (f32 x).lt (f32 (s.reg a))

/-! ## The bus (R231) -/

/-- Bus overvoltage warning: held for 100 us. -/
def execBusOvWarn (t : Nat) (x : F32) (heldNs : Nat) (s : State) : Host.Outcome State Fault Refusal :=
  run t s fun s =>
    if s.pulseUp && s.above x.toNat Reg.PRT_OV_WARN && decide (100000 ≤ heldNs) && !s.bit Reg.PRT_STS 0 then s.latchWarn 0 else s

/-- Bus overvoltage trip: held for 2 us, all bricks to FAULT. -/
def execBusOvTrip (t : Nat) (x : F32) (heldNs : Nat) (s : State) : Host.Outcome State Fault Refusal :=
  run t s fun s =>
    if s.pulseUp && s.above x.toNat Reg.PRT_OV_TRIP && decide (2000 ≤ heldNs) && !s.bit Reg.PRT_STS 8 then
      ((s.latchTrip 8).tripBricks 8 allBricks 4).protTrip 0x10D 0x01 0xFF 0xFFFF x.toNat
    else s

/-- Bus undervoltage warning: held for 50 us, FLOOR_ALL_N asserted. -/
def execBusUvWarn (t : Nat) (x : F32) (heldNs : Nat) (s : State) : Host.Outcome State Fault Refusal :=
  run t s fun s =>
    if s.pulseUp && s.below x.toNat Reg.PRT_UV_WARN && decide (50000 ≤ heldNs) && !s.bit Reg.PRT_STS 1 then
      (s.latchWarn 1).refreshFloors
    else s

/-- Does the undervoltage trip act: held for 2 us? -/
def State.uvTrips (s : State) (x heldNs : Nat) : Bool :=
  s.pulseUp && s.below x Reg.PRT_UV_TRIP && decide (2000 ≤ heldNs) && !s.bit Reg.PRT_STS 9

/-- Bus undervoltage trip on the pulse die: all bricks to FAULT, FLOOR_ALL_N held. -/
def State.uvTrip (s : State) (x : Nat) : State :=
  ((s.latchTrip 9).tripBricks 9 allBricks 4).refreshFloors.protTrip 0x10D 0x02 0xFF 0xFFFF x

/-! ## Strings (R231) -/

/-- String overcurrent warning: held for 1 ms. -/
def execStringOcWarn (t : Nat) (x : Str) (i : F32) (heldNs : Nat) (s : State) : Host.Outcome State Fault Refusal :=
  run t s fun s =>
    let b := 2 + (strNum x).val
    if s.pulseUp && s.above (abs32 i.toNat) Reg.PRT_OC_WARN && decide (1000000 ≤ heldNs) && !s.bit Reg.PRT_STS b then s.latchWarn b
    else s

/-- String overcurrent trip: held for 10 us, the string's bricks to FAULT, its contactor opened. -/
def execStringOcTrip (t : Nat) (x : Str) (i : F32) (heldNs : Nat) (s : State) : Host.Outcome State Fault Refusal :=
  run t s fun s =>
    let b := 10 + (strNum x).val
    if s.pulseUp && s.above (abs32 i.toNat) Reg.PRT_OC_TRIP && decide (10000 ≤ heldNs) && !s.bit Reg.PRT_STS b then
      ((s.latchTrip b).stringTrip (strNum x) b 5 3).protTrip 0x10D 0x03 (strNum x) 0xFFFF i.toNat
    else s

/-- The contactor of a tripped string opens once the current is below 5 A, or 2 ms after the trip. -/
def execTripContactorOpen (t : Nat) (x : Str) (i : F32) (s : State) : Host.Outcome State Fault Refusal :=
  run t s fun s =>
    match sel s.prt.opening (strNum x) with
    | none => s
    | some a =>
      if (f32 i.toNat).abs.lt (Fv.ofNat 5) || decide (a + 2000000 ≤ s.now) then
        let s := (s.mainCoil (strNum x) false).preCoil (strNum x) false
        { s with prt := { s.prt with opening := upd s.prt.opening (strNum x) none } }
      else s

/-- Does a coil's feedback differ from its command? -/
def State.fbDiffers (s : State) (x : Fin 2) (pre : Bool) : Bool :=
  if pre then s.bit (Reg.CTC_STS x) 7 != s.bit (Reg.CTC_STS x) 8 else s.bit (Reg.CTC_STS x) 5 != s.bit (Reg.CTC_STS x) 6

/-- Contactor feedback mismatch (R231): judged only while the module drives the coil, PRT_CTC_WIN after a change of command and
1 ms otherwise; the string's bricks to FAULT, coil drive removed. -/
def execContactorFbMismatch (t : Nat) (x : Str) (pre : Bool) (heldNs : Nat) (s : State) : Host.Outcome State Fault Refusal :=
  run t s fun s =>
    let n := strNum x
    let cmdAt : Nat := if pre then s.ctc[n].preAt else s.ctc[n].mainAt
    let b := 12 + n.val
    if s.drives && s.fbDiffers n pre && decide (1000000 ≤ heldNs) &&
        decide (cmdAt + s.reg Reg.PRT_CTC_WIN * 1000000 ≤ s.now) && !s.bit Reg.PRT_STS b then
      let s := ((s.latchTrip b).tripBricks b (bricksOf n) 8).ctcFault n 1 false
      s.protTrip 0x10D 0x04 n.val (b2n pre) 0
    else s

/-- A warning recovers by itself (R231): each level keeps its offset from its threshold. -/
def execProtWarnRecover (t : Nat) (k : WarnKind) (x : F32) (heldNs : Nat) (s : State) : Host.Outcome State Fault Refusal :=
  run t s fun s =>
    let v := f32 x.toNat
    let half := Fv.pow2 (-1)
    match k with
    | .busOv =>
      if v.lt ((f32 (s.reg Reg.PRT_OV_WARN)).sub half) && decide (1000000 ≤ heldNs) then s.setBit Reg.PRT_STS 0 false else s
    | .busUv =>
      if ((f32 (s.reg Reg.PRT_UV_WARN)).add (Fv.ofNat 1)).lt v && decide (1000000 ≤ heldNs) then
        (s.setBit Reg.PRT_STS 1 false).refreshFloors
      else s
    | .stringOc y =>
      if v.abs.lt ((f32 (s.reg Reg.PRT_OC_WARN)).sub (Fv.ofNat 20)) && decide (10000000 ≤ heldNs) then
        s.setBit Reg.PRT_STS (2 + (strNum y).val) false
      else s

/-! ## Clearing (R232) -/

/-- Does a latched trip's condition still hold? -/
def State.tripHolds (s : State) (bit : Nat) : Bool :=
  match bit with
  | 8 => s.above (s.reg Reg.HVS_VBUS) Reg.PRT_OV_TRIP
  | 9 => s.below (s.reg Reg.HVS_VBUS) Reg.PRT_UV_TRIP
  | 10 => s.above (abs32 (s.reg (Reg.HVS_ISTR 0))) Reg.PRT_OC_TRIP
  | 11 => s.above (abs32 (s.reg (Reg.HVS_ISTR 1))) Reg.PRT_OC_TRIP
  | 12 => s.fbDiffers 0 false || s.fbDiffers 0 true
  | 13 => s.fbDiffers 1 false || s.fbDiffers 1 true
  | _ => false

/-- The trips that a write of PRT_CLR would clear. -/
def State.clearing (s : State) (v : Nat) : List Nat :=
  [8, 9, 10, 11, 12, 13].filter (fun b => bitOf v b && s.bit Reg.PRT_STS b)

/-- Clear one latched trip. -/
def State.clearTrip (s : State) (bit : Nat) : State :=
  let s := (s.setBit Reg.PRT_STS bit false).untripBricks bit
  match bit with
  | 9 => s.refreshFloors
  | 10 => s.ctcRelease 0 [3]
  | 11 => s.ctcRelease 1 [3]
  | 12 => s.ctcRelease 0 [1]
  | 13 => s.ctcRelease 1 [1]
  | _ => s

/-- May PRT_CLR be written so: no trip it clears still holds? -/
def prtClrOk (s : State) (v : Nat) : Bool := (s.clearing v).all (fun b => !s.tripHolds b)

/-- What a write of PRT_CLR does. -/
def prtClrEff (s : State) (v : Nat) : State := s.forAll (s.clearing v) State.clearTrip

/-- A write of PRT_CLR (R232). -/
def execPrtClr (t : Nat) (w : Writer) (v : Word) (s : State) : Host.Outcome State Fault Refusal :=
  run t s fun s => s.ownWrite w Reg.PRT_CLR v.toNat prtClrOk prtClrEff

/-! ## The PLL (R192, R231, R413) -/

/-- The four voltage-mode channels. -/
def allVm : List (Fin 4) := [0, 1, 2, 3]

/-- The PLL loses lock: PWM low, bricks and VM channels to FAULT. -/
def execPllUnlock (t : Nat) (s : State) : Host.Outcome State Fault Refusal :=
  run t s fun s =>
    if !s.prt.pll || s.pw.pulse == .off then s else
    let s := { s with prt := { s.prt with pll := false, pllSince := s.now } }
    let s := (s.inc Reg.PTB_UNLOCK_CNT).inc (Reg.PRT_TRIP_CNT 6)
    let s := (s.faultBricks allBricks 6).forAll allVm (fun s n => s.vmFault n 4)
    s.protTrip 0x10D 0x05 0xFF 0xFFFF 0

/-- The PLL has relocked for 1 ms: what faulted on the unlock returns to OFF. -/
def execPllRelock (t heldNs : Nat) (s : State) : Host.Outcome State Fault Refusal :=
  run t s fun s =>
    if s.prt.pll || decide (heldNs < 1000000) then s else
    let s := { s with prt := { s.prt with pll := true, pllSince := s.now - heldNs } }
    let s := s.forAll allBricks (fun s b => if s.fld (Reg.PCM_STS b) 8 8 = 6 then s.brickClear b else s)
    s.forAll allVm (fun s n => if s.fld (Reg.VMC_STS n) 8 8 = 4 then s.vmClear n else s)

/-! ## Loss of ownership (R235) -/

/-- Power-stage drivers at high impedance: bricks and channels go to OFF, coils are no longer driven, strings are out. -/
def State.dropOutputs (s : State) : State :=
  let s := (s.forAll allBricks State.brickDrop).forAll allVm State.vmDrop
  let s := s.forAll [(0 : Fin 2), 1] (fun s x =>
    let s := ((s.mainCoil x false).preCoil x false).setBit (Reg.CTC_STS x) 4 false
    let s := if s.ctcState x = stFault then s else s.setCtc x stOff
    s.updCtc x (fun c => { c with
      waiting := false, runFrame := none, leaving := false, bricksOff := none, restAt := none, excAt := none }))
  { s.pleat with prt := { s.pleat.prt with opening := (none, none) } }.refreshFloors

/-- The OWNER line is not asserted, or is contested (R235). -/
def execOwnerLost (t : Nat) (s : State) : Host.Outcome State Fault Refusal :=
  run t s fun s => if s.ownLine && !s.clp.contest then s else s.dropOutputs

end Sys2Proof.Machine
end

