-- ==== Sys2Proof/Machine/Chain.lean ====
section
/-!
DEFINITION. Chain and Jarrojo (R306 to R327): the stage, lanes and cables, the identity check, frames and their forwarding,
site time over the ring, step announcements, limits, the consensus and the absorption of a trip.
-/
namespace Sys2Proof.Machine

/-- The page of Jarrojo. -/
def jrjPg : Nat := 0x84

/-! ## The plan's view of the ring (R306, R312) -/

/-- Fields of a plan. -/
def wirVersion (l : List Byte) : Nat := leAt l 0x8 4
def wirDomain (l : List Byte) : Nat := leAt l 0xC 4
def wirEffect (l : List Byte) : Nat := leAt l 0x10 8
def wirRing (l : List Byte) : Nat := byteAt l 0x18
def wirLimit (l : List Byte) : Nat := leAt l 0x1C 4
def wirRamp (l : List Byte) : Nat := leAt l 0x20 4
def wirNodeNo (l : List Byte) (i : Nat) : Nat := byteAt l (wirNode i)
def wirRootOk (l : List Byte) (i : Nat) : Bool := bitOf (byteAt l (wirNode i + 1)) 0
def wirWeight (l : List Byte) (i : Nat) : Nat := leAt l (wirNode i + 2) 2

/-- The signed message of a plan, and PLAN_DIGEST (R314). -/
def wirMessage (l : List Byte) : List Byte := l.take (leAt l 0x28 4)
def wirDigest (l : List Byte) : List Byte := (sha256 (wirMessage l)).take 16

/-- The plan in force, empty where there is none. -/
def State.planBytesW (s : State) : List Byte := s.wiring.getD []

/-- This shelf's node number, if the plan has it. -/
def State.myNode (s : State) : Option Nat := s.myEntry.map (wirNodeNo s.planBytesW)

/-! ## Lanes (R310, R311, R326) -/

/-- Link state of a lane. -/
def State.lane (s : State) (l : Fin 4) : Nat := s.fld (Reg.CHN_STS l) 0 3

/-- Replace a lane's record. -/
def State.updLane (s : State) (l : Fin 4) (f : LaneSt → LaneSt) : State :=
  { s with chn := { s.chn with lane := s.chn.lane.set l (f s.chn.lane[l]) } }

/-- Move a lane to a link state. -/
def State.setLane (s : State) (l : Fin 4) (x : Nat) : State := s.setFld (Reg.CHN_STS l) 0 3 x

/-- The direction of a lane: 0 east, 1 west; and a direction's two lanes. -/
def laneDir (l : Fin 4) : Nat := l.val / 2
def dirNum : Dir → Nat
  | .east => 0
  | .west => 1
def lanesOf (d : Nat) : List (Fin 4) := if d = 0 then [0, 1] else [2, 3]
def allLanes : List (Fin 4) := [0, 1, 2, 3]

/-- Is a direction whole: has it an ADMITTED lane (R310)? -/
def State.dirUp (s : State) (d : Nat) : Bool := (lanesOf d).any (fun l => s.lane l = lkAdmitted)

/-- Is every lane of both directions QUARANTINED (R315)? -/
def State.allQuarantined (s : State) : Bool := allLanes.all (fun l => s.lane l = lkQuarantined)

/-- The bypass drive is energised. -/
def State.chainDrive (s : State) : Bool := s.bit Reg.JRJ_STS 3

/-- ROLE of JRJ_STS. -/
def State.jrjRole (s : State) : Nat := s.fld Reg.JRJ_STS 0 2

/-- EAST_UP, WEST_UP, ROLE, and since when every lane is quarantined, follow the lanes and the drive. -/
def State.chainShow (s : State) : State :=
  let s := (s.setBit Reg.JRJ_STS 4 (s.dirUp 0)).setBit Reg.JRJ_STS 5 (s.dirUp 1)
  let up := s.dirUp 0 || s.dirUp 1
  let role := if !s.chainDrive then 0 else if !up then 1 else if s.jrjRole = 3 then 3 else 2
  let s := if role = 2 ∧ s.jrjRole < 2 then { s with chn := { s.chn with joined := s.now / 1000000 } } else s
  let s := s.setFld Reg.JRJ_STS 0 2 role
  let q := if s.allQuarantined then (if s.chn.quarSince.isSome then s.chn.quarSince else some s.now) else none
  { s with chn := { s.chn with quarSince := q } }

/-- A lane goes DOWN. -/
def State.laneDown (s : State) (l : Fin 4) : State :=
  (((s.setLane l lkDown).setBit (Reg.CHN_STS l) 3 false).setBit (Reg.CHN_STS l) 5 false).chainShow

/-- May a lane train: its page there, base die up, ADMIT_EN, a cable with a suitable application, not deinitialised? -/
def State.laneMay (s : State) (l : Fin 4) : Bool :=
  pagePresent s.fx (0x80 + l.val) && s.baseUp && s.bit (Reg.CHN_CTL l) 0 && s.bit (Reg.CHN_STS l) 4 &&
  s.chn.lane[l].app && !s.chn.lane[l].held && s.chn.lane[l].initAt.isNone && !s.plugHeld (8 + l.val / 2)

/-- A lane that exchanges frames. -/
def State.laneOpen (s : State) (l : Fin 4) : Bool :=
  pagePresent s.fx (0x80 + l.val) && s.baseUp && s.bit (Reg.CHN_STS l) 3 && 2 ≤ s.lane l && s.lane l ≤ 5

/-! ## Frames (R316, R317) -/

/-- Fields of a frame. -/
def frType (b : List Byte) : Nat := byteAt b 0
def frOrigin (b : List Byte) : Nat := byteAt b 1
def frHops (b : List Byte) : Nat := byteAt b 2
def frRing (b : List Byte) : Nat := byteAt b 3 % 16
def frSeq (b : List Byte) : Nat := leAt b 4 3
def frStamp (b : List Byte) : Nat := leAt b 8 8

/-- A frame with HOPS taken as 0. -/
def frZeroHops (b : List Byte) : List Byte := b.take 2 ++ [0#8] ++ b.drop 3

/-- Do the two checks of a frame hold (R316)? -/
def frHcrcOk (b : List Byte) : Bool := crc8 ((frZeroHops b).take 7) = b.getD 7 0#8
def frCrcOk (b : List Byte) : Bool := (crc32c ((frZeroHops b).take 0xFC)).toNat = leAt b 0xFC 4

/-- Send a frame on a lane. -/
def State.sendLane (s : State) (l : Fin 4) (ty seq stamp : Nat) (body : List Byte) : State :=
  let f : TxFlit := ⟨ty, seq, stamp, body⟩
  (s.updLane l (fun x => { x with sent := sparseIns (sparseErase x.sent ty) ty f })).inc (Reg.CHN_TX_FRAMES l)

/-- The lane of a direction that carries a type (R310): REPORT on lane 1, the others on lane 0; the other lane where that one
is not ADMITTED. -/
def State.laneFor (s : State) (d ty : Nat) : Option (Fin 4) :=
  let pref := if ty = 4 then (lanesOf d).reverse else lanesOf d
  pref.find? (fun l => s.lane l = lkAdmitted)

/-- Send a flooded frame out of a direction. -/
def State.sendDir (s : State) (d ty seq stamp : Nat) (body : List Byte) : State :=
  match s.laneFor d ty with
  | some l => s.sendLane l ty seq stamp body
  | none => s

/-- Originate a flooded frame in both directions under the node's next SEQ (R316). -/
def State.flood (s : State) (ty stamp : Nat) (body : List Byte) : State :=
  let q := s.chn.seq
  let s := { s with chn := { s.chn with seq := (q + 1) % 2 ^ 24 } }
  (s.sendDir 0 ty q stamp body).sendDir 1 ty q stamp body

/-- The module's IDENT on a lane (R314). -/
def State.laneIdent (s : State) (l : Fin 4) : State :=
  let s := s.updLane l (fun x => { x with identAt := s.now })
  let p := s.planBytesW
  let i := s.myEntry.getD 0
  s.sendLane l 1 0 s.now (leBytes 8 0 ++ leBytes 8 s.fx.serial.toNat ++ leBytes 4 (leAt p (wirNode i + 4) 4) ++
    leBytes 1 (s.myNode.getD 255) ++ leBytes 1 (wirRing p) ++ leBytes 1 (laneDir l) ++ leBytes 1 (l.val % 2) ++
    leBytes 4 (wirDomain p) ++ leBytes 4 (wirVersion p) ++ wirDigest p)

/-- An ECHO on a lane: its t1 is kept until the answer (R317). -/
def State.laneEcho (s : State) (l : Fin 4) : State :=
  let s := s.updLane l (fun x => { x with
    echoes := min 16 (x.echoes + 1), lastEcho := s.now, t1s := lastN 16 (x.t1s ++ [s.now]) })
  s.sendLane l 2 0 s.now (leBytes 8 0 ++ leBytes 8 s.now)

/-- IDENT every second and ECHO 16 times at bring-up, then every second, on every lane that exchanges frames (R317). -/
def State.chainService (s : State) : State :=
  s.forAll allLanes (fun s l =>
    if !s.laneOpen l then s else
    let x := s.chn.lane[l]
    let s := if x.identAt + 1000000000 ≤ s.now then s.laneIdent l else s
    if x.echoes < 16 || decide (x.lastEcho + 1000000000 ≤ s.now) then s.laneEcho l else s)

/-- Enter IDENT_WAIT (R314): IDENT goes out, echoes begin again. -/
def State.laneIdentWait (s : State) (l : Fin 4) : State :=
  let s := (s.setLane l lkIdent).setBit (Reg.CHN_STS l) 5 false
  let s := s.updLane l (fun x => { x with echoes := 0, t1s := [], delays := [], bypassed := [] })
  (s.laneIdent l).chainShow

/-- A lane gains FEC lock after training (R314). -/
def execChainLaneFecLock (t : Nat) (l : Fin 4) (s : State) : Host.Outcome State Fault Refusal :=
  run t s fun s =>
    if s.laneMay l && (s.lane l = lkDown || s.lane l = lkTraining) then
      (s.setBit (Reg.CHN_STS l) 3 true).laneIdentWait l
    else s

/-- A lane loses FEC lock (R310): DOWN. -/
def execChainLaneFecLoss (t : Nat) (l : Fin 4) (s : State) : Host.Outcome State Fault Refusal :=
  run t s fun s => if s.bit (Reg.CHN_STS l) 3 then s.laneDown l else s

/-- What a write of CHN_CTL does (R326): ADMIT_EN holds the lane in DISABLED or lets it out; REIDENT returns it to IDENT_WAIT,
without effect while DOWN or TRAINING, and ends a hold after alarms and a release for quarantine (R311, R315). -/
def chnCtlEff (l : Fin 4) (s : State) (v : Nat) : State :=
  let s := if v % 2 = 0 then (s.laneDown l).setLane l lkDisabled
    else if s.lane l = lkDisabled then s.setLane l lkDown else s
  if bitOf v 1 then
    let s := s.updLane l (fun x => { x with held := false })
    let s := { s with chn := { s.chn with released := false } }
    if s.laneOpen l then s.laneIdentWait l else s
  else s.chainShow

/-- A write of CHN_CTL.REIDENT (R326). -/
def execChnReident (t : Nat) (w : Writer) (l : Fin 4) (s : State) : Host.Outcome State Fault Refusal :=
  run t s fun s => s.ownWrite w (Reg.CHN_CTL l) (s.reg (Reg.CHN_CTL l) % 2 + 2) anyValue (chnCtlEff l)

/-- A poll of one lane's part of a cable (R311). -/
def State.pollLane (s : State) (c : CmisIn) (l : Fin 4) : State :=
  let k := l.val % 2
  let f := c.flags.getD k 0
  let s := ((s.setReg (Reg.CHN_CMIS_TEMP l) c.temp.toNat).setReg (Reg.CHN_CMIS_RXPWR l) (c.rxPwr.getD k 0)).setReg (Reg.CHN_CMIS_FLAGS l) f
  let s := s.setReg (Reg.CHN_ASYM l) (ofInt 32 (c.asym.getD k 0))
  let s := ((s.setBit (Reg.CHN_STS l) 4 c.present).setBit (Reg.CHN_STS l) 6 c.warn).setBit (Reg.CHN_STS l) 7 c.alarm
  let s := s.updLane l (fun x => { x with app := c.appOk })
  let s := if c.appOk then s else s.setFld (Reg.CHN_STS l) 8 8 6
  let s := if !c.present || !c.appOk || c.los.getLsbD k then s.laneDown l else s
  let s := if c.alarm then
      let again := match s.chn.lane[l].lastAlarm with
        | some a => decide (s.now < a + 60000000000)
        | none => false
      (s.updLane l (fun x => { x with
        lastAlarm := some s.now, held := x.held || again, initAt := some (s.now + 1000000000) })).laneDown l
    else s
  if c.warn then s.post (0x80 + l.val) sevWarn 0x0041 l.val 0 f 0 0 else s

/-- A cable is polled (R311). -/
def execCmisPoll (t : Nat) (d : Dir) (c : CmisIn) (s : State) : Host.Outcome State Fault Refusal :=
  run t s fun s => if s.baseUp then s.forAll (lanesOf (dirNum d)) (fun s l => s.pollLane c l) else s

/-- 1 s after an alarm the data path is initialised again; a lane held after a second alarm stays DOWN (R311). -/
def execCmisReinit (t : Nat) (d : Dir) (s : State) : Host.Outcome State Fault Refusal :=
  run t s fun s => s.forAll (lanesOf (dirNum d)) (fun s l =>
    match s.chn.lane[l].initAt with
    | none => s
    | some a => if s.now < a then s else
      let s := s.updLane l (fun x => { x with initAt := none })
      if s.laneMay l && s.lane l = lkDown then s.setLane l lkTraining else s)

/-! ## The stage (R307, R308, R315) -/

/-- The conditions of the bypass drive (R307). -/
def State.stageMay (s : State) : Bool :=
  s.ownLine && s.baseUp && s.bit Reg.JRJ_CTL 0 && s.myEntry.isSome && !s.chn.released

/-- The stage opens (R307). -/
def execStageOpen (t : Nat) (s : State) : Host.Outcome State Fault Refusal :=
  run t s fun s =>
    if s.stageMay && !s.chainDrive then
      let s := s.setBit Reg.JRJ_STS 3 true
      let s := s.setReg Reg.JRJ_NODE (s.myNode.getD 255 % 256 + 256 * (wirRing s.planBytesW % 16))
      let s := { s with chn := { s.chn with training := true } }
      s.chainShow
    else s

/-- The drive is released and the stage closes. -/
def State.stageRelease (s : State) : State :=
  let s := (s.setBit Reg.JRJ_STS 3 false).setBit Reg.JRJ_STS 2 false
  ({ s with chn := { s.chn with training := true } }).chainShow

/-- A condition has ceased (R307). -/
def execStageClose (t : Nat) (s : State) : Host.Outcome State Fault Refusal :=
  run t s fun s => if s.chainDrive && !s.stageMay then s.stageRelease else s

/-- The ring's new path has trained (R308). -/
def execRingTrained (t : Nat) (s : State) : Host.Outcome State Fault Refusal :=
  run t s fun s => { s with chn := { s.chn with training := false } }

/-- Every lane of both directions has been quarantined for 1 s (R315). -/
def execChainQuarantineRelease (t : Nat) (s : State) : Host.Outcome State Fault Refusal :=
  run t s fun s =>
    match s.chn.quarSince with
    | some a =>
      if s.chainDrive && s.allQuarantined && decide (a + 1000000000 ≤ s.now) then
        ({ s with chn := { s.chn with released := true } }).stageRelease
      else s
    | none => s

/-- What a write of JRJ_CTL does (R327): clearing STAGE_EN releases the drive (R307). -/
def jrjCtlEff (s : State) (_ : Nat) : State := if s.chainDrive && !s.stageMay then s.stageRelease else s

/-- A write of JRJ_CTL.STAGE_EN (R327). -/
def execJrjStageEnWrite (t : Nat) (w : Writer) (v : Word) (s : State) : Host.Outcome State Fault Refusal :=
  run t s fun s => s.ownWrite w Reg.JRJ_CTL v.toNat anyValue jrjCtlEff

/-- JRJ_STEP_KW is at least 1.0 kW (R327). -/
def jrjStepOk (_ : State) (v : Nat) : Bool := (Fv.ofNat 1).le (f32 v)

/-! ## Frames in (R316, R318) -/

/-- The landed form of a Chain frame (R154, R318). -/
def chainLanded (late : Bool) (qual : Nat) (b : List Byte) : List Byte :=
  let q := withField qual 3 1 (b2n late)
  fitBytes 8 (b.drop 8) ++ leBytes 2 (0x4000 + frOrigin b) ++ [BitVec.ofNat 8 q, b.getD 0 0#8] ++ leBytes 4 (frSeq b) ++
    (b.drop 16).take 240

/-- A frame that a command brings on a lane as one of type `ty` (R316): counted, checked, and handed on. -/
def State.rxFrame (s : State) (l : Fin 4) (f : FlitIn) (ty : Nat) (eff : State → List Byte → State) : State :=
  if !s.laneOpen l then s else
  let b := fitBytes 256 f.bytes
  let s := s.inc (Reg.CHN_RX_FRAMES l)
  let s := if f.ce = 0 then s else s.addCnt (Reg.CHN_FEC_CE l) f.ce
  if f.ue then s.inc (Reg.CHN_FEC_UE l)
  else if !frHcrcOk b then s.inc (Reg.CHN_HCRC_ERR l)
  else if !frCrcOk b then s.inc (Reg.CHN_CRC_ERR l)
  else if frType b = 0 ∨ 6 < frType b ∨ frRing b ≠ wirRing s.planBytesW then s.inc (Reg.CHN_HCRC_ERR l)
  else if frType b ≠ ty then s
  else eff s b

/-- What a forwarding node adds to CORR of a TIME frame (R319), in ps: the arrival lane's delay, corrected by its asymmetry,
and its own residence, which is open. -/
def State.hopPs (s : State) (l : Fin 4) (free : Nat) : Int :=
  1000 * s.regS (Reg.CHN_DELAY l) + s.regS (Reg.CHN_ASYM l) + (Config.freeValue free 0 : Nat)

/-- The body that is forwarded: of TIME with CORR advanced. -/
def State.fwdBody (s : State) (l : Fin 4) (b : List Byte) : List Byte :=
  let p := b.drop 16
  if frType b = 3 then p.take 8 ++ leBytes 8 (ofInt 64 (sext 64 (leAt b 0x18 8) + s.hopPs l s.free)) ++ p.drop 16 else p

/-- JRJ_FORWARD (R318): discard an own or a seen frame; otherwise land it, forward it out of the opposite direction while hops
remain, and let it take effect. -/
def State.flooded (s : State) (l : Fin 4) (b : List Byte) (eff : State → State) : State :=
  if s.lane l ≠ lkAdmitted then s
  else if some (frOrigin b) = s.myNode ∨ s.chn.seen.contains (frOrigin b, frSeq b) then s.inc (Reg.CHN_DUP l)
  else
    let s := { s with chn := { s.chn with seen := lastN 4096 (s.chn.seen ++ [(frOrigin b, frSeq b)]) } }
    let late := decide (frStamp b / 10000 < s.now / 10000)
    let s := (s.ringPut (32 + laneDir l) (chainLanded late s.qual.toNat b)).1
    let s := if wirNodes s.planBytesW ≤ frHops b + 1 then s
      else match s.laneFor (1 - laneDir l) (frType b) with
        | some o => ((s.sendLane o (frType b) (frSeq b) (frStamp b) (s.fwdBody l b)).inc (Reg.CHN_FWD o))
        | none => s
    eff { s with free := s.free + 1 }

/-! ## Identity (R314) -/

/-- Positions along the ring from this node to entry `j` in a direction. -/
def ringSteps (n i j d : Nat) : Nat := if d = 0 then (j + n - i) % n else (i + n - j) % n

/-- The entry of a node number. -/
def entryOf (l : List Byte) (node : Nat) : Option Nat := (List.range (wirNodes l)).find? (fun i => wirNodeNo l i = node)

/-- The cause of a failed check (R314, R326), 0 where it passes; and the steps to the peer. -/
def State.laneCause (s : State) (l : Fin 4) (b : List Byte) : Nat × Nat :=
  let p := s.planBytesW
  let sn := leAt b 0x18 8
  match s.myEntry with
  | none => (5, 0)
  | some i =>
    match entryOf p (byteAt b 0x24) with
    | none => (1, 0)
    | some j =>
      let k := ringSteps (wirNodes p) i j (laneDir l)
      if leAt b 0x28 4 ≠ wirDomain p ∨ byteAt b 0x25 ≠ wirRing p then (3, k)
      else if (b.drop 0x30).take 16 ≠ wirDigest p then (4, k)
      else if sn ≠ wirSnA p j ∧ sn ≠ wirSnB p j then (1, k)
      else if byteAt b 0x26 + laneDir l ≠ 1 ∨ byteAt b 0x27 ≠ l.val % 2 then (2, k)
      else if k = 0 ∨ 4 < k then (1, k)
      else (0, k)

/-- The nodes that lie between this one and the peer, `k` steps away (R314). -/
def State.between (s : State) (d k : Nat) : List Nat :=
  let p := s.planBytesW
  let n := wirNodes p
  match s.myEntry with
  | none => []
  | some i => (List.range (k - 1)).map (fun j => wirNodeNo p (if d = 0 then (i + j + 1) % n else (i + n - (j + 1)) % n))

/-- An IDENT arrives (R314): the lane passes and waits for a slot, or is QUARANTINED with its cause. -/
def execJrjIdent (t : Nat) (l : Fin 4) (f : FlitIn) (s : State) : Host.Outcome State Fault Refusal :=
  run t s fun s => s.rxFrame l f 1 fun s b =>
    if s.lane l ≠ lkIdent then s else
    let (c, k) := s.laneCause l b
    let s := (s.setReg (Reg.CHN_PEER_SN l) (leAt b 0x18 8)).setReg (Reg.CHN_PEER l)
      (byteAt b 0x24 + 256 * (byteAt b 0x26 % 2) + 512 * (byteAt b 0x27 % 2) + 1024 * (k % 8))
    let s := (s.setBit (Reg.CHN_STS l) 5 (c = 0)).setFld (Reg.CHN_STS l) 8 8 c
    if c = 0 then (s.updLane l (fun x => { x with bypassed := s.between (laneDir l) k })).setLane l lkWaiting
    else ((s.setLane l lkQuarantined).chainShow).post (0x80 + l.val) sevWarn 0x0042 (0x40 + l.val) c 0 0 0

/-- Chain lanes that wait are admitted first in a slot and do not count towards its four ports (R314). -/
def State.admitLanes (s : State) : State :=
  s.forAll (allLanes.filter (fun l => s.laneOpen l && s.lane l = lkWaiting)) (fun s l => (s.setLane l lkAdmitted).chainShow)

/-- A new plan is in force (R313): every port and lane returns to IDENT_WAIT, and a release for quarantine ends. -/
def State.recheckAll (s : State) : State :=
  let s := { s with chn := { s.chn with released := false } }
  let s := s.setReg Reg.JRJ_PLAN_VER (wirVersion s.planBytesW)
  let s := s.setReg Reg.JRJ_NODE (match s.myNode with
    | some k => k % 256 + 256 * (wirRing s.planBytesW % 16)
    | none => 0xFF)
  let s := s.forAll (List.finRange 32) (fun s p => if s.portUp p && 2 ≤ s.link p then s.enterIdentWait p else s)
  s.forAll allLanes (fun s l => if s.laneOpen l then s.laneIdentWait l else s)

/-- WIRING_PLAN_EFFECT (R313): at the first admission slot at or after its EFFECT the pending plan is in force. -/
def State.wiringEffect (s : State) : State :=
  match s.wiringNext with
  | none => s
  | some l =>
    if s.now < wirEffect l then s
    else (({ s with wiring := some l, wiringNext := none }).setBit Reg.JRJ_STS 9 false).recheckAll

/-- An ECHO (R317): one without t2 is answered; an answer gives the lane's delay, the median of the last 16 (R164). -/
def execJrjEcho (t : Nat) (l : Fin 4) (f : FlitIn) (s : State) : Host.Outcome State Fault Refusal :=
  run t s fun s => s.rxFrame l f 2 fun s b =>
    let t1 := leAt b 0x18 8
    let t2 := leAt b 0x20 8
    if t2 = 0 then s.sendLane l 2 0 s.now (leBytes 8 0 ++ leBytes 8 t1 ++ leBytes 8 s.now ++ leBytes 8 s.now)
    else if s.chn.lane[l].t1s.contains t1 then
      let d := halfNs (((s.now : Int) - t1) - ((leAt b 0x28 8 : Int) - t2))
      let ds := lastN 16 (s.chn.lane[l].delays ++ [d])
      (s.updLane l (fun x => { x with t1s := x.t1s.filter (fun a => a ≠ t1), delays := ds })).setReg (Reg.CHN_DELAY l)
        (ofInt 32 (medianNs ds))
    else s

/-! ## Time (R30, R319) -/

/-- Is this member eligible as root (R319)? -/
def State.rootEligible (s : State) : Bool :=
  s.chainDrive && s.bit Reg.JRJ_CTL 1 && s.time.tstate == .lockedPtp && (match s.myEntry with
    | some i => wirRootOk s.planBytesW i
    | none => false)

/-- A number of ps in ns; the spec states no rounding for one that is not whole (log 33). -/
def psToNs (x : Int) : Int := if x % 1000 = 0 then x / 1000 else Config.psRound x

/-- Site time from a TIME frame (R319): the offset of the source; taken where Chain is the source followed. -/
def State.takeTime (s : State) (l : Fin 4) (b : List Byte) : State :=
  let o := (frStamp b : Int) + psToNs (sext 64 (leAt b 0x18 8) + 1000 * s.regS (Reg.CHN_DELAY l) + s.regS (Reg.CHN_ASYM l)) - s.now
  let s := { s with chn := { s.chn with timeTaken := (frOrigin b, (frSeq b, frHops b)) } }
  let s := s.setReg Reg.TIM_CHAIN_OFFSET (satI32 o)
  if s.time.source = .chain then s.discipline o else s

/-- Is a TIME frame's copy to be taken: a new one, or one with fewer hops than that taken (R319)? -/
def State.betterTime (s : State) (b : List Byte) : Bool :=
  let k := s.chn.timeTaken
  !(k.1 = frOrigin b && k.2.1 = frSeq b) || decide (frHops b < k.2.2)

/-- A TIME frame (R319): time is taken from the copy with fewer hops, then it is forwarded; a root yields to a lower one. -/
def execJrjTime (t : Nat) (l : Fin 4) (f : FlitIn) (s : State) : Host.Outcome State Fault Refusal :=
  run t s fun s => s.rxFrame l f 3 fun s b =>
    let lower := match s.myNode with
      | some n => decide (frOrigin b < n)
      | none => true
    let root := s.bit Reg.JRJ_STS 2 && !lower
    let mine := s.lane l = lkAdmitted && some (frOrigin b) ≠ s.myNode && !root
    let s := if mine && s.betterTime b then s.takeTime l b else s
    s.flooded l b fun s =>
      if !mine then s else
      let s := (s.setReg Reg.JRJ_ROOT (frOrigin b)).setBit Reg.JRJ_STS 2 false
      { s with chn := { s.chn with lastTime := s.now / 1000000, badRoot := leAt b 0x20 1 % 8 ≠ 3 } }

/-- This member takes the root. -/
def State.becomeRoot (s : State) : State :=
  (s.setReg Reg.JRJ_ROOT (s.myNode.getD 255)).setBit Reg.JRJ_STS 2 true

/-- No TIME for 3 plan frames, or a root not LOCKED_PTP: the next eligible member takes the root (R319). -/
def execRootTakeover (t : Nat) (s : State) : Host.Outcome State Fault Refusal :=
  run t s fun s =>
    if s.rootEligible && !s.bit Reg.JRJ_STS 2 && (s.chn.badRoot || decide (s.chn.lastTime + 3 ≤ s.now / 1000000)) then
      s.becomeRoot
    else s

/-- A lower-numbered candidate eligible for 10 s displaces the root (R319). -/
def execRootDisplace (t : Nat) (s : State) : Host.Outcome State Fault Refusal :=
  run t s fun s =>
    match s.chn.eligSince, s.myNode with
    | some a, some n =>
      if s.rootEligible && !s.bit Reg.JRJ_STS 2 && decide (n < s.reg Reg.JRJ_ROOT) && decide (a + 10000000000 ≤ s.now) then
        s.becomeRoot
      else s
    | _, _ => s

/-- JRJ_TIME_SEND at a plan-frame boundary (R319): the root sends TIME in both directions; one that is no longer eligible
stops. -/
def State.jrjTimeSend (s : State) : State :=
  let e := s.rootEligible
  let s := { s with chn := { s.chn with eligSince := if e then (if s.chn.eligSince.isSome then s.chn.eligSince else some s.now)
    else none } }
  if !s.bit Reg.JRJ_STS 2 then s
  else if !e then (s.setBit Reg.JRJ_STS 2 false).setReg Reg.JRJ_ROOT 0xFF
  else s.flood 3 s.now (leBytes 8 s.now ++ leBytes 8 0 ++ leBytes 1 (s.time.tstate.code + 8 * s.time.unc.toNat))

/-! ## Limits (R321) -/

/-- Does one limit govern over another: the later STAMP64, ties to the lower ORIGIN? -/
def LimitSt.ovr (a b : LimitSt) : Bool := decide (b.stamp < a.stamp) || (a.stamp = b.stamp && decide (a.origin < b.origin))

/-- The limit in force: the governing override, else the plan's RING_LIMIT. -/
def State.limitNow (s : State) : Nat :=
  let l := s.chn.limits.filter (fun x => x.effect ≤ s.now / 1000000 && decide (s.now < x.leaseEnd))
  match l with
  | [] => wirLimit s.planBytesW
  | x :: r => (r.foldl (fun a b => if b.ovr a then b else a) x).l

/-- JRJ_LIMIT shows it. -/
def State.limitShow (s : State) : State := if s.wiring.isSome then s.setReg Reg.JRJ_LIMIT s.limitNow else s

/-- Take a limit in hand. -/
def State.putLimit (s : State) (x : LimitSt) : State :=
  ({ s with chn := { s.chn with limits := lastN 16 (s.chn.limits ++ [x]) } }).limitShow

/-- A LIMIT frame (R321). -/
def execJrjLimit (t : Nat) (l : Fin 4) (f : FlitIn) (s : State) : Host.Outcome State Fault Refusal :=
  run t s fun s => s.rxFrame l f 6 fun s b => s.flooded l b fun s =>
    s.putLimit ⟨leAt b 0x18 4, leAt b 0x1C 8, leAt b 0x24 8, leAt b 0x10 8, frOrigin b⟩

/-- A limit's lease has ended (R321). -/
def execLimitLeaseEnd (t : Nat) (s : State) : Host.Outcome State Fault Refusal :=
  run t s fun s =>
    ({ s with chn := { s.chn with limits := s.chn.limits.filter (fun x => s.now < x.leaseEnd) } }).limitShow

/-- Originate a LIMIT (R321). -/
def State.sendLimit (s : State) (l effect leaseEnd : Nat) : State :=
  let s := s.flood 6 s.now (leBytes 8 s.now ++ leBytes 4 l ++ leBytes 8 effect ++ leBytes 8 leaseEnd)
  s.putLimit ⟨l, effect, leaseEnd, s.now, s.myNode.getD 255⟩

/-! ## Step announcements (R320) -/

/-- A member of the ring. -/
def State.jrjMember (s : State) : Bool := 2 ≤ s.jrjRole

/-- Send a STEP. -/
def State.sendStep (s : State) (cls conf event : Nat) (dp : Int) (tStep : Nat) : State :=
  s.flood 5 s.now (leBytes 8 s.now ++ leBytes 1 cls ++ leBytes 1 conf ++ leBytes 2 event ++ leBytes 4 (ofInt 32 dp) ++
    leBytes 8 tStep)

/-- TRIP_ANNOUNCE (R320): on the loss of grid draw, one STEP of class TRIP with the negative of the last measured draw. -/
def State.tripAnnounce (s : State) : State :=
  if !s.jrjMember || !s.baseUp then s else
  let e := s.chn.event
  let s := { s with chn := { s.chn with event := (e + 1) % 65536 } }
  s.sendStep 3 255 e (-(s.chn.gLast : Int)) s.now

/-- STEP_ANNOUNCE at a plan-frame boundary (R320): at most one STEP; a continuing change keeps its EVENT and T_STEP. -/
def State.stepAnnounce (s : State) (q : PlanIn) : State :=
  let lim := (f32 (s.reg Reg.JRJ_STEP_KW)).mul (Fv.ofNat 1000)
  let big (x : Int) : Bool := lim.le (Fv.ofInt x).abs
  let s := { s with chn := { s.chn with gLast := q.gMeas } }
  let goes := match s.chn.change with
    | some (up, _) => big q.loadDelta && up = decide (0 < q.loadDelta)
    | none => false
  let s := if goes then s else { s with chn := { s.chn with change := none } }
  if !s.jrjMember then s
  else if big q.loadDelta && (!q.covered || goes) then
    let up := decide (0 < q.loadDelta)
    let (e, a) := match s.chn.change with
      | some (_, x) => x
      | none => (s.chn.event, q.deltaAt)
    let s := { s with chn := { s.chn with
      change := some (up, (e, a)), event := if s.chn.change.isSome then s.chn.event else (s.chn.event + 1) % 65536 } }
    s.sendStep (b2n up) 255 e q.loadDelta a
  else match q.announced with
    | some (dp, a) =>
      if big dp then
        let e := s.chn.event
        let s := { s with chn := { s.chn with event := (e + 1) % 65536 } }
        s.sendStep 2 255 e dp a
      else s
    | none => s

/-- A STEP frame (R320, R325): classes 0 to 2 are features of the load model; a TRIP is kept for the next plan-frame boundary,
a repeated one ignored. -/
def execJrjStep (t : Nat) (l : Fin 4) (f : FlitIn) (s : State) : Host.Outcome State Fault Refusal :=
  run t s fun s => s.rxFrame l f 5 fun s b => s.flooded l b fun s =>
    let cls := byteAt b 0x18
    let ev := leAt b 0x1A 2
    let dp := sext 32 (leAt b 0x1C 4)
    if cls ≤ 2 then
      let x : StepFeature := ⟨frOrigin b, cls, byteAt b 0x19, ev, dp, leAt b 0x20 8⟩
      { s with chn := { s.chn with features := lastN 64 (s.chn.features ++ [x]) } }
    else if cls = 3 ∧ !s.chn.tripsSeen.contains (frOrigin b, ev) then
      { s with chn := { s.chn with
        tripsSeen := lastN 4096 (s.chn.tripsSeen ++ [(frOrigin b, ev)]),
        trips := s.chn.trips ++ [⟨frOrigin b, ev, (-dp).toNat⟩] } }
    else s

/-! ## Consensus (R322 to R324) -/

/-- A REPORT frame lands (R322). -/
def reportOf (b : List Byte) : Report :=
  let w (o : Nat) : Int := sext 32 (leAt b o 4)
  ⟨frOrigin b, frSeq b, leAt b 0x18 8, w 0x20, w 0x24, w 0x28, w 0x2C, w 0x30, w 0x34, leAt b 0x38 2, leAt b 0x3A 2,
   (b.drop 0x40).take 16⟩

/-- Keep a node's newest REPORT. -/
def State.putReport (s : State) (r : Report) : State :=
  let old : Nat := match sparseFind s.chn.reports r.node with
    | some x => x.frame
    | none => 0
  if r.frame < old then s
  else { s with chn := { s.chn with reports := sparseIns (sparseErase s.chn.reports r.node) r.node r } }

/-- A peer's REPORT (R322). -/
def execJrjReport (t : Nat) (l : Fin 4) (f : FlitIn) (s : State) : Host.Outcome State Fault Refusal :=
  run t s fun s => s.rxFrame l f 4 fun s b => s.flooded l b fun s => s.putReport (reportOf b)

/-- CAP and RAMP of the policy in force, with the defaults of R179. -/
def State.policyCap (s : State) : Nat := match s.arb.policy with
  | some l => leAt l 0x10 4
  | none => 330000
def State.policyRamp (s : State) : Nat := match s.arb.policy with
  | some l => leAt l 0x14 4
  | none => 33000

/-- G_avail in W (R176). -/
def State.gAvail (s : State) : Nat := 33000 * s.rectCount

/-- rho of this node: the allocation's, or the policy's RAMP outside the ring. -/
def State.rhoNow (s : State) : Nat := if s.jrjMember && s.chn.rho ≠ 0 then s.chn.rho else s.policyRamp

/-- The absorption capacity H (R325). -/
def State.capacityH (s : State) (q : PlanIn) : Nat :=
  let pLim := q.strs.foldl (fun a (x : StrIn) => a + x.pLim) 0
  let a := min (pLim - q.charging) (s.gAvail - q.gMeas)
  let b := min a (isqrt (2 * s.rhoNow * q.eTop))
  if s.limitWarn then 0 else b

/-- The floor F (R322). -/
def State.floorF (s : State) (q : PlanIn) : Nat :=
  let quarter := ((List.finRange 128).filter (fun n => s.ep[n].planFrom.isSome)).foldl (fun a n => a + s.ep[n].ident.pFloor) 0
  let pLim := q.strs.foldl (fun a (x : StrIn) => a + x.pLim) 0
  divOpen 6 quarter 4 + q.lambda - min pLim (divOpen 7 q.eAvail 2)

/-- This member's REPORT for plan frame `p` (R322). -/
def State.ownReport (s : State) (p : Nat) (q : PlanIn) : Report :=
  let w := match s.myEntry with
    | some i => wirWeight s.planBytesW i
    | none => 0
  ⟨s.myNode.getD 255, s.chn.seq, p, q.demand, s.floorF q, min s.policyCap s.gAvail, q.gMeas, s.capacityH q, s.policyRamp, w,
   b2n (s.bit Reg.PLS_STS 3) + 2 * b2n s.arb.gridLoss + 4 * b2n (s.bit Reg.JRJ_STS 6) + 8 * b2n (s.jrjRole = 3), s.chn.digest⟩

/-- REPORT_SEND in the body of slot 10 (R322). -/
def State.reportSend (s : State) : State :=
  match s.arb.lastIn with
  | none => s
  | some q =>
    if !s.jrjMember then s else
    let p := s.now / 1000000
    let r := s.ownReport p q
    let i4 (x : Int) : List Byte := leBytes 4 (ofInt 32 x)
    let body := leBytes 8 s.now ++ leBytes 8 p ++ i4 r.d ++ i4 r.f ++ i4 r.gHi ++ i4 r.g ++ i4 r.h ++ i4 r.ramp ++
      leBytes 2 r.weight ++ leBytes 2 r.flags ++ leBytes 4 0 ++ fitBytes 16 r.digest
    (s.flood 4 s.now body).putReport r

/-- The set of plan frame `p` (R323): for each node of the plan its REPORT for p, a stale substitute, or SILENT; and whether any
substitute was taken. -/
def State.formSet (s : State) (p : Nat) : List SetMember × Bool :=
  let w := s.planBytesW
  let one (node : Nat) : SetMember × Bool :=
    match sparseFind s.chn.reports node with
    | some r =>
      if r.frame = p then (⟨r, false⟩, false)
      else if p ≤ r.frame + 2 then (⟨r, false⟩, true)
      else (⟨{ r with f := r.g, d := r.g, gHi := r.g, h := 0 }, true⟩, false)
    | none => (⟨⟨node, 0, 0, 0, 0, 0, 0, 0, 0, match entryOf w node with
        | some i => wirWeight w i
        | none => 0, 0, []⟩, true⟩, false)
  let nodes := ((List.range (wirNodes w)).map (wirNodeNo w)).foldl insertNat []
  let l := nodes.map one
  (l.map (·.1), l.any (·.2))

/-- The largest level t with the sum of min(top - cap, w * t) at most r, by one binary digit a step (R323). -/
def fillLevel (l : List (Int × Nat)) (r : Int) : Nat → Nat → Nat
  | 0, t => t
  | b + 1, t =>
    let u := t + 2 ^ b
    let sum := l.foldl (fun (a : Int) x => a + min x.1 ((x.2 * u : Nat) : Int)) 0
    fillLevel l r b (if sum ≤ r then u else t)

/-- The remainder, at most w watts a node, in ascending node order. -/
def fillRest : List (Int × Nat) → Int → List Int
  | [], _ => []
  | x :: l, r =>
    let g := if 0 < r then min (min x.1 x.2) r else 0
    g :: fillRest l (r - g)

/-- The weighted water-fill (R323): the new caps and what is left. -/
def fill (caps tops : List Int) (ws : List Nat) (r : Int) : List Int × Int :=
  let room := (List.zipWith (· - ·) tops caps).zip ws
  let t := fillLevel room r 40 0
  let g1 := room.map (fun x => min x.1 ((x.2 * t : Nat) : Int))
  let r1 := r - g1.foldl (· + ·) 0
  let room2 := (List.zipWith (fun (x : Int × Nat) g => x.1 - g) room g1).zip ws
  let g2 := fillRest room2 r1
  (List.zipWith (· + ·) (List.zipWith (· + ·) caps g1) g2, r1 - g2.foldl (· + ·) 0)

/-- The allocation of R323: caps, rho, the sum of the floors, and whether the ring is oversubscribed. -/
def allocate (set : List Report) (limit rampSite : Int) : List Int × List Int × Int × Bool :=
  let lo := set.map (fun r => min r.f r.gHi)
  let hi := set.map (fun r => r.gHi)
  let dm := set.map (fun r => clampInt (min r.f r.gHi) r.gHi r.d)
  let ws := set.map (fun r => r.weight)
  let sum := lo.foldl (· + ·) 0
  let wsum : Int := ((ws.foldl (· + ·) 0 : Nat) : Int)
  let rho := set.map (fun r => min r.ramp (rampSite * r.weight / wsum))
  if limit < sum then (lo.map (fun x => x * limit / sum), rho, sum, true)
  else
    let a := fill lo dm ws (limit - sum)
    let b := fill a.1 hi ws a.2
    (b.1, rho, sum, false)

/-- SET_DIGEST (R322): over the sorted (ORIGIN, SEQ) pairs used, ORIGIN in one byte and SEQ in three (log 41). -/
def setDigest (l : List SetMember) : List Byte :=
  (sha256 ((l.filter (fun m => !m.silent)).map (fun m => leBytes 1 m.rep.node ++ leBytes 3 m.rep.seq)).flatten).take 16

/-- CONSENSUS_ALLOCATE in the body of slot 30 (R323, R324). -/
def State.consensus (s : State) : State :=
  if !s.jrjMember then s else
  let p := s.now / 1000000
  let s := { s with eng := { s.eng with
    ringCopied := set32 (set32 s.eng.ringCopied 32 (at32 s.eng.ringWritten 32)) 33 (at32 s.eng.ringWritten 33) } }
  let (set, inc) := s.formSet p
  let me := s.myNode.getD 255
  let others := s.chn.reports.filter (fun x => x.1 ≠ me)
  let alone := decide (1 < set.length) && decide (s.chn.joined + 3 ≤ p) && others.all (fun x => x.2.frame + 3 ≤ p)
  let differ := set.any (fun m => m.rep.frame = p && m.rep.node ≠ me && m.rep.digest ≠ s.chn.digest)
  let x := allocate (set.map (·.rep)) s.limitNow (wirRamp s.planBytesW)
  let i := set.findIdx (fun m => m.rep.node = me)
  let capW := (x.1.getD i 0).toNat * 1000
  let rho := (x.2.1.getD i 0).toNat
  let prev := s.chn.capMw
  let want := if inc then min capW prev else capW
  let cap := if alone then prev else min want (prev + rho)
  let silent := set.filter (·.silent)
  let s := s.setFld Reg.JRJ_STS 0 2 (if alone then 3 else 2)
  let s := (s.setBit Reg.JRJ_STS 6 inc).setBit Reg.JRJ_STS 7 x.2.2.2
  let s := (s.setReg Reg.JRJ_MEMBERS set.length).setReg Reg.JRJ_SILENT silent.length
  let s := s.forAll (List.range 6) (fun s k => s.setReg (Reg.JRJ_SILENT_MAP k)
    ((silent.filter (fun m => m.rep.node / 32 = k)).foldl (fun a m => a ||| 2 ^ (m.rep.node % 32)) 0))
  let s := if inc || differ then s.inc Reg.JRJ_INCOMPLETE_CNT else s
  let s := { s with chn := { s.chn with set := set, digest := setDigest set, capMw := cap, rho := if alone then s.chn.rho else rho } }
  if x.2.2.2 then
    (s.inc Reg.JRJ_OVERSUB_CNT).post jrjPg sevWarn 0x0070 0 0 (x.2.2.1.toNat) s.limitNow set.length
  else s

/-! ## Absorption of a trip (R325) -/

/-- Shares of a loss over members with capacities, in ascending node order: floors, then 1 W each to members with room. -/
def tripFloors (lost : Nat) (hs : List Nat) : List Nat :=
  let sum := hs.foldl (· + ·) 0
  hs.map (fun h => min h (lost * h / sum))

/-- Whole watts left over, 1 W each in ascending node order within H. -/
def tripRest : List (Nat × Nat) → Nat → List Nat
  | [], _ => []
  | (h, a) :: l, r => if 0 < r ∧ a < h then (a + 1) :: tripRest l (r - 1) else a :: tripRest l r

/-- The shares of one TRIP: everything where the capacities do not suffice. -/
def tripShares (lost : Nat) (hs : List Nat) : List Nat :=
  let sum := hs.foldl (· + ·) 0
  if sum < lost then hs
  else
    let fl := tripFloors lost hs
    tripRest (hs.zip fl) (lost - fl.foldl (· + ·) 0)

/-- Insert a TRIP in ascending order of ORIGIN. -/
def insertTrip : List TripSt → TripSt → List TripSt
  | [], a => [a]
  | x :: l, a => if a.origin < x.origin then a :: x :: l else x :: insertTrip l a

/-- One TRIP over the capacities (node, H): what each gives, and whether it falls short. -/
def tripOne (t : TripSt) (cap : List (Nat × Nat)) : List (Nat × Nat) × Bool :=
  let l := cap.filter (fun x => x.1 ≠ t.origin)
  let sh := tripShares t.lost (l.map (·.2))
  ((l.map (·.1)).zip sh, decide ((l.map (·.2)).foldl (· + ·) 0 < t.lost))

/-- TRIP_ABSORB at a plan-frame boundary (R325): the setpoint and cap rise by this member's shares; the absorption in force
falls back at rho. -/
def State.tripAbsorb (s : State) : State :=
  let s := { s with chn := { s.chn with absorbMw := s.chn.absorbMw - s.rhoNow, raise := 0 } }
  let me := s.myNode.getD 255
  let trips := if s.jrjMember then s.chn.trips.foldl insertTrip [] else []
  let cap0 := (s.chn.set.filter (fun m => !m.silent)).map (fun m => (m.rep.node, m.rep.h.toNat))
  let r := trips.foldl (fun (x : State × List (Nat × Nat)) t =>
    let o := tripOne t x.2
    let mine := ((o.1.find? (fun y => y.1 = me)).map (·.2)).getD 0
    let left := x.2.map (fun c => (c.1, c.2 - ((o.1.find? (fun y => y.1 = c.1)).map (·.2)).getD 0))
    let s := x.1.inc Reg.JRJ_TRIP_CNT
    let s := { s with chn := { s.chn with absorbMw := s.chn.absorbMw + 1000 * mine, raise := s.chn.raise + mine } }
    let s := if o.2 then
        (s.inc Reg.JRJ_SHORTFALL_CNT).post jrjPg sevWarn 0x0071 t.origin 0 t.lost ((x.2.filter (fun c => c.1 ≠ t.origin)).foldl
          (fun a c => a + c.2) 0) 0
      else s
    (s, left)) (s, cap0)
  let s := { r.1 with chn := { r.1.chn with trips := [] } }
  let w := divOpen 8 s.chn.absorbMw 1000
  (s.setReg Reg.JRJ_ABSORB w).setBit Reg.JRJ_STS 8 (0 < s.chn.absorbMw)

/-- The cap of a member in W, absorption included (R324, R325). -/
def State.siteCap (s : State) : Nat := divOpen 9 (s.chn.capMw + s.chn.absorbMw) 1000

/-- CAP_APPLY at a plan-frame boundary (R324): the allocation's cap and rho enter the QP of this frame. -/
def State.capApply (s : State) : State :=
  if s.jrjMember then (s.setReg Reg.JRJ_CAP s.siteCap).setReg Reg.JRJ_RAMP s.chn.rho else s

/-! ## Events whose TRIP the site hears (R231, R320) -/

/-- The bus undervoltage trip (R231), announced as TRIP (R320). -/
def execBusUvTrip (t : Nat) (x : F32) (heldNs : Nat) (s : State) : Host.Outcome State Fault Refusal :=
  run t s fun s => if s.uvTrips x.toNat heldNs then (s.uvTrip x.toNat).tripAnnounce else s

/-- Rectifiers report the loss of their AC input (R183); once every one in service has, the loss is announced as TRIP (R320). -/
def execRectAcLoss (t : Nat) (lost : BitVec 12) (s : State) : Host.Outcome State Fault Refusal :=
  run t s fun s =>
    let was := s.arb.gridLoss
    let s := ({ s with arb := { s.arb with acLost := s.arb.acLost ||| lost } }).refreshGrid
    if s.arb.gridLoss && !was then s.tripAnnounce else s

end Sys2Proof.Machine
end

