-- ==== Sys2Proof/Machine/Pulse.lean ====
section
/-!
DEFINITION. The pulse-period boundary (R35): what was sensed in the period that ends (R195, R205, R277), the reference, the
storage command, the direction of each string (R191, R196, R223), bricks that join or end a ramp, and the shedding controller.
-/
namespace Sys2Proof.Machine

/-! ## What was sensed -/

/-- A whole number for a value that is one; its rounding is open otherwise (log 33). -/
def openNat (kind : Nat) (x : Fv) : Nat :=
  match x with
  | .fin false m e =>
    if 0 ≤ e then m * 2 ^ e.toNat else divOpen kind m (2 ^ (-e).toNat)
  | _ => 0

/-- HVS_EOUT grows by the energy delivered in the period: P in kW times 4 us, in microjoule; it never falls (R277). -/
def State.addEout (s : State) (pbus : Nat) : State :=
  let p := f32 pbus
  if p.isFin && !p.isNeg then
    s.setReg Reg.HVS_EOUT ((s.reg Reg.HVS_EOUT + openNat 2 (p.mul (Fv.ofNat 4000))) % 2 ^ 64)
  else s

/-- Mean of FP32 codes, rounded once. -/
def mean32 (l : List Nat) : Nat :=
  if l.isEmpty then 0 else rn32 ((l.foldl (fun a x => a.add (f32 x)) Fv.zero).div (Fv.ofNat l.length))

/-- The downslope of each brick that switched (R195): the mean of its last 16 periods; in its first 16 the mean of its
string's active bricks. -/
def State.storeSlopes (s : State) (h : Sense) : State :=
  let act := s.activeSet
  let at' (b : Fin 48) : Nat := h.m2.getD b.val 0
  let strMean (x : Nat) : Nat := mean32 ((act.filter (fun b => strOf b = x && at' b ≠ 0)).map at')
  s.forAll allBricks (fun s b =>
    if at' b = 0 then s else
    let l := lastN 16 (s.pd.brick[b].m2 ++ [at' b])
    let s := s.updBrick b (fun x => { x with m2 := l })
    s.setReg (Reg.PCM_DS b) (if l.length < 16 then strMean (strOf b) else mean32 l))

/-- The sensed values of the period that ends go into HVS, PLS, VMC and PCM (R236, R277). -/
def State.storeSense (s : State) (h : Sense) : State :=
  let s := { s with pd := { s.pd with sense := h } }
  let s := ((s.setReg Reg.HVS_VBUS h.vbus).setReg Reg.HVS_IBUS h.ibus).setReg Reg.HVS_PBUS h.pbus
  let s := ((s.setReg (Reg.HVS_VSTR 0) h.vA).setReg (Reg.HVS_VSTR 1) h.vB).setReg (Reg.HVS_ISTR 0) h.iA
  let s := ((s.setReg (Reg.HVS_ISTR 1) h.iB).setReg Reg.PLS_PLOAD h.pbus).addEout h.pbus
  let q := s.jnl.charge
  let s := { s with jnl := { s.jnl with charge := (q.1.add (f32 h.iA), q.2.add (f32 h.iB)) } }
  let s := s.forAll (List.range 4) (fun s n =>
    (s.setReg (Reg.VMC_VOUT n) (h.vout.getD n 0)).setReg (Reg.VMC_IOUT n) (h.iout.getD n 0))
  let s := s.forAll allBricks (fun s b => s.setReg (Reg.PCM_MEAN b) (ofInt 32 (h.mean.getD b.val 0)))
  s.storeSlopes h

/-- The run of fine samples at least SHD_VDEV from 50 V, and whether a run has just reached two (R205, condition 4). -/
def vStep (lim : Fv) : Nat × Bool → Nat → Nat × Bool
  | (run, seen), v =>
    if lim.le ((f32 v).sub (Fv.ofNat 50)).abs then (run + 1, seen || run + 1 = 2) else (0, seen)

/-- Condition 4 of R205 on the samples of the period; the step was detected before the boundary. -/
def State.senseStep (s : State) (h : Sense) : State :=
  let r := h.fine.foldl (vStep (f32 (s.reg Reg.SHD_VDEV))) (s.pd.vRun, false)
  let b := s.now
  let s := { s with pd := { s.pd with vRun := r.1 } }
  if r.2 then { ({ s with now := b - 1 }).stepDetect with now := b } else s

/-! ## Direction (R196) -/

/-- Does a command stand in the other direction with at least 0.2 kW? -/
def otherWay (dir : Bool) (c : Nat) : Bool :=
  let v := f32 c
  (Fv.ofNat 1).le (v.abs.mul (Fv.ofNat 5)) && v.isNeg != dir

/-- DIRECTION_CHANGE: a string whose period at threshold 0 has passed turns; one whose command has turned starts it. -/
def State.turnString (s : State) (x : Nat) : State :=
  let s := if sel s.pd.turn x then
      let d := !s.strDir x
      let s := s.forAll (bricksOf x) (fun s b => s.setBit (Reg.PCM_STS b) 5 d)
      { s with pd := { s.pd with turn := upd s.pd.turn x false } }
    else s
  if otherWay (s.strDir x) (s.sReg x) then { s with pd := { s.pd with turn := upd s.pd.turn x true } } else s

/-! ## Joins, ramps and limits -/

/-- BRICK_JOIN (R198): a STARTING brick that need not wait for a rotation becomes RUNNING. -/
def State.joinBricks (s : State) : State :=
  s.forAll allBricks (fun s b =>
    if s.bst b = stStarting && !s.pd.brick[b].waitRot && decide (s.pd.brick[b].onAt < s.now) then s.setBst b stRunning else s)

/-- A shed brick whose ramp of 4 periods has run stops switching (R204). -/
def State.endRamps (s : State) : State :=
  s.forAll allBricks (fun s b =>
    match s.pd.brick[b].ramp with
    | none => s
    | some k =>
      if s.bst b = stRunning ∧ k + 4 ≤ s.now / 4000 then
        s.updBrick b (fun x => { x with ramp := none, on := false, armed := false })
      else s)

/-- Since when a string's command stands at its limit (R228). -/
def State.limitSince (s : State) (x : Nat) : Option Nat :=
  let l := s.limits x
  let c := f32 (s.sReg x)
  if s.strSvc x && (c.le l.1 || l.2.le c) then some ((sel s.gov.limSince x).getD s.now) else none

/-- The pulse die at a pulse-period boundary. -/
def State.pulseBoundary (s : State) (h : Sense) : State :=
  let s := (s.storeSense h).senseStep h
  let s := (s.applyReference.storeCmd.turnString 0).turnString 1
  let s := s.joinBricks.endRamps.shedBoundary
  let s := s.setReg Reg.PTB_PULSE (s.now / 4000)
  { s with gov := { s.gov with limSince := (s.limitSince 0, s.limitSince 1) } }

/-- A pulse-period boundary (R35). -/
def execPulsePeriodBoundary (h : Sense) (s : State) : Host.Outcome State Fault Refusal :=
  runGrid 4000 s.grid.pulse (fun g n => { g with pulse := n }) s fun s => if s.pulseUp then s.pulseBoundary h else s

end Sys2Proof.Machine
end

