-- ==== Sys2Proof/Machine/Beads.lean ====
section
/-!
DEFINITION. The Bead loops (R237 to R257): the Bead commands, replies, hops and cadence, balancing, sense-wire verdicts and cell
protection.
-/
namespace Sys2Proof.Machine

/-! ## The loop's records -/

/-- Replace a string's loop record. -/
def State.updLoop (s : State) (x : Fin 2) (f : LoopSt → LoopSt) : State := { s with loop := s.loop.set x (f s.loop[x]) }

/-- Replace a Bead's record. -/
def State.updBead (s : State) (x : Fin 2) (j : Fin 15) (f : BeadSt → BeadSt) : State :=
  s.updLoop x (fun l => { l with bead := l.bead.set j (f l.bead[j]) })

/-- A Bead's record. -/
def State.bead (s : State) (x : Fin 2) (j : Fin 15) : BeadSt :=
  let l : LoopSt := s.loop[x]
  l.bead[j]

/-- The Beads of a string. -/
def allBeads : List (Fin 15) := List.finRange 15

/-- Is the module in ship mode (R274)? -/
def State.ship (s : State) : Bool := s.bit Reg.CTC_SHIP 0

/-- Bead of a number, for numbers below 15. -/
def beadOf (j : Nat) : Fin 15 := ⟨j % 15, Nat.mod_lt _ (by decide)⟩

/-- Bead and position of a cell of a string (R237). -/
def cellBead (c : Nat) : Fin 15 := beadOf (c / 16)

/-- Read and write a 16-bit element of a register array that starts at an address. -/
def State.half (s : State) (base i : Nat) : Nat := s.fld (base + 4 * (i / 2)) (16 * (i % 2)) 16
def State.setHalf (s : State) (base i v : Nat) : State := s.setFld (base + 4 * (i / 2)) (16 * (i % 2)) 16 v

/-- A cell's fine code (R278). -/
def State.cellCode (s : State) (x : Fin 2) (c : Nat) : Nat := s.half (Reg.BDS_CELL_V 0) (240 * x.val + c)

/-- Address and low bit of a cell's flags byte. -/
def flagAddr (x c : Nat) : Nat := Reg.BDS_CELL_FLAGS 0 + 4 * ((240 * x + c) / 4)
def flagLo (x c : Nat) : Nat := 8 * ((240 * x + c) % 4)

/-- A flag of a cell (R278): 0 TAINT, 1 OWT, 2 EXCLUDED, 3 STALE, 4 OV_WARN, 5 UV_WARN. -/
def State.cellFlag (s : State) (x : Fin 2) (c k : Nat) : Bool := s.bit (flagAddr x c) (flagLo x c + k)
def State.setCellFlag (s : State) (x : Fin 2) (c k : Nat) (b : Bool) : State := s.setBit (flagAddr x c) (flagLo x c + k) b

/-- The cells that a wire of a Bead concerns (R237, R253), as positions. -/
def wireCells (w : Nat) : List Nat := if w = 0 then [0] else if w = 16 then [15] else [w - 1, w]

/-- Flag the cells of a Bead's wire. -/
def State.flagWire (s : State) (x : Fin 2) (j w k : Nat) (b : Bool) : State :=
  s.forAll (wireCells w) (fun s p => s.setCellFlag x (16 * j + p) k b)

/-! ## Bead commands (R241) -/

/-- Who transmits: the module whose OWNER line is asserted (R240). -/
def State.beadTx (s : State) : Bool := s.drives

/-- WAKE: the Beads leave sleep. -/
def execBeadWake (t : Nat) (x : Str) (s : State) : Host.Outcome State Fault Refusal :=
  run t s fun s =>
    if !s.beadTx then s else
    s.forAll allBeads (fun s j => s.updBead (strNum x) j (fun b => { b with awake := true, lastReply := s.now }))

/-- SLEEP: balancing and converters off. -/
def execBeadSleep (t : Nat) (x : Str) (s : State) : Host.Outcome State Fault Refusal :=
  run t s fun s =>
    if !s.beadTx then s else
    s.forAll allBeads (fun s j => s.updBead (strNum x) j (fun b => { b with awake := false, bal := 0#16, force := 0#16 }))

/-- A Bead's report of its serial (R242): a new one raises BEAD_REPLACED and restarts its 16 cells' estimators. -/
def State.beadSerial (s : State) (x : Fin 2) (j : Fin 15) (sn : Option (BitVec 48)) : State :=
  let b := s.bead x j
  match sn with
  | none => s.updBead x j (fun b => { b with reach := false })
  | some n =>
    let s' := s.updBead x j (fun b => { b with reach := true, serial := n })
    if b.serial = 0#48 ∨ b.serial = n then s'
    else
      let e : EstSt := s'.est[x]
      let s' := { s' with est := s'.est.set x { e with restarts := e.restarts + 16 } }
      s'.post 0x10F sevWarn 0x0060 x.val j.val (n.toNat % 2 ^ 32) (n.toNat / 2 ^ 32) 0

/-- ADDR: every Bead takes its address and reports its serial (R242). -/
def execBeadAddr (t : Nat) (x : Str) (serials : List (Option (BitVec 48))) (s : State) : Host.Outcome State Fault Refusal :=
  run t s fun s =>
    if !s.beadTx then s else
    s.forAll allBeads (fun s j => s.beadSerial (strNum x) j (serials.getD j.val none))

/-- The Beads that an address reaches: one, or all for 0xF. -/
def addressed (a : Nat) : List (Fin 15) := if a = 15 then allBeads else [beadOf a]

/-- CONFIG: the averaging window in pulse periods (R247). -/
def execBeadConfig (t : Nat) (x : Str) (a : BitVec 4) (arg : BitVec 16) (s : State) : Host.Outcome State Fault Refusal :=
  run t s fun s =>
    if !s.beadTx then s else
    s.forAll (addressed a.toNat) (fun s j => s.updBead (strNum x) j (fun b => { b with window := fieldOf arg.toNat 0 11 }))

/-- SETTLE: the balancing pause before the window. -/
def execBeadSettle (t : Nat) (x : Str) (a : BitVec 4) (arg : BitVec 16) (s : State) : Host.Outcome State Fault Refusal :=
  run t s fun s =>
    if !s.beadTx then s else
    s.forAll (addressed a.toNat) (fun s j => s.updBead (strNum x) j (fun b => { b with settle := fieldOf arg.toNat 0 8 }))

/-- The cycle number after `c` that is `k` modulo 10. -/
def nextCycle (c k : Nat) : Nat := c + 1 + (k + 10 - (c + 1) % 10) % 10

/-- Taint ends one cycle after a FORCE was released (R251). -/
def State.endTaint (s : State) (x : Fin 2) (j : Fin 15) : State :=
  let b := s.bead x j
  if b.taintMask ≠ 0#16 ∧ b.taintFrom = none ∧ b.taintUntil < (s.loop[x]).cycle then
    let s := s.forAll (List.range 16) (fun s p =>
      if bitOf b.taintMask.toNat p then s.setCellFlag x (16 * j.val + p) 0 false else s)
    s.updBead x j (fun b => { b with taintMask := 0#16 })
  else s

/-- MEAS: a measurement cycle starts (R246); a window too long for the fast cadence is clipped and shown (R247). -/
def execBeadMeas (t : Nat) (x : Str) (arg : BitVec 16) (s : State) : Host.Outcome State Fault Refusal :=
  run t s fun s =>
    if !s.beadTx || s.ship then s else
    let n := strNum x
    let fast := bitOf arg.toNat 4
    let s := s.updLoop n (fun l => { l with cycle := nextCycle l.cycle (arg.toNat % 16 % 10) })
    let s := s.setBit Reg.BDS_STS 6 (fast && decide (125 < s.reg Reg.BDS_SETTLE + s.reg Reg.BDS_WINDOW))
    s.forAll allBeads (fun s j => s.endTaint n j)

/-- READ: the Beads served send their reply frames, which arrive as BEAD_REPLY_RX (R245); a READ of both parities starts the
cycle's sum anew. -/
def execBeadRead (t : Nat) (x : Str) (arg : BitVec 16) (s : State) : Host.Outcome State Fault Refusal :=
  run t s fun s =>
    if s.beadTx && !s.ship && bitOf arg.toNat 0 then s.updLoop (strNum x) (fun l => { l with got := [] }) else s

/-- Is a string parked (R268)? -/
def State.parked (s : State) (x : Nat) : Bool := s.ctcState x = stHold

/-- The request mask that BAL may carry to a Bead (R250): nothing for an excluded cell, a parked string, ship mode, or while
balancing is disabled. -/
def State.balAllowed (s : State) (x : Fin 2) (j : Fin 15) (mask : Nat) : Nat :=
  if s.parked x.val || s.ship || !s.bit Reg.BDS_CTL 0 then 0
  else (List.range 16).foldl (fun a p =>
    if bitOf mask p && !s.cellFlag x (16 * j.val + p) 2 then a + 2 ^ p else a) 0

/-- BAL: a standing balance request (R250). -/
def execBeadBal (t : Nat) (x : Str) (j : Fin 15) (mask : BitVec 16) (s : State) : Host.Outcome State Fault Refusal :=
  run t s fun s =>
    if !s.beadTx then s else
    let m := s.balAllowed (strNum x) j mask.toNat
    s.updBead (strNum x) j (fun b => { b with bal := BitVec.ofNat 16 m })

/-- Does a Bead balance position p in cycle n (R250)? -/
def State.balances (s : State) (x : Fin 2) (j : Fin 15) (p : Nat) : Bool :=
  let b := s.bead x j
  let l : LoopSt := s.loop[x]
  bitOf b.force.toNat p ||
  (p % 2 = l.cycle % 2 && bitOf b.bal.toNat p && decide (25000 ≤ s.cellCode x (16 * j.val + p)) && !b.thermal)

/-- OWT: starts or ends the test current on a wire; its cells carry OWT and are excluded meanwhile (R255). -/
def execBeadOwt (t : Nat) (x : Str) (j : Fin 15) (arg : BitVec 16) (s : State) : Host.Outcome State Fault Refusal :=
  run t s fun s =>
    if !s.beadTx then s else
    let n := strNum x
    let w := arg.toNat % 32
    if bitOf arg.toNat 5 then
      let l : LoopSt := s.loop[n]
      let ev := match l.owt with
        | some (_, (_, (_, e))) => e
        | none => 0
      let s := (s.flagWire n j.val w 1 true).setFld Reg.BDS_OWT_RES 0 3 1
      s.updLoop n (fun l => { l with owt := some (j.val, (w, (max 1 l.cycle, ev))) })
    else s.flagWire n j.val w 1 false

/-- Positions whose readings a FORCE mask taints (R251): where p and p + 1 are both on, p - 1 to p + 2. -/
def taintOf (m : Nat) : Nat :=
  let both := m &&& (m / 2)
  ((both * 2) ||| both ||| (both * 4) ||| (both / 2)) % 2 ^ 16

/-- May FORCE be sent: the string's contactor OFF, in a state that opens error injection (R251)? -/
def State.forceOk (s : State) (x : Nat) : Bool := s.ctcState x = stOff && lcErrInj s.lc

/-- FORCE takes its mask without the parity interlock, and taints readings. -/
def State.beadForce (s : State) (x : Fin 2) (j : Fin 15) (mask : Nat) : State :=
  let tn := taintOf mask
  let c := (s.loop[x]).cycle
  let b := s.bead x j
  let until' := if tn = 0 ∧ b.taintFrom.isSome then c + 1 else b.taintUntil
  let s := s.forAll (List.range 16) (fun s p => if bitOf tn p then s.setCellFlag x (16 * j.val + p) 0 true else s)
  s.updBead x j (fun b => { b with
    force := BitVec.ofNat 16 mask, taintFrom := if tn = 0 then none else some c, taintUntil := until',
    taintMask := if tn = 0 then b.taintMask else b.taintMask ||| BitVec.ofNat 16 tn })

/-- FORCE (R251). -/
def execBeadForce (t : Nat) (x : Str) (j : Fin 15) (mask : BitVec 16) (s : State) : Host.Outcome State Fault Refusal :=
  run t s fun s => if s.beadTx && s.forceOk (strNum x) then s.beadForce (strNum x) j mask.toNat else s

/-- DIAG: the Bead compares its references; the result comes in a later status word (256: awaited). -/
def execBeadDiag (t : Nat) (x : Str) (j : Fin 15) (s : State) : Host.Outcome State Fault Refusal :=
  run t s fun s => if s.beadTx then s.updBead (strNum x) j (fun b => { b with diag := 256 }) else s

/-! ## Voltages that protection uses (R256) -/

/-- Is a wire of a Bead taken as open: found open, or unresolved? -/
def State.wireOut (s : State) (x : Fin 2) (j w : Nat) : Bool :=
  let l : LoopSt := s.loop[x]
  l.openWires.contains (j, w) || l.unresolved.any (fun e => e.1 = j && e.2.1 = w)

/-- The voltage protection takes for a cell, in half microvolt (R256): its reading; half the pair's sum across an open interior
wire; the coarse reading less the other 15 across an open outer wire. -/
def State.cellHalfUv (s : State) (x : Fin 2) (c : Nat) : Int :=
  let j := c / 16
  let p := c % 16
  let v (q : Nat) : Int := 160 * s.cellCode x (16 * j + q)
  let rest (q : Nat) : Int := (List.range 16).foldl (fun a k => if k = q then a else a + v k) 0
  let coarse : Int := 25000 * s.half (Reg.BDS_COARSE 0) (15 * x.val + j)
  if p = 0 ∧ s.wireOut x j 0 then coarse - rest 0
  else if p = 15 ∧ s.wireOut x j 16 then coarse - rest 15
  else if 1 ≤ p ∧ s.wireOut x j p then (v (p - 1) + v p) / 2
  else if p < 15 ∧ s.wireOut x j (p + 1) then (v p + v (p + 1)) / 2
  else v p

/-- A voltage in half microvolt against an FP32 threshold in V. -/
def uvAbove (v : Int) (lim : Nat) : Bool := ((f32 lim).mul (Fv.ofNat 2000000)).lt (Fv.ofInt v)
def uvBelow (v : Int) (lim : Nat) : Bool := (Fv.ofInt v).lt ((f32 lim).mul (Fv.ofNat 2000000))

/-- A voltage in half microvolt as FP32 V. -/
def uvCode (v : Int) : Nat := rn32 ((Fv.ofInt v).div (Fv.ofNat 2000000))

/-- A reading of a cell against the conditions of R257: 0 OV warning, 1 OV trip, 2 UV warning, 3 UV trip, 4 pair sum. -/
def State.cellCond (s : State) (x : Fin 2) (c k : Nat) : Bool :=
  let v := s.cellHalfUv x c
  match k with
  | 0 => uvAbove v (s.reg Reg.BDS_LIM_OV_WARN)
  | 1 => uvAbove v (s.reg Reg.BDS_LIM_OV_TRIP)
  | 2 => uvBelow v (s.reg Reg.BDS_LIM_UV_WARN)
  | 3 => uvBelow v (s.reg Reg.BDS_LIM_UV_TRIP)
  | _ => c % 16 < 15 && s.wireOut x (c / 16) (c % 16 + 1) && (decide (5700000 < v) || decide (v < 3500000))

/-- The temperature of an input in 1/16 degree, signed. -/
def State.tempAt (s : State) (x : Fin 2) (q : Nat) : Int := sext 16 (s.half (Reg.BDS_TEMP 0) (120 * x.val + q))

/-- A temperature in 1/16 degree against an FP32 threshold, shifted by whole degrees. -/
def tAbove (v : Int) (lim : Nat) (shift : Int) : Bool := (((f32 lim).add (Fv.ofInt shift)).mul (Fv.ofNat 16)).lt (Fv.ofInt v)
def tBelow (v : Int) (lim : Nat) (shift : Int) : Bool := (Fv.ofInt v).lt (((f32 lim).add (Fv.ofInt shift)).mul (Fv.ofNat 16))

/-- A reading of a temperature input against the conditions of R257: 5 warning, 6 trip, 7 cold, 8 outside -40 to 125 degrees,
9 inside it. -/
def State.tempCond (s : State) (x : Fin 2) (q k : Nat) : Bool :=
  let v := s.tempAt x q
  let inside := decide (-640 ≤ v) && decide (v ≤ 2000)
  match k with
  | 5 => inside && tAbove v (s.reg Reg.BDS_LIM_T_WARN) 0
  | 6 => inside && tAbove v (s.reg Reg.BDS_LIM_T_TRIP) 0
  | 7 => inside && tBelow v (s.reg Reg.BDS_LIM_T_COLD) 0
  | 8 => !inside
  | _ => inside

/-- Consecutive readings that met a condition. -/
def State.runLen (s : State) (x : Fin 2) (k i : Nat) : Nat :=
  let l : LoopSt := s.loop[x]
  (sparseFind l.runs (k * 256 + i)).getD 0

/-- Count a reading for or against a condition. -/
def State.countRun (s : State) (x : Fin 2) (k i : Nat) (b : Bool) : State :=
  let key := k * 256 + i
  let n := if b then min 255 (s.runLen x k i + 1) else 0
  s.updLoop x (fun l => { l with runs := if n = 0 then sparseErase l.runs key else sparseIns (sparseErase l.runs key) key n })

/-! ## Replies (R245, R248, R249) -/

/-- Show the warnings of a string that bring the LIMIT row (R257) in BDS_TRIP_STS [6] and [14]. -/
def State.refreshWarn (s : State) (x : Fin 2) : State :=
  let l : LoopSt := s.loop[x]
  let cells := (List.range 240).any (fun c => s.cellFlag x c 4 || s.cellFlag x c 5)
  let blind := (List.range 15).any (fun j => (List.range 8).all (fun q => l.tempFault.contains (8 * j + q)))
  s.setBit Reg.BDS_TRIP_STS (8 * x.val + 6) (cells || !l.warnTemps.isEmpty || blind)

/-- The 240 fine readings of a string, in 80 microvolt. -/
def State.sumCodes (s : State) (x : Fin 2) : Nat := (List.range 240).foldl (fun a c => a + s.cellCode x c) 0

/-- STRING_SUM_CHECK (R248): once every Bead's readings of both parities are in; skipped with a cell excluded or tainted. -/
def State.sumCheck (s : State) (x : Fin 2) : State :=
  let l : LoopSt := s.loop[x]
  if l.got.length < 30 then s else
  let s := s.updLoop x (fun l => { l with got := [] })
  if (List.range 240).any (fun c => s.cellFlag x c 0 || s.cellFlag x c 1 || s.cellFlag x c 2) then s else
  let sum := (Fv.ofNat (s.sumCodes x)).div (Fv.ofNat 12500)
  let d := ((Fv.ofNat (s.sumCodes x)).sub ((f32 (s.reg (Reg.HVS_VSTR x))).mul (Fv.ofNat 12500))).abs
  let bad := ((f32 (s.reg Reg.HVS_SUM_TOL)).mul (Fv.ofNat 12500)).lt d || !sum.isFin
  let s := s.updLoop x (fun l => if bad then { l with sumBad := l.sumBad + 1, sumGood := 0 }
    else { l with sumBad := 0, sumGood := l.sumGood + 1 })
  if 10 ≤ (s.loop[x]).sumGood then s.setBit Reg.HVS_STS (1 + x.val) false else s

/-- The fields of a reply frame. -/
def rpl (f : BitVec 176) (lo w : Nat) : Nat := fieldOf f.toNat lo w

/-- Is a reply's CRC right: CRC-16 over bits [159:0]? -/
def replyCrcOk (f : BitVec 176) : Bool := (crc16 (leBytes 20 (f.toNat % 2 ^ 160))).toNat = rpl f 160 16

/-- Does a Bead's fine sum stand below its coarse reading by more than 80 mV (R249)? -/
def State.plausLow (s : State) (x : Fin 2) (j : Nat) : Bool :=
  let sum := (List.range 16).foldl (fun a p => a + 80 * s.cellCode x (16 * j + p)) 0
  sum < 12500 * s.half (Reg.BDS_COARSE 0) (15 * x.val + j)

/-- The slow field of a reply (R245). -/
def State.replySlow (s : State) (x : Fin 2) (j : Fin 15) (i v : Nat) : State :=
  if i = 0 then s.setHalf (Reg.BDS_COARSE 0) (15 * x.val + j.val) (v % 4096)
  else if i ≤ 8 then
    let q := 8 * j.val + (i - 1)
    let s := s.setHalf (Reg.BDS_TEMP 0) (120 * x.val + q) v
    let out := (s.loop[x]).tempFault.contains q
    s.forAll [5, 6, 7, 8, 9] (fun s k => s.countRun x k q (s.tempCond x q k && (8 ≤ k || !out)))
  else if i = 9 then s.updBead x j (fun b => { b with dieTemp := v % 256, diag := v / 256 })
  else s

/-- A reply frame arrives (R245): counted where its CRC fails; else its readings are stored and judged. -/
def execBeadReplyRx (t : Nat) (xs : Str) (f : BitVec 176) (s : State) : Host.Outcome State Fault Refusal :=
  run t s fun s =>
    let x := strNum xs
    if !s.pulseUp || s.ship then s
    else if !replyCrcOk f then s.inc Reg.BDS_CRC_ERR
    else if 15 ≤ rpl f 0 4 then s
    else
      let j := beadOf (rpl f 0 4)
      let par := rpl f 4 1
      let b := s.bead x j
      let s := s.forAll (List.range 8) (fun s k =>
        let c := 16 * j.val + 2 * k + par
        (s.setHalf (Reg.BDS_CELL_V 0) (240 * x.val + c) (rpl f (16 + 16 * k) 16)).setCellFlag x c 3 false)
      let s := s.replySlow x j (rpl f 5 4) (rpl f 144 16)
      let s := s.forAll (List.range 8) (fun s k =>
        let c := 16 * j.val + 2 * k + par
        s.forAll [0, 1, 2, 3, 4] (fun s i => s.countRun x i c (s.cellCond x c i)))
      let plaus := rpl f 9 1 = 1
      let low := s.plausLow x j.val
      let s := s.updBead x j (fun y => { y with
        awake := true, reach := true, lastReply := s.now, thermal := rpl f 12 1 = 1,
        mismatchRun := if rpl f 10 1 = 1 ∧ b.force = 0#16 then b.mismatchRun + 1 else 0,
        plausRun := if plaus then b.plausRun + 1 else 0, plausSign := plaus && low })
      let key := 2 * j.val + par
      let s := s.updLoop x (fun l => { l with got := if l.got.contains key then l.got else l.got ++ [key] })
      s.sumCheck x

/-- A string-sum mismatch of 10 cycles (R257): the LIMIT row and STRING_SUM. -/
def execStringSumMismatch (t : Nat) (xs : Str) (s : State) : Host.Outcome State Fault Refusal :=
  run t s fun s =>
    let x := strNum xs
    if 10 ≤ (s.loop[x]).sumBad ∧ !s.bit Reg.HVS_STS (1 + x.val) then
      (s.setBit Reg.HVS_STS (1 + x.val) true).post 0x110 sevWarn 0x0054 x.val 0
        (rn32 ((Fv.ofNat (s.sumCodes x)).div (Fv.ofNat 12500))) (s.reg (Reg.HVS_VSTR x)) 0
    else s

/-! ## Hops and cadence (R243, R244) -/

/-- Show a loop's state and break (R278): CLOSED, BROKEN or LOST. -/
def State.showLoop (s : State) (x : Fin 2) : State :=
  let l : LoopSt := s.loop[x]
  let st := if l.hopFailed.length = 0 then 0 else if l.hopFailed.length = 1 then 1 else 2
  (s.setFld Reg.BDS_STS (2 * x.val) 2 st).setFld Reg.BDS_STS (9 + 4 * x.val) 4 (l.hopFailed.headD 0)

/-- A hop has failed in 3 consecutive cycles (R243). -/
def execHopFail (t : Nat) (xs : Str) (h : Fin 16) (s : State) : Host.Outcome State Fault Refusal :=
  run t s fun s =>
    let x := strNum xs
    let l : LoopSt := s.loop[x]
    if !s.pulseUp || l.hopFailed.contains h.val then s else
    (s.updLoop x (fun l => { l with hopFailed := insertNat l.hopFailed h.val, hopGood := sparseErase l.hopGood h.val })).showLoop x

/-- A failed hop is probed (R243). -/
def execHopProbe (t : Nat) (xs : Str) (h : Fin 16) (ok : Bool) (s : State) : Host.Outcome State Fault Refusal :=
  run t s fun s =>
    let x := strNum xs
    let l : LoopSt := s.loop[x]
    if !s.beadTx || !l.hopFailed.contains h.val then s else
    let n := if ok then min 100 ((sparseFind l.hopGood h.val).getD 0 + 1) else 0
    s.updLoop x (fun l => { l with hopGood := sparseIns (sparseErase l.hopGood h.val) h.val n })

/-- After 100 good probes a hop is back, from a plan-frame boundary on (R243). -/
def execLoopCloseRestore (t : Nat) (xs : Str) (s : State) : Host.Outcome State Fault Refusal :=
  run t s fun s =>
    let x := strNum xs
    if s.now % 1000000 = 0 then
      (s.updLoop x (fun l => { l with
        hopFailed := l.hopFailed.filter (fun h => (sparseFind l.hopGood h).getD 0 < 100) })).showLoop x
    else s

/-- The cadence at a control-frame boundary (R244): a current above BDS_RATE_I asks for fast cadence; else it begins or goes on to
be low. -/
def State.cadenceTrack (s : State) : State :=
  s.forAll [(0 : Fin 2), 1] (fun s x =>
    let hi := s.above (abs32 (s.reg (Reg.HVS_ISTR x))) Reg.BDS_RATE_I
    let slow := !s.bit Reg.BDS_STS (4 + x.val)
    let now := s.now
    s.updLoop x (fun l => if hi then { l with lowSince := none, fastDue := slow } else
      { l with lowSince := some (l.lowSince.getD now) }))

/-- CADENCE_FAST (R244): at a plan-frame boundary; a parked string stays slow (R268). -/
def State.cadenceFast (s : State) : State :=
  s.forAll [(0 : Fin 2), 1] (fun s x =>
    if (s.loop[x]).fastDue then
      (s.setBit Reg.BDS_STS (4 + x.val) (!s.parked x.val)).updLoop x (fun l => { l with fastDue := false })
    else s)

/-- The current has stayed at or below BDS_RATE_I for 1 s: slow cadence (R244). -/
def execCadenceSlow (t : Nat) (xs : Str) (s : State) : Host.Outcome State Fault Refusal :=
  run t s fun s =>
    let x := strNum xs
    match (s.loop[x]).lowSince with
    | some b => if b + 1000000000 ≤ s.now then s.setBit Reg.BDS_STS (4 + x.val) false else s
    | none => s

/-- A cell without a reading for 10 ms is STALE (R278). -/
def State.markStale (s : State) : State :=
  s.forAll [(0 : Fin 2), 1] (fun s x => s.forAll allBeads (fun s j =>
    let b := s.bead x j
    if b.awake ∧ b.lastReply + 10000000 ≤ s.now ∧ s.now < b.lastReply + 11000000 then
      s.forAll (List.range 16) (fun s p => s.setCellFlag x (16 * j.val + p) 3 true)
    else s))

/-! ## Cell trips (R257) -/

/-- A cell trip of a string: latched in BDS_TRIP_STS, bricks to FAULT, contactor to open, PROT_TRIP and report. -/
def State.cellTrip (s : State) (x : Fin 2) (bit ctcCause cond index value : Nat) : State :=
  let s := s.setBit Reg.BDS_TRIP_STS (8 * x.val + bit) true
  (s.stringTrip x (16 + x.val) 9 ctcCause).protTrip 0x10F cond x.val index value

/-- Is a cell trip of a string latched? -/
def State.cellLatched (s : State) (x : Fin 2) (bit : Nat) : Bool := s.bit Reg.BDS_TRIP_STS (8 * x.val + bit)

/-- A trip on two consecutive readings of a cell. -/
def State.cellRule (s : State) (x : Fin 2) (c k bit cond : Nat) : State :=
  if 2 ≤ s.runLen x k c ∧ !s.cellLatched x bit ∧ !s.ship then s.cellTrip x bit 4 cond c (uvCode (s.cellHalfUv x c)) else s

/-- A warning on two consecutive readings of a cell. -/
def State.cellWarn (s : State) (x : Fin 2) (c k flag : Nat) : State :=
  if 2 ≤ s.runLen x k c ∧ !s.ship then (s.setCellFlag x c flag true).refreshWarn x else s

/-- Cell overvoltage warning (R257). -/
def execCellOvWarn (t : Nat) (x : Str) (c : Fin 240) (s : State) : Host.Outcome State Fault Refusal :=
  run t s fun s => s.cellWarn (strNum x) c 0 4

/-- Cell overvoltage trip (R257). -/
def execCellOvTrip (t : Nat) (x : Str) (c : Fin 240) (s : State) : Host.Outcome State Fault Refusal :=
  run t s fun s => s.cellRule (strNum x) c 1 0 0x09

/-- Cell undervoltage warning (R257). -/
def execCellUvWarn (t : Nat) (x : Str) (c : Fin 240) (s : State) : Host.Outcome State Fault Refusal :=
  run t s fun s => s.cellWarn (strNum x) c 2 5

/-- Cell undervoltage trip (R257). -/
def execCellUvTrip (t : Nat) (x : Str) (c : Fin 240) (s : State) : Host.Outcome State Fault Refusal :=
  run t s fun s => s.cellRule (strNum x) c 3 1 0x0A

/-- Pair-sum limit (R256, R257): across an open interior wire, the lower cell named. -/
def execPairSumTrip (t : Nat) (xs : Str) (c : Fin 240) (s : State) : Host.Outcome State Fault Refusal :=
  run t s fun s =>
    let x := strNum xs
    if 2 ≤ s.runLen x 4 c ∧ !s.cellLatched x 2 ∧ !s.ship then
      s.cellTrip x 2 4 0x0B c (uvCode (160 * (s.cellCode x c : Int) + 160 * s.cellCode x (c + 1)))
    else s

/-- Temperature warning (R257). -/
def execTempWarn (t : Nat) (xs : Str) (q : Fin 120) (s : State) : Host.Outcome State Fault Refusal :=
  run t s fun s =>
    let x := strNum xs
    if 2 ≤ s.runLen x 5 q ∧ !s.ship then (s.updLoop x (fun l => { l with warnTemps := insertNat l.warnTemps q.val })).refreshWarn x
    else s

/-- Temperature trip (R257). -/
def execTempTrip (t : Nat) (xs : Str) (q : Fin 120) (s : State) : Host.Outcome State Fault Refusal :=
  run t s fun s =>
    let x := strNum xs
    if 2 ≤ s.runLen x 6 q ∧ !s.cellLatched x 3 ∧ !s.ship then
      s.cellTrip x 3 4 0x0C q (rn32 ((Fv.ofInt (s.tempAt x q)).div (Fv.ofNat 16)))
    else s

/-- Cold charge (R257): the string's charge limit is 0. -/
def execColdCharge (t : Nat) (xs : Str) (q : Fin 120) (s : State) : Host.Outcome State Fault Refusal :=
  run t s fun s =>
    let x := strNum xs
    if 1 ≤ s.runLen x 7 q ∧ !s.ship then s.updLoop x (fun l => { l with coldInputs := insertNat l.coldInputs q.val }) else s

/-- A temperature input out of range for 10 readings is excluded (R257). -/
def execTempInputFault (t : Nat) (xs : Str) (q : Fin 120) (s : State) : Host.Outcome State Fault Refusal :=
  run t s fun s =>
    let x := strNum xs
    if 10 ≤ s.runLen x 8 q ∧ !s.ship then
      (s.updLoop x (fun l => { l with tempFault := insertNat l.tempFault q.val })).refreshWarn x
    else s

/-- A list without a number. -/
def dropNat (l : List Nat) (a : Nat) : List Nat := l.filter (fun k => !(k = a))

/-- A warning of R257 recovers once its level has been held: 0.03 V inside for 100 ms, 3 degrees for 10 s, 2 degrees, or 10
valid readings. -/
def execCellWarnRecover (t : Nat) (xs : Str) (k : CellWarn) (i : Fin 240) (heldNs : Nat) (s : State) :
    Host.Outcome State Fault Refusal :=
  run t s fun s =>
    let x := strNum xs
    let margin := (Fv.ofNat 3).div (Fv.ofNat 100)
    let v := s.cellHalfUv x i
    match k with
    | .overvoltage =>
      if uvBelow v (rn32 ((f32 (s.reg Reg.BDS_LIM_OV_WARN)).sub margin)) && decide (100000000 ≤ heldNs) then
        (s.setCellFlag x i 4 false).refreshWarn x
      else s
    | .undervoltage =>
      if uvAbove v (rn32 ((f32 (s.reg Reg.BDS_LIM_UV_WARN)).add margin)) && decide (100000000 ≤ heldNs) then
        (s.setCellFlag x i 5 false).refreshWarn x
      else s
    | .temperature =>
      if tBelow (s.tempAt x i) (s.reg Reg.BDS_LIM_T_WARN) (-3) && decide (10000000000 ≤ heldNs) then
        (s.updLoop x (fun l => { l with warnTemps := dropNat l.warnTemps i.val })).refreshWarn x
      else s
    | .cold =>
      if tAbove (s.tempAt x i) (s.reg Reg.BDS_LIM_T_COLD) 2 then
        s.updLoop x (fun l => { l with coldInputs := dropNat l.coldInputs i.val })
      else s
    | .input =>
      if 10 ≤ s.runLen x 9 i then (s.updLoop x (fun l => { l with tempFault := dropNat l.tempFault i.val })).refreshWarn x else s

/-- Bead loss (R243): no valid reply for 50 ms. -/
def execBeadLoss (t : Nat) (xs : Str) (j : Fin 15) (s : State) : Host.Outcome State Fault Refusal :=
  run t s fun s =>
    let x := strNum xs
    let b := s.bead x j
    if b.awake ∧ b.lastReply + 50000000 ≤ s.now ∧ !s.ship ∧ !s.cellLatched x 4 then
      (s.updBead x j (fun y => { y with reach := false })).cellTrip x 4 5 0x0D j.val 0
    else s

/-- BAL_MISMATCH in 3 consecutive cycles without a FORCE is a switch fault, treated as a Bead loss (R252). -/
def execBeadSwitchFault (t : Nat) (xs : Str) (j : Fin 15) (s : State) : Host.Outcome State Fault Refusal :=
  run t s fun s =>
    let x := strNum xs
    if 3 ≤ (s.bead x j).mismatchRun ∧ !s.ship ∧ !s.cellLatched x 4 then s.cellTrip x 4 5 0x0D j.val 0 else s

/-- Has the condition of a latched cell trip gone? A short is judged anew by the next deviation. -/
def State.cellTripGone (s : State) (x : Fin 2) (bit : Nat) : Bool :=
  match bit with
  | 0 => (List.range 240).all (fun c => !s.cellCond x c 1)
  | 1 => (List.range 240).all (fun c => !s.cellCond x c 3)
  | 2 => (List.range 240).all (fun c => !s.cellCond x c 4)
  | 3 => (List.range 120).all (fun q => !s.tempCond x q 6 || (s.loop[x]).tempFault.contains q)
  | 4 => allBeads.all (fun j => decide (s.now < (s.bead x j).lastReply + 50000000) && decide ((s.bead x j).mismatchRun < 3))
  | _ => true

/-- BDS_CLR on a string (R232, R257, R261). -/
def State.bdsClear (s : State) (x : Fin 2) : State :=
  let s := s.forAll (List.range 6) (fun s k =>
    if s.cellLatched x k && s.cellTripGone x k then s.setBit Reg.BDS_TRIP_STS (8 * x.val + k) false else s)
  if (List.range 6).any (s.cellLatched x) then s else (s.untripBricks (16 + x.val)).ctcRelease x [4, 5, 6]

/-! ## Balance requests and FORCE (R250, R251) -/

/-- What a write of a word of BDS_BAL_REQ does: the age starts again (R250). -/
def balReqEff (s : State) (_ : Nat) : State :=
  s.forAll [(0 : Fin 2), 1] (fun s x => s.updLoop x (fun l => { l with balWritten := s.now }))

/-- A word of BDS_BAL_REQ is written (R250). -/
def execBdsBalReqWrite (t : Nat) (w : Writer) (i : Fin 15) (v : Word) (s : State) : Host.Outcome State Fault Refusal :=
  run t s fun s => s.ownWrite w (Reg.BDS_BAL_REQ i) v.toNat anyValue balReqEff

/-- BDS_BAL_REQ has not been written for 10 s: empty masks (R250). -/
def execBalReqLapse (t : Nat) (s : State) : Host.Outcome State Fault Refusal :=
  run t s fun s =>
    if (s.loop[0]).balWritten + 10000000000 ≤ s.now then
      s.forAll [(0 : Fin 2), 1] (fun s x => s.forAll allBeads (fun s j => s.updBead x j (fun b => { b with bal := 0#16 })))
    else s

/-- String and Bead of a value of BDS_BAL_FORCE. -/
def forceStr (v : Nat) : Fin 2 := ⟨v % 2, Nat.mod_lt _ (by decide)⟩

/-- May BDS_BAL_FORCE be written so? -/
def balForceOk (s : State) (v : Nat) : Bool := s.forceOk (forceStr v) && decide (fieldOf v 1 4 < 15)

/-- What a write of BDS_BAL_FORCE does: FORCE is sent. -/
def balForceEff (s : State) (v : Nat) : State :=
  if s.beadTx then s.beadForce (forceStr v) (beadOf (fieldOf v 1 4)) (fieldOf v 16 16) else s

/-- A write of BDS_BAL_FORCE sends FORCE, or is rejected (R251). -/
def execBdsBalForceWrite (t : Nat) (w : Writer) (v : Word) (s : State) : Host.Outcome State Fault Refusal :=
  run t s fun s => s.ownWrite w Reg.BDS_BAL_FORCE v.toNat balForceOk balForceEff

/-! ## Sense wires and shorts (R253 to R256) -/

/-- A verdict (R256): shown, posted with its evidence, and its action. Codes of BDS_CLASS: 1 WIRE_OPEN, 2 CELL_SHORT, 3
COARSE_FAULT, 4 UNRESOLVED. -/
def State.verdict (s : State) (x : Fin 2) (code j k evid : Nat) : State :=
  let s := s.setReg (if x.val = 0 then Reg.BDS_CLASS_A else Reg.BDS_CLASS_B) (code + 8 * j + 128 * k)
  let s := s.post 0x10F sevWarn 0x0061 x.val code j k evid
  match code with
  | 1 =>
    (s.flagWire x j k 2 true).updLoop x (fun l => { l with
      openWires := if l.openWires.contains (j, k) then l.openWires else l.openWires ++ [(j, k)],
      unresolved := l.unresolved.filter (fun e => !(e.1 = j && e.2.1 = k)) })
  | 2 => if s.cellLatched x 5 then s else s.cellTrip x 5 6 0x0E (16 * j + k) evid
  | 3 => s.updLoop x (fun l => { l with coarseBad := insertNat l.coarseBad j })
  | 4 =>
    (s.flagWire x j k 2 true).updLoop x (fun l => { l with
      unresolved := (l.unresolved.filter (fun e => !(e.1 = j && e.2.1 = k))) ++ [(j, (k, s.now + 60000000000))] })
  | _ => s

/-- Ask for an open-wire test: evidence 0 firmware, 1 to 4 the rows of R254 (with 8 p, and 128 for the second wire of row 4,
256 where its first test was inconclusive), 7 a retest. -/
def State.owtAsk (s : State) (x : Fin 2) (j w ev evid : Nat) : State :=
  (s.updLoop x (fun l => { l with owt := some (j, (w, (0, ev))), evid := evid })).setReg Reg.BDS_OWT_RES 1

/-- The classification of R254 on a Bead's deviations d in microvolt, with the current settled: the first row that applies. -/
def State.classify (s : State) (x : Fin 2) (j : Fin 15) (d : List Int) : State :=
  let b := s.bead x j
  let at' (p : Nat) : Int := d.getD p 0
  let dev := (f32 (s.reg Reg.BDS_SW_DEV)).mul (Fv.ofNat 1000000)
  let out (p : Nat) : Bool := !s.cellFlag x (16 * j.val + p) 0 && !s.cellFlag x (16 * j.val + p) 1 && !s.cellFlag x (16 * j.val + p) 2
  let low (p : Nat) : Bool := out p && (Fv.ofInt (at' p)).le dev.neg
  let high (p : Nat) : Bool := out p && dev.le (Fv.ofInt (at' p))
  let beyond (p : Nat) : Bool := low p || high p
  let near (p : Nat) : Bool := (at' p).natAbs ≤ 10000
  let most := (List.range 16).foldl (fun a p => if a < (at' p).natAbs && out p then (at' p).natAbs else a) 0
  let ev := rn32 ((Fv.ofNat most).div (Fv.ofNat 1000000))
  let plaus := 0 < b.plausRun && !(s.loop[x]).coarseBad.contains j.val
  let r1 := (List.range 16).find? (fun k => 1 ≤ k && low (k - 1) && high k && decide ((at' (k - 1) + at' k).natAbs ≤ 10000))
  let r4 := (List.range 16).find? (fun p => low p && (p = 0 || near (p - 1)) && (p = 15 || near (p + 1)))
  match r1 with
  | some k => if !plaus then s.owtAsk x j k 1 ev else
      if low 0 && b.plausSign then s.owtAsk x j 0 2 ev else if low 15 && b.plausSign then s.owtAsk x j 16 3 ev
      else s.verdict x 4 j k ev
  | none =>
    if low 0 && plaus && b.plausSign then s.owtAsk x j 0 2 ev
    else if low 15 && plaus && b.plausSign then s.owtAsk x j 16 3 ev
    else
      match (if plaus then none else r4) with
      | some p => s.owtAsk x j p (4 + 8 * p) ev
      | none =>
        match (List.range 16).find? beyond with
        | none => if plaus && decide (10 ≤ b.plausRun) then s.verdict x 3 j 0 ev else s
        | some p => s.verdict x 4 j p ev

/-- The deviations of a Bead are evaluated (R254); a test in progress on the string comes first. -/
def execDeviationEval (t : Nat) (xs : Str) (j : Fin 15) (d : List Int) (s : State) : Host.Outcome State Fault Refusal :=
  run t s fun s =>
    let x := strNum xs
    let l : LoopSt := s.loop[x]
    if !s.pulseUp || s.ship || l.owt.isSome then s else s.classify x j d

/-- String, Bead and wire of BDS_OWT. -/
def State.owtReq (s : State) : Fin 2 × Nat × Nat := (forceStr (s.reg Reg.BDS_OWT), s.fld Reg.BDS_OWT 1 4, s.fld Reg.BDS_OWT 5 5)

/-- May a test be requested: a wire that exists, no test running on the string (R255)? -/
def State.owtGoOk (s : State) : Bool :=
  let r := s.owtReq
  let l : LoopSt := s.loop[r.1]
  l.owt.isNone && decide (r.2.1 < 15) && decide (r.2.2 ≤ 16)

/-- What a write of BDS_CTL does: OWT_GO, then BDS_CLR. -/
def bdsCtlEff (s : State) (v : Nat) : State :=
  let r := s.owtReq
  let s := if bitOf v 1 then s.owtAsk r.1 r.2.1 r.2.2 0 0 else s
  if bitOf v 2 then (s.bdsClear 0).bdsClear 1 else s

/-- May a write of BDS_CTL be taken? -/
def bdsCtlOk (s : State) (v : Nat) : Bool := !bitOf v 1 || s.owtGoOk

/-- BDS_CTL.OWT_GO (R255), BAL_EN kept. -/
def execBdsOwtGo (t : Nat) (w : Writer) (s : State) : Host.Outcome State Fault Refusal :=
  run t s fun s => s.ownWrite w Reg.BDS_CTL (2 + s.fld Reg.BDS_CTL 0 1) bdsCtlOk bdsCtlEff

/-- BDS_CTL.BDS_CLR (R257), BAL_EN kept. -/
def execBdsClr (t : Nat) (w : Writer) (s : State) : Host.Outcome State Fault Refusal :=
  run t s fun s => s.ownWrite w Reg.BDS_CTL (4 + s.fld Reg.BDS_CTL 0 1) bdsCtlOk bdsCtlEff

/-- Show a test's result (R278): 2 intact, 3 open, [2] inconclusive, and the move in mV. -/
def State.owtShow (s : State) (moveUv : Nat) : State :=
  let r := if moveUv ≤ 20000 then 2 else if 300000 ≤ moveUv then 3 else 4
  s.setReg Reg.BDS_OWT_RES (r + 65536 * min 65535 (moveUv / 1000))

/-- What a finished test leads to (R254, R256), by what asked for it. -/
def State.owtJudge (s : State) (x : Fin 2) (j w ev moveUv : Nat) : State :=
  let intact := moveUv ≤ 20000
  let open' := 300000 ≤ moveUv
  let mv := rn32 ((Fv.ofNat moveUv).div (Fv.ofNat 1000000))
  let row := ev % 8
  let p := ev / 8 % 16
  let dv := (s.loop[x]).evid
  if row = 0 then
    if intact then
      (s.flagWire x j w 2 false).updLoop x (fun l => { l with
        openWires := l.openWires.filter (fun e => !(e.1 = j && e.2 = w)) })
    else s
  else if open' then s.verdict x 1 j w mv
  else if row = 4 then
    if ev / 128 = 0 then s.owtAsk x j (p + 1) (ev + 128 + (if intact then 0 else 256)) dv
    else if intact && ev / 256 = 0 then s.verdict x 2 j p dv
    else s.verdict x 4 j p mv
  else if row = 7 then s
  else s.verdict x 4 j w mv

/-- After 4 test cycles and 2 ignored ones the wire is judged (R255). -/
def execOwtResult (t : Nat) (xs : Str) (moveUv : Nat) (s : State) : Host.Outcome State Fault Refusal :=
  run t s fun s =>
    let x := strNum xs
    let l : LoopSt := s.loop[x]
    match l.owt with
    | some (j, (w, (c0, ev))) =>
      if c0 ≠ 0 ∧ c0 + 6 ≤ l.cycle then
        let s := (s.flagWire x j w 1 false).owtShow moveUv
        (s.updLoop x (fun l => { l with owt := none })).owtJudge x j w ev moveUv
      else s
    | none => s

/-- The first unresolved wire whose retest is due. -/
def dueRetest (l : LoopSt) (now : Nat) : Option (Nat × (Nat × Nat)) := l.unresolved.find? (fun e => decide (e.2.2 ≤ now))

/-- An UNRESOLVED test repeats every 60 s (R256). -/
def execUnresolvedRetest (t : Nat) (xs : Str) (s : State) : Host.Outcome State Fault Refusal :=
  run t s fun s =>
    let x := strNum xs
    let l : LoopSt := s.loop[x]
    match (if l.owt.isSome then none else dueRetest l s.now) with
    | none => s
    | some (j, (w, due)) =>
      let next := l.unresolved.map (fun e => if e.1 = j && e.2.1 = w then (j, (w, due + 60000000000)) else e)
      let s := s.updLoop x (fun l => { l with unresolved := next })
      s.owtAsk x j w 7 0

end Sys2Proof.Machine
end

