-- ==== Sys2Proof/Machine/Contactors.lean ====
section
/-!
DEFINITION. Contactors and precharge (R258 to R261, R276), the estimators' frame, rest windows and excitation (R264 to R271), and
ship mode (R274, R275).
-/
namespace Sys2Proof.Machine

/-! ## Closing (R259) -/

/-- Do all Beads of a string reply? -/
def State.beadsReply (s : State) (x : Fin 2) : Bool :=
  !s.cellLatched x 4 && allBeads.all (fun j => (s.bead x j).awake && (s.bead x j).reach)

/-- Is a trip latched that concerns a string? -/
def State.tripFor (s : State) (x : Fin 2) : Bool :=
  s.bit Reg.PRT_STS 8 || s.bit Reg.PRT_STS 9 || s.bit Reg.PRT_STS (10 + x.val) || s.bit Reg.PRT_STS (12 + x.val) ||
  (List.range 6).any (s.cellLatched x)

/-- The first condition of a close that fails, in the codes of CLOSE_REFUSED; 0 where all hold. -/
def State.closeFails (s : State) (x : Fin 2) : Nat :=
  if !s.beadsReply x then 1 else if s.tripFor x then 2 else if s.ship then 3
  else if !(bricksOf x).all (fun b => s.bst b = stOff) then 4 else 0

/-- The other string. -/
def other (x : Fin 2) : Fin 2 := if x = 0 then 1 else 0

/-- The voltage-mode channel that precharges a string. -/
def preVm (x : Fin 2) : Fin 4 := ⟨x.val, by omega⟩

/-- A close begins: STARTING and the precharge coil; it waits while the other string precharges (R261). -/
def State.closeStart (s : State) (x : Fin 2) : State :=
  if s.ctcState (other x) = stStarting then s.updCtc x (fun c => { c with waiting := true })
  else ((s.setCtc x stStarting).preCoil x true).updCtc x (fun c => { c with waiting := false, runFrame := none, leaving := false })

/-- A close that is due without a write: it begins, or CLOSE_REFUSED is posted (R258, R259). -/
def State.closeOrRefuse (s : State) (x : Fin 2) : State :=
  let k := s.closeFails x
  if k = 0 then s.closeStart x
  else (s.updCtc x (fun c => { c with waiting := false })).post 0x10E sevWarn 0x0056 x.val k 0 0 0

/-- An open begins (R260): at once before the main feedback has closed, else at the next plan-frame boundary. -/
def State.openStart (s : State) (x : Fin 2) : State :=
  let s := s.setCtc x stStopping
  if s.bit (Reg.CTC_STS x) 6 then s.updCtc x (fun c => { c with leaving := true, restAt := none, runFrame := none, bricksOff := none })
  else
    let s := ((s.mainCoil x false).preCoil x false).vmSetEnable (preVm x) false
    s.updCtc x (fun c => { c with runFrame := none, leaving := false, bricksOff := none })

/-- Has the cause of a contactor block's FAULT gone, with both feedbacks open (R276)? -/
def State.ctcGone (s : State) (x : Fin 2) : Bool :=
  s.fbOpen x &&
  match s.fld (Reg.CTC_STS x) 16 8 with
  | 1 => !s.fbDiffers x false && !s.fbDiffers x true
  | 2 => true
  | 3 => !s.tripHolds (10 + x.val)
  | _ => (List.range 6).all (fun k => !s.cellLatched x k || s.cellTripGone x k)

/-- May a write of CTC_CTL be taken (R234, R235, R259, R276)? -/
def ctcCtlOk (x : Fin 2) (s : State) (v : Nat) : Bool :=
  let st := s.ctcState x
  let clr := bitOf v 1
  let en := bitOf v 0
  if st = stFault then (if clr then s.ctcGone x && (!en || !s.drives || s.closeFails x = 0) else !en)
  else if st = stOff && en && s.drives then s.closeFails x = 0
  else true

/-- Return a contactor block from FAULT to OFF. -/
def State.ctcClear (s : State) (x : Fin 2) : State :=
  if s.ctcState x = stFault then (s.setCtc x stOff).setFld (Reg.CTC_STS x) 16 8 0 else s

/-- ENABLE of a contactor block by the table of R234. -/
def State.ctcEnable (s : State) (x : Fin 2) (on : Bool) : State :=
  let st := s.ctcState x
  if on then
    if st = stOff then (if s.drives then s.closeStart x else s)
    else if st = stStopping then s.setBit (Reg.CTC_STS x) 4 true else s
  else if st = stStopping then s.setBit (Reg.CTC_STS x) 4 false
  else if st = stStarting ∨ st = stRunning ∨ st = stHold then s.openStart x
  else s.updCtc x (fun c => { c with waiting := false })

/-- What a write of CTC_CTL does: CLEAR first, then ENABLE (R234). -/
def ctcCtlEff (x : Fin 2) (s : State) (v : Nat) : State :=
  let s := if bitOf v 1 then s.ctcClear x else s
  s.ctcEnable x (bitOf v 0)

/-- A write of CTC_CTL that sets or clears ENABLE (R258 to R260). -/
def execCtcEnable (t : Nat) (w : Writer) (x : Str) (v : Word) (s : State) : Host.Outcome State Fault Refusal :=
  run t s fun s => s.ownWrite w (Reg.CTC_CTL (strNum x)) v.toNat (ctcCtlOk (strNum x)) (ctcCtlEff (strNum x))

/-- A write of CTC_CTL that sets CLEAR (R276). -/
def execCtcClear (t : Nat) (w : Writer) (x : Str) (v : Word) (s : State) : Host.Outcome State Fault Refusal :=
  run t s fun s => s.ownWrite w (Reg.CTC_CTL (strNum x)) v.toNat (ctcCtlOk (strNum x)) (ctcCtlEff (strNum x))

/-- The precharge relay's feedback reads closed: VM0 or VM1 is enabled (R259). -/
def execPrechargeFbClosed (t : Nat) (xs : Str) (s : State) : Host.Outcome State Fault Refusal :=
  run t s fun s =>
    let x := strNum xs
    let s := s.setBit (Reg.CTC_STS x) 8 true
    if s.ctcState x = stStarting ∧ s.bit (Reg.CTC_STS x) 7 then s.vmSetEnable (preVm x) true else s

/-- PRECHARGE_MATCH at a control frame (R259): link and string within 10 V, the main coil is driven. -/
def State.prechargeMatch (s : State) : State :=
  s.forAll [(0 : Fin 2), 1] (fun s x =>
    let d := ((f32 (s.reg (Reg.VMC_VOUT (preVm x)))).sub (f32 (s.reg (Reg.HVS_VSTR x)))).abs
    if s.ctcState x = stStarting ∧ !s.bit (Reg.CTC_STS x) 5 ∧ !s.bit (Reg.CTC_STS x) 6 ∧ s.vmst (preVm x) = stRunning ∧
        d.le (Fv.ofNat 10) then s.mainCoil x true
    else s)

/-- The main contactor's feedback reads closed: VM0 or VM1 is disabled, the precharge coil released, the closure counted and
stamped (R259, R276). -/
def execMainFbClosed (t : Nat) (xs : Str) (s : State) : Host.Outcome State Fault Refusal :=
  run t s fun s =>
    let x := strNum xs
    let s := s.setBit (Reg.CTC_STS x) 6 true
    if s.ctcState x = stStarting ∧ s.bit (Reg.CTC_STS x) 5 then
      let s := (s.vmSetEnable (preVm x) false).preCoil x false
      let s := (s.inc (Reg.CTC_CLOSE_CNT x)).stampReg (Reg.CTC_CLOSE_STAMP x)
      s.updCtc x (fun c => { c with runFrame := some (s.now / 1000000 + 1) })
    else s

/-- STRING_IN_SERVICE at a plan-frame boundary (R259): the string runs and its enabled bricks start. -/
def State.stringInService (s : State) : State :=
  s.forAll [(0 : Fin 2), 1] (fun s x =>
    match (s.ctc[x]).runFrame with
    | none => s
    | some f =>
      if s.ctcState x = stStarting ∧ f ≤ s.now / 1000000 then
        let s := (s.setCtc x stRunning).updCtc x (fun c => { c with runFrame := none })
        s.forAll (bricksOf x) (fun s b => if s.bit (Reg.PCM_CTL b) 0 then s.brickStart b else s)
      else s)

/-- A close that does not converge, or whose feedback misses its 20 ms, ends in FAULT (R259). -/
def execCloseTimeout (t : Nat) (xs : Str) (s : State) : Host.Outcome State Fault Refusal :=
  run t s fun s =>
    let x := strNum xs
    let c : CtcSt := s.ctc[x]
    let v : VmSt := s.vm[preVm x]
    if s.ctcState x ≠ stStarting then s
    else if s.vmst (preVm x) = stRunning ∧ !s.bit (Reg.CTC_STS x) 5 ∧ v.runAt + 100000000 ≤ s.now then s.ctcFault x 2 false
    else if s.bit (Reg.CTC_STS x) 5 ∧ !s.bit (Reg.CTC_STS x) 6 ∧ c.mainAt + 20000000 ≤ s.now then s.ctcFault x 1 false
    else if s.bit (Reg.CTC_STS x) 7 ∧ !s.bit (Reg.CTC_STS x) 8 ∧ c.preAt + 20000000 ≤ s.now then s.ctcFault x 1 false
    else s

/-- A close that waits begins once the other string is RUNNING, OFF or FAULT (R261). -/
def execCloseWaitRelease (t : Nat) (xs : Str) (s : State) : Host.Outcome State Fault Refusal :=
  run t s fun s =>
    let x := strNum xs
    let o := s.ctcState (other x)
    let c : CtcSt := s.ctc[x]
    if c.waiting ∧ s.ctcState x = stOff ∧ (o = stRunning ∨ o = stOff ∨ o = stFault) then s.closeOrRefuse x else s

/-! ## Opening (R260) -/

/-- STRING_LEAVE_PLAN at a plan-frame boundary: the string leaves the plan and its bricks stop. -/
def State.stringLeavePlan (s : State) : State :=
  s.forAll [(0 : Fin 2), 1] (fun s x =>
    if (s.ctc[x]).leaving ∧ s.ctcState x = stStopping then
      (s.forAll (bricksOf x) State.brickStop).updCtc x (fun c => { c with leaving := false, bricksOff := none })
    else s)

/-- No brick of a string switches or ramps. -/
def State.bricksStill (s : State) (x : Fin 2) : Bool := (bricksOf x).all (fun b => s.bst b = stOff || s.bst b = stFault)

/-- The instant at which every brick of an opening string was OFF. -/
def State.trackOpen (s : State) : State :=
  s.forAll [(0 : Fin 2), 1] (fun s x =>
    if s.ctcState x = stStopping ∧ !(s.ctc[x]).leaving ∧ s.bricksStill x then
      s.updCtc x (fun c => { c with bricksOff := some (c.bricksOff.getD s.now) })
    else s)

/-- With every brick OFF the coil is released below 5 A, or after 10 ms with the opening counted (R260). -/
def execContactorCoilRelease (t : Nat) (xs : Str) (i : F32) (s : State) : Host.Outcome State Fault Refusal :=
  run t s fun s =>
    let x := strNum xs
    let s := s.trackOpen
    match (s.ctc[x]).bricksOff with
    | none => s
    | some a =>
      if s.ctcState x ≠ stStopping ∨ !s.bit (Reg.CTC_STS x) 5 then s
      else if (f32 i.toNat).abs.lt (Fv.ofNat 5) then s.mainCoil x false
      else if a + 10000000 ≤ s.now then
        ((s.mainCoil x false).inc (Reg.CTC_OPEN_LOAD_CNT x)).post 0x10E sevWarn 0x0052 x.val 0 i.toNat 0 0
      else s

/-- Both feedbacks open: the string reaches OFF, and a rearm is judged (R258, R260). -/
def State.openDone (s : State) (x : Fin 2) : State :=
  if s.ctcState x = stStopping && s.fbOpen x && !s.bit (Reg.CTC_STS x) 5 && !s.bit (Reg.CTC_STS x) 7 then
    let rearm := s.bit (Reg.CTC_STS x) 4
    let s := ((s.setCtc x stOff).setBit (Reg.CTC_STS x) 4 false).updCtc x (fun c => { c with bricksOff := none })
    if rearm then s.closeOrRefuse x else s
  else s

/-- The main contactor's feedback opens. -/
def execContactorOpenDone (t : Nat) (xs : Str) (s : State) : Host.Outcome State Fault Refusal :=
  run t s fun s => (s.setBit (Reg.CTC_STS (strNum xs)) 6 false).openDone (strNum xs)

/-- The precharge relay's feedback opens. -/
def execPrechargeFbOpen (t : Nat) (xs : Str) (s : State) : Host.Outcome State Fault Refusal :=
  run t s fun s => (s.setBit (Reg.CTC_STS (strNum xs)) 8 false).openDone (strNum xs)

/-! ## Estimators at a plan frame (R264, R266, R271) -/

/-- What the Pattern gives for a string; nothing where it gives none. -/
def strIn (l : List StrIn) (x : Fin 2) : StrIn := l.getD x.val ⟨0, false, 0, 0, 0, [], false⟩

/-- Replace a string's estimator record. -/
def State.updEst (s : State) (x : Fin 2) (f : EstSt → EstSt) : State := { s with est := s.est.set x (f s.est[x]) }

/-- EKF_STEP (R264): every plan frame in fast cadence, every 100th in slow; a diverged model is restarted and an event raised. -/
def State.ekfStep (s : State) (l : List StrIn) : State :=
  if s.ship then s else
  s.forAll [(0 : Fin 2), 1] (fun s x =>
    let q := strIn l x
    if s.bit Reg.BDS_STS (4 + x.val) ∨ s.now / 1000000 % 100 = 0 then
      let s := s.updEst x (fun e => { e with steps := e.steps + 1, sigma := q.sigma, restarts := e.restarts + q.diverged.length })
      let s := if q.moved then s.updCtc x (fun c => { c with journalDue := true }) else s
      s.forAll q.diverged (fun s c => s.post 0x42 sevWarn 0x0063 x.val 0 c.val 0 0)
    else s)

/-- Anchor age in minutes, saturating (R266). -/
def State.anchorAge (s : State) (x : Fin 2) : Nat := min 65535 ((s.now - (s.ctc[x]).anchorAt) / 60000000000)

/-- sigma_res in 0.01 % (R271): the larger of the filters' and the drift bound of the last anchor. -/
def State.sigmaRes (s : State) (x : Fin 2) (q : StrIn) : Nat :=
  match (s.ctc[x]).anchorSigma with
  | none => s.est[x].sigma
  | some a =>
    let hours60 := s.anchorAge x
    let drift := a * 300 * max 1 q.capacity + 3000 * q.theta + hours60 * max 1 q.capacity
    max s.est[x].sigma (divOpen 3 drift (300 * max 1 q.capacity))

/-- RESERVE_UPDATE (R271): r_ck in 0.01 %, shown in BDS_RESERVE, and ANCHOR_REQUIRED above 0.35. -/
def State.reserveUpdate (s : State) (l : List StrIn) : State :=
  s.forAll [(0 : Fin 2), 1] (fun s x =>
    let r := min 65535 (1500 + 3 * s.sigmaRes x (strIn l x))
    let s := (s.setFld Reg.BDS_RESERVE (16 * x.val) 16 r).setFld Reg.BDS_ANCHOR_AGE (16 * x.val) 16 (s.anchorAge x)
    let need := decide (3500 < r)
    let e : EstSt := s.est[x]
    if need && !e.anchorReq then
      (s.updEst x (fun e => { e with anchorReq := true })).post 0x10F sevWarn 0x0062 x.val 0 r (s.anchorAge x) 0
    else s)

/-! ## Rest windows (R267 to R269) -/

/-- ANCHOR_INTERVAL in minutes. -/
def State.anchorMin (s : State) : Nat := 60 * s.reg Reg.BDS_ANCHOR_INTERVAL

/-- Storage power of the shelf, of a string, as values in W. -/
def State.storeW (s : State) : Fv := ((f32 (s.sReg 0)).add (f32 (s.sReg 1))).abs.mul (Fv.ofNat 1000)
def State.strW (s : State) (x : Nat) : Fv := (f32 (s.sReg x)).abs.mul (Fv.ofNat 1000)

/-- Since when the storage power has stayed within half of the other string's P_lim. -/
def State.trackQuiet (s : State) (l : List StrIn) : State :=
  s.forAll [(0 : Fin 2), 1] (fun s x =>
    let ok := (s.storeW.mul (Fv.ofNat 2)).le (Fv.ofNat (strIn l (other x)).pLim)
    s.updCtc x (fun c => { c with quietSince := if ok then some (c.quietSince.getD s.now) else none }))

/-- No protection warning is active. -/
def State.noWarning (s : State) : Bool := !s.limitWarn && !s.bit Reg.PRT_STS 1

/-- Is a string due for an anchor: aged, and the older one where both are (R267)? -/
def State.anchorDue (s : State) (x : Fin 2) : Bool :=
  let a := s.anchorAge x
  let b := s.anchorAge (other x)
  decide (s.anchorMin < a) && (!decide (s.anchorMin < b) || decide (b < a) || (a = b && x = 0))

/-- May a rest window start on a string (R267)? -/
def State.restOk (s : State) (l : List StrIn) (x : Fin 2) : Bool :=
  s.ctcState 0 = stRunning && s.ctcState 1 = stRunning && s.anchorDue x &&
  (match (s.ctc[x]).quietSince with
    | some b => decide (b + 60000000000 ≤ s.now)
    | none => false) &&
  (strIn l (other x)).inRows && s.noWarning && s.rowNow ≠ 1 && !s.arb.gridLoss

/-- REST_WINDOW_START at a plan-frame boundary: the string is parked (R268). -/
def State.restStart (s : State) (l : List StrIn) : State :=
  match [(0 : Fin 2), 1].find? (s.restOk l) with
  | none => s
  | some x =>
    let s := (s.setCtc x stHold).setBit Reg.BDS_STS (4 + x.val) false
    let s := s.setBit Reg.BDS_STS (7 + x.val) true
    let s := s.forAll allBeads (fun s j => s.updBead x j (fun b => { b with bal := 0#16 }))
    (s.updCtc x (fun c => { c with restAt := some s.now, lastRest := some s.now, overFrames := 0, excAt := none })).pleat

/-- A parked string returns to RUNNING at a plan-frame boundary. -/
def State.unpark (s : State) (x : Fin 2) : State :=
  (((s.setCtc x stRunning).setBit Reg.BDS_STS (7 + x.val) false).updCtc x (fun c => { c with restAt := none, overFrames := 0 })).pleat

/-- Has a step been detected since an instant? -/
def State.stepSince (s : State) (a : Nat) : Bool :=
  match s.pd.lastStep with
  | some k => decide (a ≤ k)
  | none => false

/-- REST_WINDOW_ABANDON at a plan-frame boundary (R269). -/
def State.restAbandon (s : State) (l : List StrIn) : State :=
  s.forAll [(0 : Fin 2), 1] (fun s x =>
    match (s.ctc[x]).restAt with
    | none => s
    | some a =>
      if s.ctcState x ≠ stHold then s else
      let o := other x
      let ovr := (Fv.ofNat (4 * (strIn l o).pLim)).lt ((s.strW o).mul (Fv.ofNat 5))
      let n := if ovr then (s.ctc[x]).overFrames + 1 else 0
      let s := s.updCtc x (fun c => { c with overFrames := n })
      if 10 ≤ n || !s.noWarning || s.tripFor 0 || s.tripFor 1 || s.arb.gridLoss || s.stepSince a then s.unpark x else s)

/-- After 90 s the window ends at a plan-frame boundary (R266, R268, R269): an anchor where every cell's sigma is at most 1 %. -/
def execRestWindowEnd (t : Nat) (xs : Str) (s : State) : Host.Outcome State Fault Refusal :=
  run t s fun s =>
    let x := strNum xs
    match (s.ctc[x]).restAt with
    | none => s
    | some a =>
      if s.ctcState x = stHold ∧ a + 90000000000 ≤ s.now ∧ s.now % 1000000 = 0 then
        let e : EstSt := s.est[x]
        let s := if e.sigma ≤ 100 then
            (s.updCtc x (fun c => { c with anchorAt := s.now, anchorSigma := some e.sigma })).updEst x (fun e => { e with
              anchorReq := false, capUpdates := e.capUpdates + 1 })
          else s
        s.unpark x
      else s

/-! ## Excitation (R270) -/

/-- A burst starts every 60 s on an aged string without a rest window in the interval. -/
def execExcitationBurst (t : Nat) (xs : Str) (s : State) : Host.Outcome State Fault Refusal :=
  run t s fun s =>
    let x := strNum xs
    let c : CtcSt := s.ctc[x]
    let noRest := match c.lastRest with
      | some r => decide (r + s.anchorMin * 60000000000 ≤ s.now)
      | none => true
    let spaced := match c.excEnd with
      | some e => decide (e + 50000000000 ≤ s.now)
      | none => true
    if s.ctcState x = stRunning && decide (s.anchorMin < s.anchorAge x) && noRest && spaced && c.excAt.isNone then
      s.updCtc x (fun c => { c with excAt := some s.now })
    else s

/-- The burst ends after 10 s and Rs is updated. -/
def execExcitationEnd (t : Nat) (xs : Str) (s : State) : Host.Outcome State Fault Refusal :=
  run t s fun s =>
    let x := strNum xs
    match (s.ctc[x]).excAt with
    | none => s
    | some a =>
      if a + 10000000000 ≤ s.now then
        (s.updCtc x (fun c => { c with excAt := none, excEnd := some s.now })).updEst x (fun e => { e with rsUpdates := e.rsUpdates + 1 })
      else s

/-! ## Ship mode (R274, R275, R379) -/

/-- A path that may write CTC_SHIP: Nugen, which carries out the service commands, and the UART console. -/
def shipPath (w : Writer) : Bool := w.path == .nugen || w.path == .uart

/-- Does the bus stand at 48 to 52 V with no string in service? -/
def State.chargerPresent (s : State) : Bool :=
  let v := f32 (s.reg Reg.HVS_VBUS)
  (Fv.ofNat 48).le v && v.le (Fv.ofNat 52) && s.strs.isEmpty

/-- Entry into ship mode begins: ENABLE of both strings is cleared (R274). -/
def State.shipEnter (s : State) : State :=
  let s := s.forAll [(0 : Fin 2), 1] (fun s x => (s.setBit (Reg.CTC_CTL x) 0 false).ctcEnable x false)
  { s with prt := { s.prt with ship := 1 } }

/-- Exit from ship mode begins: VM3, the Beads, and an open-wire test of every wire (R275). -/
def State.shipExit (s : State) : State :=
  let s := s.vmSetEnable 3 true
  let s := s.forAll [(0 : Fin 2), 1] (fun s x => s.forAll allBeads (fun s j =>
    s.updBead x j (fun b => { b with awake := true, lastReply := s.now })))
  { s with prt := { s.prt with ship := 2 } }

/-- May ship mode be left: it is on, the life cycle does not force it, and a charger is present? -/
def State.shipExitOk (s : State) : Bool := s.ship && !lcShipForced s.lc && s.chargerPresent

/-- May CTC_SHIP be written so? -/
def ctcShipOk (w : Writer) (s : State) (v : Nat) : Bool := shipPath w && (!bitOf v 2 || s.shipExitOk)

/-- What a write of CTC_SHIP does. -/
def ctcShipEff (s : State) (v : Nat) : State :=
  let s := if bitOf v 1 && !s.ship then s.shipEnter else s
  if bitOf v 2 then s.shipExit else s

/-- CTC_SHIP.ENTER. -/
def execCtcShipEnter (t : Nat) (w : Writer) (s : State) : Host.Outcome State Fault Refusal :=
  run t s fun s => s.ownWrite w Reg.CTC_SHIP 2 (ctcShipOk w) ctcShipEff

/-- CTC_SHIP.EXIT. -/
def execCtcShipExit (t : Nat) (w : Writer) (s : State) : Host.Outcome State Fault Refusal :=
  run t s fun s => s.ownWrite w Reg.CTC_SHIP 4 (ctcShipOk w) ctcShipEff

/-- Both strings OFF: the Beads sleep, VM3 is disabled, SHIP is set (R274). -/
def execShipStringsOff (t : Nat) (s : State) : Host.Outcome State Fault Refusal :=
  run t s fun s =>
    if s.prt.ship = 1 ∧ s.ctcState 0 = stOff ∧ s.ctcState 1 = stOff then
      let s := s.forAll [(0 : Fin 2), 1] (fun s x =>
        (s.forAll allBeads (fun s j => s.updBead x j (fun b => { b with awake := false, bal := 0#16, force := 0#16 }))).updLoop x
          (fun l => { l with runs := [], got := [], owt := none, sumBad := 0 }))
      { (s.vmSetEnable 3 false).setBit Reg.CTC_SHIP 0 true with prt := { s.prt with ship := 0 } }
    else s

/-- The open-wire tests are done: SHIP is cleared (R275). -/
def execShipExitComplete (t : Nat) (s : State) : Host.Outcome State Fault Refusal :=
  run t s fun s =>
    if s.prt.ship = 2 then { s.setBit Reg.CTC_SHIP 0 false with prt := { s.prt with ship := 0 } } else s

end Sys2Proof.Machine
end

