-- ==== Sys2Proof/Machine/Arbiter.lean ====
section
/-!
DEFINITION. The long forecast, the shelf plan and the budget arbiter (R173 to R188), and the operator policy's effect and lease (R179,
R345).
-/
namespace Sys2Proof.Machine

/-- The Pattern runs: the sequencer is RUNNING with a Pattern on a base die that is up. -/
def State.patternActive (s : State) : Bool := s.baseUp && s.blk seqPg = stRunning && s.runningPat.isSome

/-- Replace the arbiter's record. -/
def State.updArb (s : State) (f : ArbSt → ArbSt) : State := { s with arb := f s.arb }

/-! ## The long forecast (R173) -/

/-- Every plan frame the long forecast of each endpoint is refreshed. -/
def State.longRefresh (s : State) : State :=
  let k := s.free
  let s := s.forAll (List.finRange 128) (fun s n => s.updEp n (fun x => { x with fc := { x.fc with longRun := k } }))
  { s with free := k + 1 }

/-- Step `i` (1 ms) of an endpoint's long forecast: its intents as far as they reach, elsewhere the load model. -/
def State.longForecast (s : State) (n : Fin 128) (i : Nat) : Fv :=
  let at' := s.now + 1000000 * i
  if (s.ep[n].intentAt at').isSome then s.fcShaped n at' else f32 (Config.longForecast s.ep[n].fc.longRun n i)

/-! ## The plan (R175 to R178) -/

/-- The plan's interval that a number of plan frames after its own boundary falls in (R175). -/
def planK (ms : Nat) : Nat := if ms < 80 then ms / 5 else min 31 (16 + (ms - 80) / 120)

/-- g_0 of the plan in force, in W: that of a plan solved now, else of the previous one shifted (R178). -/
def State.planG0 (s : State) : Nat :=
  match s.arb.plan with
  | some p => p.g.getD (planK (s.now / 1000000 - p.frame)) 0
  | none => 0

/-- STORE's verdict (R178): a solved plan is in force; else the previous one stays, shifted, and from the tenth plan frame without
SOLVED on the next LOAD is issued without WARM. -/
def State.planSolve (s : State) (q : PlanIn) : State :=
  if q.solved then s.updArb (fun a => { a with
    plan := some ⟨q.g, q.storage, s.now / 1000000⟩, unsolved := 0, cold := false })
  else s.updArb (fun a => { a with unsolved := a.unsolved + 1, cold := decide (10 ≤ a.unsolved + 1) })

/-- MASK of the policy in 0.01 % of the rating (R179). -/
def State.policyMask (s : State) : Nat := match s.arb.policy with
  | some l => leAt l 0x18 2
  | none => 100

/-- 2 pi * 4 Hz * M in W/s, as a numerator over 10^14: M is MASK of 330 kW (R176). -/
def toneNum (mask : Nat) : Nat := 264 * mask * 314159265358979

/-- rho_g of this frame in W/s (R176): lowered to 2 pi * 4 Hz * M while a component above 4 Hz has exceeded 80 % of the mask and not
yet fallen below 50 %. -/
def State.planRho (s : State) : Nat :=
  if s.arb.toned && decide (toneNum s.policyMask < s.rhoNow * 10 ^ 14) then divOpen 10 (toneNum s.policyMask) (10 ^ 14) else s.rhoNow

/-- The check of the draw from 4 Hz to 20 Hz (R176). -/
def State.toneCheck (s : State) (q : PlanIn) : State :=
  if 800000 < q.tonePpm then s.updArb (fun a => { a with toned := true })
  else if q.tonePpm < 500000 then s.updArb (fun a => { a with toned := false })
  else s

/-- The shelf cap C in W (R176): the lower of the site consensus value and the policy cap. -/
def State.shelfCap (s : State) : Nat := if s.jrjMember then min s.policyCap s.siteCap else s.policyCap

/-- The setpoint in mW (R178, R187, R325): the measured draw moved towards g_0 by at most rho_g * 1 ms, raised whole by an absorption
share, and never above the cap, to which it falls whole. -/
def State.nextSetpoint (s : State) (q : PlanIn) : Nat :=
  let g := 1000 * q.gMeas
  let rho := s.planRho
  let moved := max (g - rho) (min (g + rho) (1000 * s.planG0))
  min (moved + 1000 * s.chn.raise) (1000 * min s.arb.cap s.gAvail)

/-! ## Grants (R180 to R183) -/

/-- Endpoints that stand in the plan: present on an admitted port. -/
def State.planEps (s : State) : List (Fin 128) :=
  (List.finRange 128).filter (fun n => s.link (n.val / 4) = lkAdmitted && s.epPresent n && match s.ep[n].planFrom with
    | some f => decide (f ≤ s.now / 1000000)
    | none => false)

/-- What the plan frame gives for an endpoint; one it gives nothing for is taken at the grant of its present class. -/
def State.planEp (s : State) (q : PlanIn) (n : Fin 128) : PlanEp :=
  match q.eps.find? (fun e => e.ep = n) with
  | some e => e
  | none =>
    let c : Fin 8 := match s.ep[n].status with
      | some x => Fin.ofNat 8 x.phase
      | none => 0
    let g := s.ep[n].grants.getD c.val 0
    ⟨n, g, g, 0, c⟩

/-- Is an endpoint's tray floored by the arbiter? -/
def State.trayFloored (s : State) (n : Fin 128) : Bool := s.arb.floored.contains (n.val / 4)

/-- The draw expected of an endpoint under grants that stood `j` plan frames of slew lower (R187, R188), in 0.25 W: P_FLOOR where its
tray is floored, its floor grant while it is held after a release, else its target under a grant that falls to the cut. -/
def State.level (s : State) (q : PlanIn) (cut : List (Fin 128 × Nat)) (n : Fin 128) (j : Nat) : Nat :=
  let x : EpSt := s.ep[n]
  if s.trayFloored n then x.ident.pFloor else
  let e := s.planEp q n
  let g0 := x.grants.getD e.cls.val 0
  if x.held then min e.target g0 else
  let goal := ((cut.find? (fun y => y.1 = n)).map (·.2)).getD e.target
  min e.target (max goal (g0 - 4 * x.ident.slewDn * j))

/-- The targets cut (R187): tier by tier from tier 3 upwards, and in a tier by one common fraction of the span above P_FLOOR. -/
def State.cutTargets (s : State) (q : PlanIn) : List (Fin 128 × Nat) :=
  let l := s.planEps.map (fun n => (n, (s.planEp q n).target))
  let total := l.foldl (fun a x => a + x.2) 0
  let ovr := total + 4 * q.lambda - 4 * s.arb.cap
  let fl (n : Fin 128) : Nat := s.ep[n].ident.pFloor
  let cut (st : List (Fin 128 × Nat) × Nat) (t : Nat) : List (Fin 128 × Nat) × Nat :=
    let span := (st.1.filter (fun x => s.tier x.1 = t)).foldl (fun a x => a + (x.2 - fl x.1)) 0
    if st.2 = 0 ∨ span = 0 then st
    else
      let keep := span - st.2
      (st.1.map (fun x => if s.tier x.1 = t then (x.1, min x.2 (fl x.1) + divOpen 11 ((x.2 - fl x.1) * keep) span) else x), st.2 - span)
  ([3, 2, 1, 0].foldl cut (l, ovr)).1

/-- phi (R180) as a fraction: the planned draw's share of the span from P_FLOOR to the target. -/
def phiOf (floor draw target : Nat) : Nat × Nat := if target ≤ draw + 1 then (1, 1) else (draw - floor, target - floor)

/-- The grant of a class (R180, R183). -/
def State.grantOf (s : State) (n : Fin 128) (e : PlanEp) (draw c : Nat) : Nat :=
  let x : EpSt := s.ep[n]
  let f := x.ident.pFloor
  if s.arb.gridLoss then (if c = 3 then s.pop n 3 else f) else
  let phi := phiOf f draw e.target
  let g := f + divOpen 12 (phi.1 * (s.pop n c - f)) phi.2
  let g := if phi = (1, 1) ∧ c = e.cls.val then g + 3 * e.sigma else g
  let g := max g (x.grants.getD c 0 - 4 * x.ident.slewDn)
  max f (min x.ident.pMax g)

/-- The grants of an endpoint for the next plan frame; one held after a release keeps its floor grant (R188). -/
def State.nextGrants (s : State) (q : PlanIn) (cut : List (Fin 128 × Nat)) (n : Fin 128) : List Nat :=
  let x : EpSt := s.ep[n]
  if x.held && !s.arb.gridLoss then List.replicate 8 (s.floorGrant n) else
  let e := s.planEp q n
  let lim := ((cut.find? (fun y => y.1 = n)).map (·.2)).getD e.target
  let draw := if s.trayFloored n then x.ident.pFloor else min e.draw lim
  (List.range 8).map (s.grantOf n e draw)

/-- ARBITER_GRANTS (R180, R181): every endpoint's grants are set, and each admitted tray is sent its GRANT. -/
def State.sendAllGrants (s : State) (q : PlanIn) (cut : List (Fin 128 × Nat)) : State :=
  let l := s.planEps.map (fun n => (n, s.nextGrants q cut n))
  let s := s.forAll l (fun s x => s.updEp x.1 (fun e => { e with grants := x.2, lapsed := false }))
  s.forAll ((List.finRange 32).filter (fun (p : Fin 32) => s.portUp p.val && s.link p.val = lkAdmitted)) (fun s p => s.sendGrants p 0x11)

/-! ## The floor check (R188) -/

/-- Endpoint draw plus lambda, 0.25 W, after `j` plan frames of falling grants. -/
def State.drawAt (s : State) (q : PlanIn) (cut : List (Fin 128 × Nat)) (j : Nat) : Nat :=
  s.planEps.foldl (fun a n => a + s.level q cut n j) (4 * q.lambda)

/-- Sum of P_lim over the strings in W. -/
def pLimSum (q : PlanIn) : Nat := q.strs.foldl (fun a (x : StrIn) => a + x.pLim) 0

/-- The energy that the gap takes over at most `k` plan frames, 0.25 W ms; none where it has not closed by then (the plan's
horizon). -/
def State.gapEnergy (s : State) (q : PlanIn) (cut : List (Fin 128 × Nat)) : Nat → Nat → Nat → Option Nat
  | 0, _, _ => none
  | k + 1, j, a =>
    let gap := s.drawAt q cut j - 4 * s.arb.cap
    if gap = 0 then some a else s.gapEnergy q cut k (j + 1) (a + gap)

/-- Do both checks pass: the gap within P_lim, and its energy within the energy above the checkpoint reserve? -/
def State.storageCovers (s : State) (q : PlanIn) (cut : List (Fin 128 × Nat)) : Bool :=
  decide (s.drawAt q cut 0 - 4 * s.arb.cap ≤ 4 * pLimSum q) &&
  (match s.gapEnergy q cut 2000 0 0 with
   | some e => decide (e ≤ 4000 * q.eAvail)
   | none => false)

/-- Insert a tray by the default FLOOR_ORDER: the lowest priority of a tray's best endpoint first, then the highest tray number. -/
def insertTray (key : Nat → Nat) : List Nat → Nat → List Nat
  | [], x => [x]
  | y :: l, x => if key y < key x ∨ (key y = key x ∧ y < x) then x :: y :: l else y :: insertTray key l x

/-- FLOOR_ORDER of the policy in force, or the default (R188), over trays that hold an endpoint of the plan. -/
def State.trayOrder (s : State) : List Nat :=
  let eps := s.planEps
  let has (t : Nat) : Bool := eps.any (fun n => n.val / 4 = t)
  let best (t : Nat) : Nat := (eps.filter (fun n => n.val / 4 = t)).foldl (fun a n => min a (s.tier n)) 3
  let l := match s.arb.policy with
    | some p => ((p.drop 0x20).take 32).map (fun (b : Byte) => b.toNat)
    | none => (List.range 32).foldl (insertTray best) []
  l.filter has

/-- Floor trays one at a time until both checks pass. -/
def State.floorTrays (s : State) (q : PlanIn) (cut : List (Fin 128 × Nat)) : List Nat → State
  | [] => s
  | t :: l =>
    if s.storageCovers q cut then s
    else if s.arb.floored.contains t then s.floorTrays q cut l
    else (s.updArb (fun a => { a with floored := t :: a.floored })).floorTrays q cut l

/-- Release the tray floored last if the storage needed with it at its floor grants is at most 80 % of P_lim. -/
def State.releaseTray (s : State) (q : PlanIn) (cut : List (Fin 128 × Nat)) : State :=
  match s.arb.floored with
  | [] => s
  | t :: l =>
    let eps := s.planEps.filter (fun n => n.val / 4 = t)
    let more := eps.foldl (fun a n => a + (s.floorGrant n - s.ep[n].ident.pFloor)) 0
    if 5 * (s.drawAt q cut 0 + more - 4 * s.arb.cap) ≤ 16 * pLimSum q then
      let s := s.updArb (fun a => { a with floored := l })
      s.forAll eps (fun s n => let g := s.floorGrant n; s.updEp n (fun x => { x with grants := List.replicate 8 g, held := true }))
    else s

/-- FLOOR_CHECK (R188): before the solve, trays are floored or one is released; once the draw is at or below the cap, released trays
follow R180 again. -/
def State.floorCheck (s : State) (q : PlanIn) (cut : List (Fin 128 × Nat)) : State :=
  let ok := s.storageCovers q cut
  let s := if ok then s.releaseTray q cut else s.floorTrays q cut s.trayOrder
  if s.drawAt q cut 0 ≤ 4 * s.arb.cap then s.forAll s.planEps (fun s n => s.updEp n (fun x => { x with held := false })) else s

/-! ## A plan frame of the Pattern (R173 to R188) -/

/-- The Pattern's part of a plan frame: long forecast, cap, floor check, plan, setpoint and grants. -/
def State.arbiterFrame (s : State) (q : PlanIn) : State :=
  let s := (s.longRefresh.toneCheck q).updArb (fun a => { a with lastIn := some q, cap := s.shelfCap })
  let cut := s.cutTargets q
  let s := (s.floorCheck q cut).planSolve q
  let s := s.updArb (fun a => { a with setpoint := s.nextSetpoint q })
  s.sendAllGrants q cut

/-! ## The policy record (R179, R345) -/

/-- A policy record is in force. -/
def State.policyTakes (s : State) (l : Option (List Byte)) (lapsed : Bool) : State :=
  s.updArb (fun a => { a with policy := l, policyLapsed := lapsed })

/-- A committed policy record takes effect at the first plan-frame boundary after its commit (R179); POLICY_LAPSED clears (R345). -/
def execPolicyRecordEffect (t : Nat) (s : State) : Host.Outcome State Fault Refusal :=
  run t s fun s =>
    match s.arb.pendingPolicy with
    | none => s
    | some l =>
      if s.now % 1000000 ≠ 0 || !s.baseUp then s
      else (s.policyTakes (some l) false).updArb (fun a => { a with pendingPolicy := none })

/-- The lease of the policy in force has passed with no successor (R345): at the plan-frame boundary the standing policy, or the
defaults, take effect. -/
def execPolicyLeaseEnd (t : Nat) (s : State) : Host.Outcome State Fault Refusal :=
  run t s fun s =>
    match s.arb.policy with
    | none => s
    | some l =>
      if s.now % 1000000 ≠ 0 || !s.baseUp || s.arb.policyLapsed || s.arb.pendingPolicy.isSome || decide (s.now ≤ leAt l 8 8) then s
      else (s.policyTakes s.arb.standing true).post 0xB0 sevWarn 0x0090 0 0 (leAt l 0 4) (leAt l 4 4) 0

end Sys2Proof.Machine
end

