-- ==== Sys2Proof/Machine/Journal.lean ====
section
/-!
DEFINITION. The journal (R381 to R394), its mirror on the standby (R340), Cameo capture (R395, R396) and the event recorder
(R399 to R402).
-/
namespace Sys2Proof.Machine

/-! ## Who writes the journal (R340, R383) -/

/-- The module is owner: it sends OWNER or YIELDING (R328). -/
def State.isOwner (s : State) : Bool := s.clp.role = 4 || s.clp.role = 5

/-- The slot link carries mirrors: LINK is ADMITTED and ENABLE set (R349). -/
def State.slkUp (s : State) : Bool := s.fld Reg.SLK_STS 0 3 = 4 && s.bit Reg.SLK_CTL 0

/-- The peer sends a STANDBY role: role 1 or 2 in a frame within the last 1 ms (R328, R344). -/
def State.peerStandby (s : State) : Bool :=
  (s.clp.peerRole = 1 || s.clp.peerRole = 2) && decide (s.now < s.clp.peerSeen + 1000000)

/-- Records go to the standby as they are queued (R340). -/
def State.mirrorOn (s : State) : Bool := s.isOwner && s.slkUp && s.peerStandby

/-! ## The ring (R381, R387, R388) -/

/-- Bytes a record takes in a page: its header and payload, to the next 16-byte boundary (R381). -/
def recSize (r : JRec) : Nat := 32 + (r.payload.length + 15) / 16 * 16

/-- Bytes of a page, and of the SEGMENT record that opens a segment. -/
def pageBytes : Nat := 16384
def segRecBytes : Nat := 48

/-- Live segments. -/
def State.jnlLive (s : State) : Nat := s.jnl.gen + 1 - s.jnl.first

/-- JNL_FILL, JNL_LIVE and FULL_CRIT follow the live ring (R389, R403). -/
def State.jnlShow (s : State) : State :=
  let s := s.setReg Reg.JNL_FILL (divOpen 4 (s.jnlLive * 1000) 4096)
  let s := s.setReg Reg.JNL_LIVE (s.jnl.first % 4096 + 65536 * (s.jnl.gen % 4096))
  s.setBit Reg.JNL_STS 2 (4096 * 95 ≤ s.jnlLive * 100)

/-- A page is free: one of the open segment, or a segment outside the live ring. -/
def State.jnlRoom (s : State) : Bool := s.jnl.pages < 4 || s.jnlLive < 4096

/-- A record cannot be taken (R389, R403): the controller is disabled or no page is free; a service command returns 0x0100. -/
def State.jnlRefuses (s : State) : Bool := !s.bit Reg.JNL_CTL 0 || !s.jnlRoom

/-- The live ring has reached 95 % (R389). -/
def State.jnlCrit (s : State) : Bool := 4096 * 95 ≤ s.jnlLive * 100

/-! ## Queueing (R383, R384, R389) -/

/-- Queue a record under a SEQ that it has already. -/
def State.jnlPut (s : State) (r : JRec) : State :=
  let due := s.now + (if r.sync then 1000000 else 20000000)
  { s with jnl := { s.jnl with queue := s.jnl.queue ++ [⟨r, due, s.bit Reg.JNL_STS 0⟩] } }

/-- Queue a record with the next SEQ; the owner sends it to the standby at once. -/
def State.jnlNumber (s : State) (r : JNew) : State :=
  let q := s.reg Reg.JNL_SEQ
  let s := s.jnlPut ⟨r.ty, q, s.now, r.src, r.sync, false, false, !s.isOwner, r.payload⟩
  let s := (s.setReg Reg.JNL_SEQ (q + 1)).setBit Reg.JNL_STS 5 (!s.isOwner)
  if s.mirrorOn then
    let s := { s with jnl := { s.jnl with unacked := s.jnl.unacked ++ [q] } }
    s.setReg Reg.SLK_JNL_LAG s.jnl.unacked.length
  else s

/-- A record is to be journalled: refused, sent to the owner by a standby whose slot link is up, or queued with the next SEQ.
`spare`: it is of a kind refused from 95 % on. -/
def State.jnlAdd (s : State) (spare : Bool) (r : JNew) : State :=
  if s.jnlRefuses then s
  else if spare && s.jnlCrit then s.inc Reg.JNL_REFUSED
  else if !s.isOwner && s.slkUp && s.clp.peerValid then
    { s with jnl := { s.jnl with toOwner := s.jnl.toOwner ++ [r] } }
  else s.jnlNumber r

/-- Is a type refused from 95 % on whatever it belongs to (R389)? -/
def spareType (ty : Nat) : Bool := ty = 0x70 || ty = 0x50

/-- Data bytes of a PART record. -/
def partData : Nat := 16336

/-- The payload of the commit of an object whose first PART takes the next SEQ (R386). -/
def State.commitPayload (s : State) (data extra : List Byte) : List Byte :=
  leBytes 8 (s.reg Reg.JNL_SEQ) ++ leBytes 4 ((data.length + partData - 1) / partData) ++ leBytes 8 data.length ++ sha256 data ++
    extra

/-- Journal an object in PART records and a commit (R386): OBJ_ID, COUNT, length and digest, then what the type adds. -/
def State.jnlObject (s : State) (ty src : Nat) (spare : Bool) (data extra : List Byte) : State :=
  let id := s.reg Reg.JNL_SEQ
  let commit := s.commitPayload data extra
  let ps := pieces partData ((data.length + partData - 1) / partData) data
  let s := s.forAll ps.zipIdx (fun s p =>
    s.jnlAdd spare ⟨0x08, false, src, leBytes 8 id ++ leBytes 4 p.2 ++ leBytes 4 ps.length ++ p.1⟩)
  s.jnlAdd false ⟨ty, true, src, commit⟩

/-- A record is queued by the firmware or a block (R384, R389). -/
def execJnlRecordQueue (t : Nat) (r : JNew) (s : State) : Host.Outcome State Fault Refusal :=
  run t s fun s => if s.baseUp then s.jnlAdd (spareType r.ty) r else s

/-! ## Programming (R381, R384, R390) -/

/-- T_hold as last known, us (R390). -/
def State.tHold (s : State) : Nat := s.reg Reg.JNL_HOLDUP

/-- The queue entries that a page of `room` bytes takes, in order, and the rest. -/
def takePage : Nat → List JEnt → List JRec × List JEnt
  | _, [] => ([], [])
  | room, e :: r =>
    if recSize e.item ≤ room then
      let x := takePage (room - recSize e.item) r
      (e.item :: x.1, x.2)
    else ([], e :: r)

/-- A page program begins (R384, R390): with the records the page holds, a new segment opened where the last is full; never
with T_hold below 1.8 ms. -/
def execPageProgram (t : Nat) (s : State) : Host.Outcome State Fault Refusal :=
  run t s fun s =>
    if s.bit Reg.JNL_STS 0 && s.jnl.prog.isNone && !s.jnl.queue.isEmpty && s.jnlRoom && decide (1800 ≤ s.tHold) then
      let new := decide (4 ≤ s.jnl.pages)
      let x := takePage (pageBytes - (if new then segRecBytes else 0)) s.jnl.queue
      let j := s.jnl
      let j := if new then { j with gen := j.gen + 1, pages := 0 } else j
      ({ s with jnl := { j with prog := some x.1, queue := x.2 } }).jnlShow
    else s

/-- What follows once a record is programmed: a Cameo commit and an AUDIT record show their SEQ (R403, R448). -/
def State.recDone (s : State) (r : JRec) : State :=
  if r.copy then s
  else if r.ty = 0x60 then (s.setReg Reg.JNL_CAMEO_SEQ r.seq).inc Reg.JNL_CAMEO_CNT
  else if r.ty = 0x50 then s.setReg Reg.AUD_JNL_SEQ (r.seq % 2 ^ 32)
  else s

/-- Is the record that an acknowledgement waits for programmed and, where a standby sends a STANDBY role, mirrored (R384)? -/
def State.recStands (s : State) (a : PendAck) : Bool :=
  s.jnl.log.any (fun x => x.2.ty = a.ty && x.2.payload == a.payload && decide (a.fromSeq ≤ x.2.seq) &&
    !(s.mirrorOn && s.jnl.unacked.contains x.2.seq))

/-- The acknowledgements whose records stand are given: every command that waits returns DONE. -/
def State.ackRecords (s : State) : State :=
  let (go, stay) := s.nug.acks.partition s.recStands
  let s := { s with nug := { s.nug with acks := stay } }
  s.forAll go (fun s a => match a.dest with
    | .box n => s.mbxAck n 0
    | .redfish i => s.answer i 0 200
    | .uart => { s with nug := { s.nug with uartCode := 0 } })

/-- A page program ends: its records are in the journal (R384); a standby acknowledges them (R340). -/
def execPageProgramDone (t us : Nat) (s : State) : Host.Outcome State Fault Refusal :=
  run t s fun s =>
    match s.jnl.prog with
    | none => s
    | some l =>
      let j := s.jnl
      let s := { s with jnl := { j with
        prog := none, pages := j.pages + 1, log := j.log ++ l.map (fun r => (j.gen, r)),
        acked := if s.isOwner then j.acked else l.foldl (fun (a : Nat) (r : JRec) => max a r.seq) j.acked } }
      let s := s.setReg Reg.JNL_PROG_MAX (max (s.reg Reg.JNL_PROG_MAX) us)
      (s.forAll l State.recDone).jnlShow.ackRecords

/-! ## Records in order (R383, R387) -/

/-- Insert a record in SEQ order; one with an equal SEQ is the same record (R383). -/
def insertRec : List JRec → JRec → List JRec
  | [], r => [r]
  | x :: l, r => if r.seq = x.seq then x :: l else if r.seq < x.seq then r :: x :: l else x :: insertRec l r

/-- The valid records of the live ring in SEQ order. -/
def State.jnlRecs (s : State) : List JRec :=
  ((s.jnl.log.filter (fun x => s.jnl.first ≤ x.1)).map (·.2)).foldl insertRec []

/-- The records of a type. -/
def ofType (ty : Nat) (l : List JRec) : List JRec := l.filter (fun r => r.ty = ty)

/-- The newest record of a type. -/
def newestOf (ty : Nat) (l : List JRec) : Option JRec := (ofType ty l).getLast?

/-- A number in a payload. -/
def payAt (r : JRec) (o n : Nat) : Nat := ofLe ((r.payload.drop o).take n)

/-- The parts of an object, in INDEX order (R386). -/
def partsOf (l : List JRec) (id : Nat) : List JRec :=
  let ps := (ofType 0x08 l).filter (fun r => payAt r 0 8 = id)
  (List.range (ps.length)).filterMap (fun i => ps.find? (fun r => payAt r 8 4 = i))

/-- The object a commit names, where it is complete and matches its digest (R386). -/
def objectOf (l : List JRec) (c : JRec) : Option (List Byte) :=
  let ps := partsOf l (payAt c 0 8)
  let d := ((ps.map (fun r => r.payload.drop 16)).flatten).take (payAt c 12 8)
  if ps.length = payAt c 8 4 ∧ d.length = payAt c 12 8 ∧ sha256 d = (c.payload.drop 20).take 32 then some d else none

/-- The complete Cameo commits, oldest first. -/
def cameoCommits (l : List JRec) : List JRec := (ofType 0x60 l).filter (fun c => (objectOf l c).isSome)

/-! ## Compaction (R385, R388) -/

/-- The newest records whose sizes stay within a bound, of a list oldest first. -/
def withinBytes (max : Nat) (l : List JRec) : List JRec :=
  (l.reverse.foldl (fun (a : List JRec × Nat) r =>
    if a.2 + recSize r ≤ max then (r :: a.1, a.2 + recSize r) else (a.1, max + 1)) ([], 0)).1

/-- Records of a type not older than an age in ns. -/
def youngerThan (now age ty : Nat) (l : List JRec) : List JRec := (ofType ty l).filter (fun r => now < r.stamp + age)

/-- The retention of a RECORDER record in ns (R402): by the interval it holds. -/
def State.evrKeep (s : State) (r : JRec) : Nat :=
  match payAt r 4 1 with
  | 0 => s.reg Reg.EVR_RET_1S * 1000000000
  | 1 => s.reg Reg.EVR_RET_1M * 60000000000
  | _ => s.reg Reg.EVR_RET_1H * 3600000000000

/-- The commits and records that compaction copies forward, PART records apart (R385). -/
def State.keptHeads (s : State) (l : List JRec) : List JRec :=
  let strOf (r : JRec) : Nat := payAt r 0 1
  lastN (if s.arb.pendingPolicy.isSome then 2 else 1) (ofType 0x10 l) ++ lastN 1 (ofType 0x11 l) ++
  lastN (if s.wiringNext.isSome then 2 else 1) (ofType 0x12 l) ++ lastN 1 (ofType 0x18 l) ++
  lastN 1 ((ofType 0x30 l).filter (fun r => strOf r = 0)) ++ lastN 1 ((ofType 0x30 l).filter (fun r => strOf r = 1)) ++
  lastN 16 (ofType 0x40 l) ++ withinBytes (8 * 2 ^ 20) (youngerThan s.now 3600000000000 0x50 l) ++
  withinBytes (4 * 2 ^ 20) (youngerThan s.now 86400000000000 0x51 l) ++ lastN 1024 (ofType 0x52 l) ++
  lastN 2 (cameoCommits l) ++ (ofType 0x70 l).filter (fun r => s.now < payAt r 8 8 + s.evrKeep r)

/-- The kept set in SEQ order (R385, R388). -/
def State.keptSet (s : State) (l : List JRec) : List JRec :=
  let heads := s.keptHeads l
  let ids := (heads.filter (fun r => r.ty = 0x12 || r.ty = 0x60)).map (fun r => payAt r 0 8)
  let parts := (ofType 0x08 l).filter (fun r => ids.contains (payAt r 0 8))
  (heads ++ parts).foldl insertRec []

/-- Compaction starts (R388): the segment is closed, CUT taken, and every kept record below it queued as a copy. -/
def execCompactionStart (t : Nat) (s : State) : Host.Outcome State Fault Refusal :=
  run t s fun s =>
    let due := s.jnl.compactReq || decide (s.reg Reg.JNL_COMPACT_AT * 4096 ≤ s.jnlLive * 1000)
    if s.bit Reg.JNL_STS 0 && s.jnl.compact.isNone && due && s.jnl.prog.isNone then
      let cut := s.reg Reg.JNL_SEQ
      let kept := s.keptSet (s.jnlRecs.filter (fun r => r.seq < cut))
      let s := s.setBit Reg.JNL_STS 1 true
      let s := { s with jnl := { s.jnl with compact := some (cut, s.jnl.gen + 1), compactReq := false, pages := 4 } }
      s.forAll kept (fun s r => s.jnlPut { r with copy := true })
    else s

/-- Every copy is programmed and with it the COMPACT_COMMIT (R388): the segments below the BEGIN are released. -/
def execCompactionCommit (t : Nat) (s : State) : Host.Outcome State Fault Refusal :=
  run t s fun s =>
    match s.jnl.compact with
    | none => s
    | some (_, g) =>
      if s.jnl.prog.isSome || s.jnl.queue.any (fun e => e.item.copy) then s else
      let s := (s.setBit Reg.JNL_STS 1 false).inc Reg.JNL_COMPACT_CNT
      ({ s with jnl := { s.jnl with
        compact := none, first := g, log := s.jnl.log.filter (fun x => g ≤ x.1) } }).jnlShow

/-- COMPACT asks for a compaction; none while COMPACTING (R403). -/
def jnlCtlEff (s : State) (v : Nat) : State :=
  if bitOf v 1 && !s.bit Reg.JNL_STS 1 then { s with jnl := { s.jnl with compactReq := true } } else s

/-- A write of JNL_CTL.COMPACT (R388, R403). -/
def execJnlCtlCompact (t : Nat) (w : Writer) (s : State) : Host.Outcome State Fault Refusal :=
  run t s fun s => s.ownWrite w Reg.JNL_CTL (s.reg Reg.JNL_CTL % 2 + 2) anyValue jnlCtlEff

/-- A write of JNL_CTL.ENABLE (R403). -/
def execJnlCtlEnable (t : Nat) (w : Writer) (on : Bool) (s : State) : Host.Outcome State Fault Refusal :=
  run t s fun s => s.ownWrite w Reg.JNL_CTL (b2n on) anyValue jnlCtlEff

/-! ## Brown-out (R390 to R392) -/

/-- Both supplies have fallen (R390, R391): T_hold is shown; the open page is closed, the loss is queued as a FAULT event, and
queued PART, RECORDER and AUDIT records are dropped and counted. -/
def execBrownout (t holdUs : Nat) (s : State) : Host.Outcome State Fault Refusal :=
  run t s fun s =>
    if s.pw.kaOk || s.pw.mainOk then s else
    let s := s.setReg Reg.JNL_HOLDUP (min holdUs (2 ^ 32 - 1))
    let dropped (e : JEnt) : Bool := e.item.ty = 0x08 || spareType e.item.ty
    let n := (s.jnl.queue.filter dropped).length
    let s := if n = 0 then s else s.addCnt Reg.JNL_REFUSED n
    let s := { s with jnl := { s.jnl with queue := s.jnl.queue.filter (fun e => !dropped e) } }
    if s.bit Reg.EVT_CTL 0 then
      let e := s.evRec 0xC0 sevFault 0x00A1 0 3 0 0 0
      s.jnlAdd false ⟨0x51, false, 0xC0, evBytes e⟩
    else s

/-- The Pocket slot of a record (R385, R392); EVENT records only of class FAULT. -/
def pocketSlot (r : JRec) : Option (Fin 4) :=
  if r.ty = 0x30 then some (if payAt r 0 1 = 0 then 0 else 1)
  else if r.ty = 0x52 then some 2
  else if r.ty = 0x51 ∧ payAt r 11 1 = 2 then some 3
  else none

/-- A queued record that cannot be programmed goes to its Pocket slot, or is lost (R390). -/
def execPocketDivert (t holdUs : Nat) (s : State) : Host.Outcome State Fault Refusal :=
  run t s fun s =>
    if s.pw.kaOk || s.pw.mainOk || decide (1800 ≤ holdUs) then s else
    let s := s.setReg Reg.JNL_HOLDUP holdUs
    match s.jnl.queue with
    | [] => s
    | e :: rest =>
      let s := { s with jnl := { s.jnl with queue := rest } }
      match pocketSlot e.item with
      | some k =>
        if 500 ≤ holdUs then
          let s := { s with jnl := { s.jnl with pocket := s.jnl.pocket.set k (some e.item) } }
          (s.inc Reg.JNL_POCKET_CNT).setBit Reg.JNL_STS 3 true
        else s.inc Reg.JNL_POCKET_LOST
      | none => s.inc Reg.JNL_POCKET_LOST

/-! ## Copies of the audit ring and of learned values (R39, R273) -/

/-- The 32 bytes of a write-audit entry (R38). -/
def audBytes (e : AudRec) : List Byte :=
  let b := leBytes 8 e.stamp.toNat ++ leBytes 2 e.src.toNat ++ [e.qual, e.path] ++ leBytes 4 e.addr.toNat ++
    leBytes 8 e.value.toNat ++ leBytes 4 e.wrSeq.toNat ++ leBytes 2 (b2n e.wide + 2 * b2n e.rejected + 4 * b2n e.pulse)
  b ++ leBytes 2 (crc16 b).toNat

/-- Nugen copies the audit ring into the journal (R39): the entries since the last copy. -/
def execAuditJournalCopy (t : Nat) (s : State) : Host.Outcome State Fault Refusal :=
  run t s fun s =>
    if !s.baseUp || s.aud.sinceCopy = 0 then s else
    let l := lastN s.aud.sinceCopy s.aud.ring
    let s := { s with aud := { s.aud with sinceCopy := 0 } }
    s.forAll (pieces 511 ((l.length + 510) / 511) l) (fun s p => s.jnlAdd true ⟨0x50, false, 0x7000, (p.map audBytes).flatten⟩)

/-- The LEARNED record of a string (R273): the string, 240 cells of eight values, which the Pattern alone holds, the anchor's
stamp, its sigma and throughput, and the Bead serials (log 37). -/
def State.learnedPayload (s : State) (x : Fin 2) : List Byte :=
  let cells := ((List.range 1920).map (fun i => leBytes 4 (Config.freeValue s.free i))).flatten
  let head := leBytes 4 x.val
  let c : CtcSt := s.ctc[x]
  let l : LoopSt := s.loop[x]
  let anchor := leBytes 8 c.anchorAt ++ leBytes 4 (c.anchorSigma.getD 0) ++ leBytes 4 (Config.freeValue s.free 1920)
  head ++ anchor ++ fitBytes 140 ((l.bead.toList.map (fun b => leBytes 8 b.serial.toNat)).flatten) ++ cells

/-- A string's learned values are journalled every hour, and at once when a capacity has moved (R273). -/
def execLearnedJournal (t : Nat) (x : Str) (s : State) : Host.Outcome State Fault Refusal :=
  run t s fun s =>
    let n : Fin 2 := match x with | .A => 0 | .B => 1
    let c : CtcSt := s.ctc[n]
    if s.blk 0x10 = stRunning && (c.journalDue || decide (c.learnedAt + 3600000000000 ≤ s.now)) then
      let s := { s with ctc := s.ctc.set n { c with learnedAt := s.now, journalDue := false } }
      let p := s.learnedPayload n
      ({ s with free := s.free + 1 }).jnlAdd false ⟨0x30, false, 0x10, p⟩
    else s

/-! ## The mirror (R340, R383) -/

/-- The standby acknowledges a record (R340). -/
def execJournalMirrorAck (t seq : Nat) (s : State) : Host.Outcome State Fault Refusal :=
  run t s fun s =>
    if !s.slkUp then s else
    let s := { s with jnl := { s.jnl with unacked := s.jnl.unacked.filter (fun q => q ≠ seq) } }
    let top := max (s.reg Reg.SLK_JNL_ACK_SEQ) (seq % 2 ^ 32)
    ((s.setReg Reg.SLK_JNL_LAG s.jnl.unacked.length).setReg Reg.SLK_JNL_ACK_SEQ top).ackRecords

/-- The standby stores a record of the owner byte for byte (R340, R383); a LOCAL record with that SEQ gives way. -/
def execJournalMirrorRx (t : Nat) (r : JRec) (s : State) : Host.Outcome State Fault Refusal :=
  run t s fun s =>
    if s.isOwner || !s.slkUp then s else
    let s := { s with jnl := { s.jnl with
      queue := s.jnl.queue.filter (fun e => !(e.item.isLocal && e.item.seq = r.seq)),
      log := s.jnl.log.filter (fun x => !(x.2.isLocal && x.2.seq = r.seq)) } }
    (s.jnlPut r).setReg Reg.JNL_SEQ (max (s.reg Reg.JNL_SEQ) (r.seq + 1))

/-- A record of the standby's own arrives at the owner, which sequences it and mirrors it back (R383). -/
def execPeerJournalRecordRx (t : Nat) (r : JNew) (s : State) : Host.Outcome State Fault Refusal :=
  run t s fun s => if s.isOwner && s.slkUp then s.jnlAdd (spareType r.ty) r else s

/-! ## Cameos (R395, R396) -/

/-- The staging area of group 15 and the most a Cameo holds. -/
def stagingAddr : Nat := 0x003D000000
def cameoMax : Nat := 8 * 2 ^ 20

/-- The persistent regions of the running Pattern. -/
def State.keepRegions (s : State) : List (Nat × Nat) :=
  match s.runningPat with
  | some p => (p.regions.filter (fun r => r.2.2)).map (fun r => (r.1, r.2.1))
  | none => []

/-- A length rounded up to a granule. -/
def granules (n : Nat) : Nat := (n + 63) / 64 * 64

/-- Bytes the persistent regions take, each starting on a granule. -/
def State.keepBytes (s : State) : Nat := (s.keepRegions.map (fun r => granules r.2)).foldl (· + ·) 0

/-- In a body: at slot 0 the regions are frozen; by the body of slot 50 they stand in the staging area (R395). -/
def State.cameoFreeze (s : State) : State :=
  let slot := s.now / 10000 % 100
  let s := if s.blk 0x10 = stRunning then s else { s with jnl := { s.jnl with spoilt := true } }
  match s.runningPat with
  | none => s
  | some p =>
    if cameoMax < s.keepBytes then (s.setBit Reg.JNL_STS 6 true) else
    let s := s.setBit Reg.JNL_STS 6 false
    if slot = 0 then
      let d := (s.keepRegions.map (fun r => fitBytes (granules r.2) (s.bytes r.1 r.2))).flatten
      { s with jnl := { s.jnl with
        spoilt := false,
        snap := some ⟨p.id.toNat, p.layout.toNat, s.now / 1000000, s.actBank.variant, s.keepRegions.map (·.2), d⟩ } }
    else if slot = 50 then
      match s.jnl.snap with
      | some c => s.putBytes stagingAddr c.data
      | none => s
    else s

/-- A captured Cameo's commit fields after those of R386 (R396): PATTERN_ID, LAYOUT_ID, plan frame, variant and the lengths. -/
def cameoExtra (c : CameoSt) : List Byte :=
  leBytes 16 c.pattern ++ leBytes 16 c.layout ++ leBytes 8 c.frame ++ leBytes 8 c.variant ++
    (c.lens.map (leBytes 8)).flatten

/-- The controller captures the staging area at every plan frame whose number mod 10,000 is 0, from slot 50 on; an incomplete
or spoilt capture is abandoned and counted (R395). -/
def execCameoCapture (t : Nat) (complete : Bool) (s : State) : Host.Outcome State Fault Refusal :=
  run t s fun s =>
    let p := s.now / 1000000
    if p % 10000 ≠ 0 ∨ s.now / 10000 % 100 < 50 ∨ !s.baseUp ∨ s.bit Reg.JNL_STS 6 then s else
    match s.jnl.snap with
    | none => s
    | some c =>
      let same := s.actBank.variant = c.variant && (s.runningPat.map (fun q => q.id.toNat)) = some c.pattern
      let s := { s with jnl := { s.jnl with snap := none } }
      if complete && !s.jnl.spoilt && same && decide (c.frame = p) && s.blk 0x10 = stRunning && !s.jnlCrit then
        s.jnlObject 0x60 0xC0 true (s.bytes stagingAddr c.data.length) (cameoExtra c)
      else s.inc Reg.JNL_CAMEO_SKIP

/-- Every 10,000 plan frames each string's charge count is latched; the last three stay (R397). -/
def State.chargeLatch (s : State) : State :=
  let p := s.now / 1000000
  if p % 10000 = 0 then { s with jnl := { s.jnl with latches := lastN 3 (s.jnl.latches ++ [(p, s.jnl.charge)]) } } else s

/-! ## The event recorder (R399 to R402) -/

/-- BINS, LO and WIDTH (FP32 codes) of a channel (R399). -/
def evrChannel (c : Nat) : Nat × Nat × Nat :=
  if c = 0 then (256, 0x42300000, 0x3D4CCCCD)
  else if c ≤ 48 then (64, 0xC2200000, 0x3FA00000)
  else if c ≤ 50 then (256, 0xC2200000, 0x3F000000)
  else if c = 51 then (256, 0xC3C80000, 0x42200000)
  else if c = 52 then (64, 0, 0x3F800000)
  else (64, 0, 0x40A00000)

/-- Length of an interval in ns (R400). -/
def evrLen : Nat → Nat
  | 0 => 1000000000
  | 1 => 60000000000
  | _ => 3600000000000

/-- The bytes of a recorder record (R401); the extremes of an interval without samples are open. -/
def evrBytes (free : Nat) (r : EvrRec) : List Byte :=
  let c := evrChannel r.channel
  let ext (p : Nat) (o : Option (Nat × Nat)) : Nat × Nat := o.getD (Config.freeValue free p, Config.freeValue free (p + 1))
  let lo := ext (4 * r.channel) r.least
  let hi := ext (4 * r.channel + 2) r.most
  let b := leBytes 4 0x52564551 ++ leBytes 1 r.interval ++ leBytes 1 r.channel ++ leBytes 2 c.1 ++ leBytes 8 r.start ++
    leBytes 4 c.2.1 ++ leBytes 4 c.2.2 ++ leBytes 4 r.count ++ leBytes 4 r.under ++ leBytes 4 r.ovr ++ leBytes 4 r.nan ++
    leBytes 4 lo.1 ++ leBytes 4 hi.1 ++ leBytes 8 lo.2 ++ leBytes 8 hi.2 ++ leBytes 2 r.src.1 ++ leBytes 2 r.src.2 ++
    leBytes 4 r.flags ++ ((List.range c.1).map (fun i => leBytes 4 ((sparseFind r.bins i).getD 0))).flatten
  b ++ leBytes 4 (crc32c b).toNat

/-- MIN_SRC and MAX_SRC (R399): the brick; the Bead temperature input, which the set does not hold (open, log 38); else 0. -/
def evrSrc (free c : Nat) : Nat × Nat :=
  if 1 ≤ c ∧ c ≤ 48 then (c - 1, c - 1)
  else if c = 49 ∨ c = 50 then (Config.freeValue free (1000 + c), Config.freeValue free (2000 + c))
  else (0, 0)

/-- Keep a record and drop what its interval's retention no longer covers (R402). -/
def State.evrPut (s : State) (l : List EvrRec) : State :=
  let old (r : EvrRec) : Bool :=
    let n := if r.interval = 0 then s.reg Reg.EVR_RET_1S else if r.interval = 1 then s.reg Reg.EVR_RET_1M
      else s.reg Reg.EVR_RET_1H
    decide (r.start + (n + 1) * evrLen r.interval ≤ s.now)
  { s with jnl := { s.jnl with evr := s.jnl.evr.filter (fun r => !old r) ++ l } }

/-- Journal the records of an interval in two RECORDER records (R401). -/
def State.evrJournal (s : State) (l : List EvrRec) : State :=
  let f := s.free
  let s := { s with free := f + 1 }
  let half (g : EvrRec → Bool) : List Byte := ((l.filter g).map (evrBytes f)).flatten
  let s := s.jnlAdd true ⟨0x70, false, 0x7000, half (fun r => r.channel < 27)⟩
  let s := s.jnlAdd true ⟨0x70, false, 0x7000, half (fun r => 27 ≤ r.channel)⟩
  s.addCnt Reg.EVR_REC_CNT l.length

/-- Each second the sets are read and journalled; seconds without a record are counted (R400). -/
def execRecorder1s (t : Nat) (s : State) : Host.Outcome State Fault Refusal :=
  run t s fun s =>
    let stop := s.now / 1000000000 * 1000000000
    let start := stop - 1000000000
    let last := s.reg Reg.EVR_LAST_1S
    if !s.bit Reg.EVR_CTL 0 ∨ !s.baseUp ∨ s.blk 0x10 ≠ stRunning ∨ stop = 0 ∨ (start ≤ last ∧ last ≠ 0) then s else
    let gap := if last = 0 then 0 else (start - last) / 1000000000 - 1
    let s := if gap = 0 then s else (s.addCnt Reg.EVR_GAP_CNT gap).setBit Reg.EVR_STS 1 true
    let part := last = 0 ∨ gap ≠ 0
    let l := (List.range 54).map (fun c =>
      let h : HstSet := (sparseFind s.eng.hst c).getD ⟨[], 0, 0, 0, 0, none, none⟩
      (⟨0, c, start, h.count, h.under, h.ovr, h.nan, h.least, h.most, evrSrc s.free c, b2n part, h.bins⟩ : EvrRec))
    let s := { s with eng := { s.eng with hst := s.eng.hst.filter (fun x => 54 ≤ x.1) } }
    let s := ((s.setReg Reg.EVR_LAST_1S start).setBit Reg.EVR_STS 0 true).evrPut l
    s.evrJournal l

/-- The lesser of two stamped extremes by a comparison of FP32 codes, the earlier stamp winning a tie. -/
def evrBest (better : Fv → Fv → Bool) (a b : Option (Nat × Nat)) : Option (Nat × Nat) :=
  match a, b with
  | none, y => y
  | x, none => x
  | some x, some y =>
    if better (f32 y.1) (f32 x.1) then some y
    else if better (f32 x.1) (f32 y.1) then some x
    else if y.2 < x.2 then some y else some x

/-- Add bins with saturation. -/
def evrBins (a b : List (Nat × Nat)) : List (Nat × Nat) :=
  b.foldl (fun l x => sparseIns (sparseErase l x.1) x.1 (satAdd 32 ((sparseFind l x.1).getD 0) x.2)) a

/-- Join a record into the derived one (R400). -/
def evrJoin (a r : EvrRec) : EvrRec :=
  let least := evrBest (fun x y => x.lt y) a.least r.least
  let most := evrBest (fun x y => y.lt x) a.most r.most
  { a with
    count := satAdd 32 a.count r.count, under := satAdd 32 a.under r.under, ovr := satAdd 32 a.ovr r.ovr,
    nan := satAdd 32 a.nan r.nan, least := least, most := most,
    src := (if least = a.least then a.src.1 else r.src.1, if most = a.most then a.src.2 else r.src.2),
    flags := a.flags ||| (r.flags &&& 3), bins := evrBins a.bins r.bins }

/-- The records of one derived interval from those of the interval below (R400); a missing one gives GAP. -/
def deriveEvr (l : List EvrRec) (interval start : Nat) : List EvrRec :=
  let src := l.filter (fun r => r.interval + 1 = interval && start ≤ r.start && decide (r.start < start + evrLen interval))
  let ch (c : Nat) : Option EvrRec :=
    match src.filter (fun r => r.channel = c) with
    | [] => none
    | x :: rest =>
      let y := rest.foldl evrJoin { x with interval := interval, start := start, flags := x.flags &&& 3 }
      some { y with flags := (y.flags ||| 4) ||| (if rest.length = 59 then 0 else 2) }
  if src.isEmpty then [] else (List.range 54).filterMap ch

/-- Nugen derives the 1 min and 1 h records that are due (R400). -/
def execRecorderDerive (t : Nat) (s : State) : Host.Outcome State Fault Refusal :=
  run t s fun s =>
    if !s.bit Reg.EVR_CTL 0 || !s.baseUp then s else
    s.forAll [1, 2] (fun s k =>
      let stop := s.now / evrLen k * evrLen k
      let start := stop - evrLen k
      if stop = 0 ∨ s.jnl.evr.any (fun r => r.interval = k && r.start = start) then s else
      let l := deriveEvr s.jnl.evr k start
      if l.isEmpty then s else (s.evrPut l).evrJournal l)

end Sys2Proof.Machine
end

