-- ==== Sys2Proof/Machine/Clasp.lean ====
section
/-!
DEFINITION. Clasp and the slot link (R328 to R341, R344, R348, R349): the lease, the OWNER lines, gain and loss of ownership,
contests, yields, the standby's readiness, and the mirrors.
-/
namespace Sys2Proof.Machine

/-- The page of Clasp and the page of the slot link. -/
def clpPg : Nat := 0x111
def slkPg : Nat := 0x114

/-! ## What a module shows (R348) -/

/-- A trip or a stuck line is latched (R339). -/
def State.faultLatched (s : State) : Bool :=
  s.fld Reg.PRT_STS 8 8 ≠ 0 || s.reg Reg.BDS_TRIP_STS ≠ 0 || s.bit Reg.CLP_STS 8

/-- Age bound of the newest complete Cameo in ns. -/
def State.cameoFresh (s : State) : Bool :=
  match (cameoCommits s.jnlRecs).getLast? with
  | some c => decide (s.now ≤ c.stamp + 20000000000)
  | none => false

/-- The Pattern store holds a Pattern with the PATTERN_ID of the owner's newest PATTERN_STATE record. -/
def State.storeMatches (s : State) : Bool :=
  match newestOf 0x18 s.jnlRecs with
  | some r => !s.seq.store.isEmpty && (readHdr (listSrc s.seq.store)).id = payAt r 0 16
  | none => false

/-- Is a standby READY (R339)? -/
def State.standbyReady (s : State) : Bool :=
  s.pulseUp && s.prt.pll && s.slkUp && s.bit Reg.SLK_STS 3 && s.bit Reg.SLK_STS 4 &&
  (match s.clp.planAt with
    | some p => decide (s.now ≤ p + 2000000)
    | none => false) &&
  !s.bit Reg.CLP_CTL 2 && !s.faultLatched && !s.jnl.resync && decide (s.jnl.queue.length ≤ 256) && s.cameoFresh &&
  s.storeMatches

/-- The ROLE a module sends (R328): a standby's by its readiness. -/
def State.roleSent (s : State) : Nat := if s.clp.role = 1 && s.standbyReady then 2 else s.clp.role

/-- The own line reads back as driven. -/
def State.ownLineOk (s : State) : Bool := s.clp.line == s.ownLine

/-- Has a path delivered a frame with a correct CRC within the last 10 us (R344)? -/
def State.pathLive (s : State) (at' : Nat) : Bool := at' ≠ 0 && decide (s.now ≤ at' + 10000)

/-- CLP_STS follows the lease and the lines (R348); STUCK, WIRE_FAULT and YIELD_FAILED are set where they arise. -/
def State.clpShow (s : State) : State :=
  let r := s.roleSent
  let a := if s.slotB then s.clp.peerLine else s.clp.line
  let b := if s.slotB then s.clp.line else s.clp.peerLine
  let v := r % 8 + 8 * b2n a + 16 * b2n b + 32 * b2n s.clp.peerValid + 64 * b2n s.ownLineOk + 128 * b2n s.clp.contest +
    512 * b2n (r = 2) + 1024 * b2n (s.clp.peerRole = 2) + 4096 * b2n (s.pathLive s.clp.slkAt && s.bit Reg.SLK_CTL 0)
  let old := s.reg Reg.CLP_STS
  let keep := 256 * b2n (bitOf old 8) + 2048 * b2n (bitOf old 11) + 8192 * b2n (bitOf old 13)
  s.setReg Reg.CLP_STS (v + keep)

/-- Replace Clasp's record. -/
def State.updClp (s : State) (f : ClaspSt → ClaspSt) : State := { s with clp := f s.clp }

/-! ## Gain and loss (R334 to R337) -/

/-- An ownership transition: stamped, posted with the role now sent and the own EPOCH, and journalled (R334, R337, R385; the
record's layout is log 42). `cause`: 1 claim, 2 yield. -/
def State.ownership (s : State) (cause : Nat) : State :=
  let s := s.stampReg Reg.CLP_LAST_STAMP
  let e := s.reg Reg.CLP_EPOCH
  let s := s.post clpPg sevInfo 0x0083 s.clp.role cause e 0 0
  s.jnlAdd false ⟨0x52, false, clpPg, [BitVec.ofNat 8 s.clp.role] ++ leBytes 3 e ++ leBytes 8 s.now⟩

/-- Does a coil's string become one of the new owner's: its main feedback reads closed (R334)? -/
def State.adopts (s : State) (x : Fin 2) : Bool := s.bit (Reg.CTC_STS x) 6

/-- The coils of the strings that are closed are driven, and those strings run (R334). -/
def State.adoptStrings (s : State) : State :=
  s.forAll [(0 : Fin 2), 1] (fun s x =>
    if s.adopts x then
      let s := s.mainCoil x true
      if s.ctcState x = stFault then s else s.setCtc x stRunning
    else s)

/-- The enabled bricks of the running strings count as shed, and the gain as a step detected now (R334, R205, R206): the first
half start at the first pulse-period boundary once the bricks have seen the line for 2 us. -/
def State.gainBricks (s : State) : State :=
  let s := if s.pcmRuns then s.forAll allBricks (fun s b =>
      if s.bst b = stOff ∧ s.bit (Reg.PCM_CTL b) 0 ∧ !s.brickExcl b ∧ s.ctcState (strOf b) = stRunning then s.setBst b stRunning
      else s)
    else s
  let s := { s with pd := { s.pd with n := (0, 0), b0 := none, b0Min := s.now + 2150 } }
  s.pleat.stepDetect

/-- What a module does on taking control (R334): bricks, holdover, coils, floors, VM2 and VM3; and closes that are due (R235). -/
def State.takeControl (s : State) : State :=
  let s := s.adoptStrings.gainBricks
  let s := s.enterHoldover 2
  let s := { s with gov := { s.gov with selfSp := true } }
  let s := s.refreshFloors
  let s := s.forAll [(2 : Fin 4), 3] (fun s n => if s.bit (Reg.VMC_CTL n) 0 ∧ s.vmst n = stOff then s.vmStart n else s)
  s.forAll [(0 : Fin 2), 1] (fun s x =>
    if s.bit (Reg.CTC_CTL x) 0 ∧ s.ctcState x = stOff then s.closeOrRefuse x else s)

/-- A gain of ownership (R331, R334). `gap`: the instant since when control was interrupted, if any was observed. -/
def State.gain (s : State) (cause : Nat) (gap : Option Nat) : State :=
  let s := s.updClp (fun c => { c with
    role := 4, drive := true, line := true, guardAt := none, listenAt := none, yieldAt := none, yieldDue := none,
    recordOwner := true, timerAt := s.now, restoreAt := some s.now, restoreLate := [], patTries := 0, cameoAt := none })
  let s := if cause = 1 then s.inc Reg.CLP_CLAIM_CNT else s
  let s := match gap with
    | some g => s.setReg Reg.CLP_GAP_MAX (max (s.reg Reg.CLP_GAP_MAX) (min (s.now - g) (2 ^ 32 - 1)))
    | none => s
  s.takeControl.ownership cause

/-- A module gives up its line and its outputs (R235, R332, R337). -/
def State.release (s : State) (role : Nat) : State :=
  (s.updClp (fun c => { c with role := role, drive := false, line := false, lostAt := s.now, yieldDue := none })).dropOutputs

/-- May the module claim at all: not barred, its checker passing, its life cycle allowing it, its line not stuck (R331, R334,
R338, R378)? -/
def State.mayClaim (s : State) : Bool :=
  s.pulseUp && !s.bit Reg.CLP_CTL 2 && lcOwn s.lc && !(s.bit Reg.CLP_STS 8 && !s.clp.recordOwner)

/-- A guard begins (R331): the module sends CLAIMING where it may claim. -/
def State.guardBegin (s : State) (afterYield : Bool) : State :=
  s.updClp (fun c => { c with
    guardAt := some s.now, guardHeard := false, guardYield := afterYield, listenAt := none,
    role := if s.mayClaim then 3 else c.role })

/-- A claim ends without ownership: standby again, listening (R331, R338). -/
def State.guardCancel (s : State) : State :=
  s.updClp (fun c => { c with guardAt := none, role := 1, listenAt := some s.now })

/-! ## Sending (R328, R329) -/

/-- The 48 bits of a Clasp frame (R328); the CRC runs over the five bytes of [39:0], lowest first. -/
def State.claspFrame (s : State) : BitVec 48 :=
  let v := 11 + 16 * b2n s.slotB + 32 * (s.roleSent % 8) + 256 * (s.reg Reg.CLP_EPOCH % 2 ^ 24) + 2 ^ 32 * b2n s.baseUp +
    2 ^ 33 * b2n s.planCovers + 2 ^ 34 * b2n s.ownLineOk + 2 ^ 35 * b2n s.clp.contest
  BitVec.ofNat 48 (v + 2 ^ 40 * (crc8 (leBytes 5 v)).toNat)

/-- Does the lease checker pass (R329)? Instance 4 met its deadline in its last sample where it has no miss to its name. -/
def State.leaseCheck (s : State) (c : CheckerIn) : Bool :=
  s.prt.pll && (sparseFind s.cle.missRun 4).getD 0 = 0 && c.selfTest && c.supplyOk && c.memOk

/-- The power-stage outputs low (R329): bricks and channels stop, the coils are not driven until the checker passes. -/
def State.outputsLow (s : State) : State :=
  s.forAll allBricks (fun s b => if s.pd.brick[b].on then s.updBrick b (fun x => { x with on := false, armed := false }) else s)

/-- Every microsecond the module sends its frame; EPOCH advances, and retriggers the hold timer, only if the checker passed. -/
def execClaspFrameSend (c : CheckerIn) (s : State) : Host.Outcome State Fault Refusal :=
  runGrid 1000 s.grid.clasp (fun g n => { g with clasp := n }) s fun s =>
    if !s.pulseUp then s else
    let ok := s.leaseCheck c
    let low := if s.clp.contest && !c.peerRead then some (s.clp.contestPeerLow.getD s.now) else none
    let s := s.updClp (fun x => { x with checkOk := ok, line := c.ownRead, peerLine := c.peerRead, contestPeerLow := low })
    let s := if ok then
        (s.setReg Reg.CLP_EPOCH ((s.reg Reg.CLP_EPOCH + 1) % 2 ^ 24)).updClp (fun x => { x with timerAt := s.now })
      else s.outputsLow
    let s := s.clpShow
    s.updClp (fun x => { x with txFrame := s.claspFrame })

/-! ## Receiving (R330, R331) -/

/-- A field of a frame. -/
def cfr (f : BitVec 48) (lo w : Nat) : Nat := fieldOf f.toNat lo w

/-- SYNC and CRC of a frame are right. -/
def claspOk (f : BitVec 48) : Bool := cfr f 0 4 = 11 && (crc8 (leBytes 5 (f.toNat % 2 ^ 40))).toNat = cfr f 40 8

/-- By how much an EPOCH exceeds another, modulo 2^24. -/
def epochAhead (e last : Nat) : Nat := (e + 2 ^ 24 - last % 2 ^ 24) % 2 ^ 24

/-- A frame that the other path has brought already: it advances on its own path and not beyond the last EPOCH received. -/
def State.duplicate (s : State) (p : ClaspPath) (e : Nat) : Bool :=
  let last := match p with
    | .wire => s.clp.wireEpoch
    | .slot => s.clp.slkEpoch
  let own := epochAhead e last
  0 < own && own ≤ 6 && epochAhead s.clp.peerEpoch e ≤ 6

/-- Note which path a frame with a correct CRC came by (R344, R348). -/
def State.pathHeard (s : State) (p : ClaspPath) (e : Nat) : State :=
  match p with
  | .wire => (s.setBit Reg.CLP_STS 11 false).updClp (fun c => { c with wireAt := s.now, wireEpoch := e })
  | .slot => s.updClp (fun c => { c with slkAt := s.now, slkEpoch := e })

/-- What a frame says of its sender. -/
def State.peerSays (s : State) (f : BitVec 48) : State :=
  (s.setReg Reg.CLP_PEER_EPOCH (cfr f 8 24)).updClp (fun c => { c with
    peerRole := cfr f 5 3, peerEpoch := cfr f 8 24, peerBase := cfr f 32 1 = 1, peerPlan := cfr f 33 1 = 1,
    peerLineOk := cfr f 34 1 = 1, peerContest := cfr f 35 1 = 1, peerSeen := s.now })

/-- A renewal (R330, R331, R338): the peer's lease is valid; a claim or a listening of this module ends in standby, and so does
a yield. -/
def State.renewed (s : State) : State :=
  s.updClp (fun c => { c with
    peerValid := true, renewAt := s.now, peerLapsed := false, guardHeard := true, listenAt := none,
    yieldAt := if c.role = 5 then none else c.yieldAt, recordOwner := c.recordOwner && c.role = 4,
    role := if c.role = 5 then 1 else c.role })

/-- What a frame's ROLE does to this module's own claim (R331, R337, R338): CLAIMING or OWNER restarts the listening time; slot
B gives way to slot A; a yielding module hears the claim it waits for. -/
def State.roleHeard (s : State) (role : Nat) : State :=
  let owns := role = 3 || role = 4
  let s := if owns && s.clp.listenAt.isSome then s.updClp (fun c => { c with listenAt := some s.now }) else s
  let s := if owns && s.slotB then s.updClp (fun c => { c with guardHeard := true }) else s
  let s := if role = 3 && s.slotB && s.clp.role = 3 then s.guardCancel else s
  if role = 3 && s.clp.role = 5 then s.updClp (fun c => { c with yieldAt := none }) else s

/-- A YIELDING frame ends the sender's lease and begins a guard (R330, R331). -/
def State.peerYields (s : State) : State :=
  let s := s.updClp (fun c => { c with peerValid := false, peerLapsed := true })
  if s.clp.role = 1 ∧ s.clp.guardAt.isNone then s.guardBegin true else s

/-- A frame of the peer arrives (R330). -/
def State.claspRx (s : State) (p : ClaspPath) (f : BitVec 48) : State :=
  if !claspOk f then
    let s := s.inc Reg.CLP_CRC_ERR
    match p with
    | .wire => s.updClp (fun c => { c with wireErr := c.wireErr + 1 })
    | .slot => s.updClp (fun c => { c with slkErr := c.slkErr + 1 })
  else
    let e := cfr f 8 24
    let role := cfr f 5 3
    let dup := s.duplicate p e
    let ahead := epochAhead e s.clp.peerEpoch
    let takes := role = 4 && (s.clp.peerLapsed || (1 ≤ ahead && ahead ≤ 6))
    let s := s.pathHeard p e
    if dup then s else
    let s := if !takes && (ahead = 0 || 2 ^ 23 ≤ ahead) then s.inc Reg.CLP_STALE_CNT else s
    let s := s.peerSays f
    let s := s.roleHeard role
    let s := if takes then s.renewed else s
    if role = 5 then s.peerYields else s

/-- A Clasp frame arrives by the wire or, with SLK_CTL.ENABLE set, by the slot link (R330, R349). -/
def execClaspFrameRx (t : Nat) (p : ClaspPath) (f : BitVec 48) (s : State) : Host.Outcome State Fault Refusal :=
  run t s fun s =>
    if !s.pulseUp || (p == .slot && !s.bit Reg.SLK_CTL 0) then s else (s.claspRx p f).clpShow

/-- The peer's lease expires 6 us after its last renewal, and the guard begins (R330). -/
def execLeaseExpire (t : Nat) (s : State) : Host.Outcome State Fault Refusal :=
  run t s fun s =>
    if s.pulseUp && s.clp.peerValid && decide (s.clp.renewAt + 6000 ≤ s.now) then
      let s := s.updClp (fun c => { c with peerValid := false, peerLapsed := true })
      (if s.clp.role = 1 ∧ s.clp.guardAt.isNone then s.guardBegin false else s).clpShow
    else s

/-- Do the conditions of R331 hold, the checks of the guard aside? -/
def State.claimHolds (s : State) : Bool := s.mayClaim && s.clp.checkOk && !s.clp.peerLine && !s.clp.peerValid

/-- The guard ends (R331): the module asserts its line, or is a standby again. -/
def execGuardEnd (t : Nat) (s : State) : Host.Outcome State Fault Refusal :=
  run t s fun s =>
    match s.clp.guardAt with
    | none => s
    | some g =>
      if s.now < g + 2000 then s else
      if s.claimHolds && !s.clp.guardHeard then
        (s.gain (if s.clp.guardYield then 2 else 1) (if s.clp.renewAt = 0 then none else some s.clp.renewAt)).clpShow
      else s.guardCancel.clpShow

/-- The hold timer of the driver cell expires: the line drops (R332), and with it the outputs (R235). -/
def execOwnerHoldTimerExpire (t : Nat) (s : State) : Host.Outcome State Fault Refusal :=
  run t s fun s =>
    if s.clp.drive && decide (s.clp.timerAt + 4000 ≤ s.now) then
      ((s.release 1).updClp (fun c => { c with recordOwner := false })).stampReg Reg.CLP_LAST_STAMP |>.clpShow
    else s

/-! ## Yields (R337) -/

/-- The owner yields (R337): outputs at high impedance, its line released, YIELDING from now on. -/
def State.yieldNow (s : State) : State :=
  let s := (s.release 5).updClp (fun c => { c with yieldAt := some s.now, recordOwner := true })
  ((s.setBit Reg.CLP_STS 13 false).inc Reg.CLP_YIELD_CNT).ownership 2 |>.clpShow

/-- At a plan-frame boundary a yield that is due is made; never toward a peer that sees a contest. -/
def State.yieldBoundary (s : State) : State :=
  match s.clp.yieldDue with
  | none => s
  | some d =>
    if s.now < d then s
    else if s.clp.role = 4 && !s.clp.peerContest then s.yieldNow
    else s.updClp (fun c => { c with yieldDue := none })

/-- No claim by 100 us after the yield (R337): YIELD_FAILED, and ownership is taken back under R331. -/
def execYieldFail (t : Nat) (s : State) : Host.Outcome State Fault Refusal :=
  run t s fun s =>
    match s.clp.yieldAt with
    | none => s
    | some y =>
      if s.clp.role ≠ 5 || decide (s.now < y + 100000) then s else
      let s := s.setBit Reg.CLP_STS 13 true
      let s := s.post clpPg sevFault 0x0081 0 s.clp.yieldCause 0 0 0
      let s := s.updClp (fun c => { c with yieldAt := none })
      (if s.claimHolds then s.gain 1 (some y) else s.guardCancel).clpShow

/-! ## Stuck lines and contests (R334 to R336) -/

/-- A readback has differed from the drive for 2 us (R334). Stuck deasserted on an owner: it yields where the peer is a standby
whose own line is good. Stuck asserted: STUCK; an owner that was releasing it stays owner of record. -/
def execOwnerLineStuck (t : Nat) (asserted : Bool) (s : State) : Host.Outcome State Fault Refusal :=
  run t s fun s =>
    if !s.pulseUp || asserted == s.ownLine then s else
    let s := (s.setBit Reg.CLP_STS 8 true).updClp (fun c => { c with line := asserted })
    if asserted then s.clpShow
    else
      let ok := (s.clp.peerRole = 1 || s.clp.peerRole = 2) && s.clp.peerLineOk && !s.clp.peerContest && s.bit Reg.CLP_CTL 1
      if s.clp.role = 4 && ok then (s.updClp (fun c => { c with yieldCause := 4 })).yieldNow else s.refreshFloors.clpShow

/-- Both OWNER lines read asserted (R334, R335): CONTESTED; the outputs go to high impedance, and the module whose frames say OWNER
stays owner of record. -/
def execContestDetect (t : Nat) (s : State) : Host.Outcome State Fault Refusal :=
  run t s fun s =>
    if s.pulseUp && s.clp.line && s.clp.peerLine && !s.clp.contest then
      let own := s.clp.role = 4
      let s := s.updClp (fun c => { c with
        contest := true, contestPeerLow := none, recordOwner := own, guardAt := none, yieldDue := none, role := if c.role = 3 then 1 else c.role })
      ((s.inc Reg.CLP_CONTEST_CNT).dropOutputs).clpShow
    else s

/-- The peer's line has read deasserted for 10 ms (R336): the contest ends, and the owner of record takes control again; its
strings return through a fresh precharge, A first. -/
def execContestEnd (t : Nat) (s : State) : Host.Outcome State Fault Refusal :=
  run t s fun s =>
    match s.clp.contestPeerLow with
    | none => s
    | some a =>
      if !s.clp.contest || decide (s.now < a + 10000000) then s else
      let s := s.updClp (fun c => { c with contest := false, contestPeerLow := none })
      (if s.clp.recordOwner && s.clp.drive then s.takeControl else s).clpShow

/-- In a contest or with its line stuck, the owner of record floors one tray per plan frame while the bus power exceeds 95 % of
33 kW per rectifier in service (R335). -/
def State.contestFloor (s : State) : State :=
  let stopped := s.clp.contest || (s.bit Reg.CLP_STS 8 && !s.clp.line)
  if stopped && s.clp.recordOwner && s.drivesFloors && s.gov.lastFloor != some (s.now / 1000000) &&
      ((Fv.ofNat (33 * s.rectCount * 95)).div (Fv.ofNat 100)).lt (f32 (s.reg Reg.PLS_PLOAD)) then s.floorNext
  else s

/-! ## CLP_CTL (R336, R337, R348) -/

/-- Does a peer's frame say STANDBY_READY, and was it heard within the last 1 ms? -/
def State.peerReady (s : State) : Bool := s.clp.peerRole = 2 && decide (s.now < s.clp.peerSeen + 1000000)

/-- May a write of CLP_CTL be taken: HANDOVER on an owner with a READY peer; STUCK_CLR with the line reading right? -/
def clpCtlOk (s : State) (v : Nat) : Bool :=
  (!bitOf v 0 || (s.clp.role = 4 && s.peerReady)) && (!bitOf v 3 || s.ownLineOk)

/-- What a write of CLP_CTL does. -/
def clpCtlEff (s : State) (v : Nat) : State :=
  let s := if bitOf v 3 then s.setBit Reg.CLP_STS 8 false else s
  (if bitOf v 0 then s.yieldTrigger 1 false true else s).clpShow

/-- A write of CLP_CTL.STUCK_CLR (R336). -/
def execClpStuckClr (t : Nat) (w : Writer) (s : State) : Host.Outcome State Fault Refusal :=
  run t s fun s => s.ownWrite w Reg.CLP_CTL (s.fld Reg.CLP_CTL 1 2 * 2 + 8) clpCtlOk clpCtlEff

/-- A write of CLP_CTL.HANDOVER (R337). -/
def execClpHandover (t : Nat) (w : Writer) (s : State) : Host.Outcome State Fault Refusal :=
  run t s fun s => s.ownWrite w Reg.CLP_CTL (s.fld Reg.CLP_CTL 1 2 * 2 + 1) clpCtlOk clpCtlEff

/-! ## Start-up (R338) -/

/-- The listening time ends without a lease: the module sends CLAIMING, and the guard begins. -/
def execListenEnd (t : Nat) (s : State) : Host.Outcome State Fault Refusal :=
  run t s fun s =>
    match s.clp.listenAt with
    | none => s
    | some a =>
      if s.clp.role = 1 && !s.clp.peerValid && s.clp.guardAt.isNone && s.mayClaim &&
          decide (a + s.reg Reg.CLP_LISTEN * 1000000 ≤ s.now) then (s.guardBegin false).clpShow
      else s

/-! ## The slot link (R338 to R341, R344, R349) -/

/-- Are both serials in the same node entry of the plan in force (R339)? -/
def State.inPlan (s : State) (sn : Nat) : Bool :=
  match s.wiring, s.myEntry with
  | some l, some i =>
    let me := s.fx.serial.toNat
    (wirSnA l i = me && wirSnB l i = sn) || (wirSnB l i = me && wirSnA l i = sn)
  | _, _ => false

/-- A standby begins to copy the owner's journal (R341). -/
def State.resyncStart (s : State) : State :=
  { (s.setBit Reg.SLK_STS 7 true).setReg Reg.SLK_RESYNC_PCT 0 with jnl := { s.jnl with resync := true } }

/-- The identity check of the peer runs (R338, R339): order code and wiring plan. A peer of the other order code bars a module
that does not own (R5, R338); a standby whose link has come back copies the journal (R341, R383). -/
def execSlotLinkIdent (t : Nat) (p : PeerIdent) (s : State) : Host.Outcome State Fault Refusal :=
  run t s fun s =>
    if !s.pw.island && !s.baseUp || !s.bit Reg.SLK_CTL 0 then s else
    let same := p.order = s.ownCode
    let inP := s.inPlan p.serial.toNat
    let was := s.slkUp
    let s := ((s.setReg Reg.SLK_PEER_SN p.serial.toNat).setBit Reg.SLK_STS 3 same).setBit Reg.SLK_STS 4 inP
    let s := s.setFld Reg.SLK_STS 0 3 (if same then 4 else 5)
    let s := if !same && s.clp.role ≠ 4 then s.setBit Reg.CLP_CTL 2 true else s
    let s := if !same then s.post slkPg sevWarn 0x0001 0 1 0 0 0 else s
    (if same && !was && !s.isOwner then s.resyncStart else s).clpShow

/-- Is a mirrored plan whole, with a right CRC (R225)? -/
def planWhole (b : List Byte) : Bool := b.length = 576 && planCrcOk b

/-- A mirrored plan reaches the standby's plan buffer (R340): it is the plan it holds as current. -/
def execPlanMirror (t : Nat) (g : List Byte) (s : State) : Host.Outcome State Fault Refusal :=
  run t s fun s =>
    if s.isOwner || !s.slkUp || !s.pulseUp then s
    else if !planWhole g then s.inc Reg.SLK_RX_ERR
    else
      let s := ((s.setReg Reg.PLS_PLAN_FRAME (leAt g 0 8)).setBit Reg.PLS_STS 6 true).setBit Reg.SLK_STS 6 true
      let s := s.setReg Reg.SLK_PLAN_AGE 0
      let s := { s with gov := { s.gov with
        plan := some g, planMask := leAt g 0x10 4, ramp := leAt g 0x14 4, rectN := byteAt g 0x1C } }
      (s.updClp (fun c => { c with planAt := some s.now })).refreshFloors.clpShow

/-- On insertion the standby begins to copy the owner's journal (R341). -/
def execJournalResync (t : Nat) (s : State) : Host.Outcome State Fault Refusal :=
  run t s fun s => if s.isOwner || !s.slkUp || s.jnl.resync then s else s.resyncStart.clpShow

/-- May a write of SLK_CTL be taken (R349): RESYNC not on the owner, nor while a copy runs? -/
def slkCtlOk (s : State) (v : Nat) : Bool := !bitOf v 1 || (!s.isOwner && !s.jnl.resync)

/-- The slot link goes down: no mirrors, no slot-link path of the lease (R344, R349). -/
def State.slkDown (s : State) (link : Nat) : State :=
  let s := s.setReg Reg.SLK_STS (withField (withField (s.reg Reg.SLK_STS) 0 3 link) 3 5 0)
  ({ s with jnl := { s.jnl with unacked := [] } }.updClp (fun c => { c with slkAt := 0 }) |>.setReg Reg.SLK_JNL_LAG 0).ackRecords

/-- What a write of SLK_CTL does (R341, R349). -/
def slkCtlEff (s : State) (v : Nat) : State :=
  let s := if v % 2 = 0 then s.slkDown 6 else if s.fld Reg.SLK_STS 0 3 = 6 then s.setFld Reg.SLK_STS 0 3 0 else s
  (if bitOf v 1 && s.slkUp then s.resyncStart else s).clpShow

/-- A write of SLK_CTL.RESYNC (R349). -/
def execSlkResync (t : Nat) (w : Writer) (s : State) : Host.Outcome State Fault Refusal :=
  run t s fun s => s.ownWrite w Reg.SLK_CTL (s.reg Reg.SLK_CTL % 2 + 2) slkCtlOk slkCtlEff

/-- The journal copy completes (R341). -/
def execResyncDone (t : Nat) (s : State) : Host.Outcome State Fault Refusal :=
  run t s fun s =>
    if s.jnl.resync && s.slkUp then
      let s := ((s.setBit Reg.SLK_STS 7 false).setBit Reg.SLK_STS 5 true).setReg Reg.SLK_RESYNC_PCT 100
      ({ s with jnl := { s.jnl with resync := false } }).clpShow
    else s

/-- A write of SLK_CTL.ENABLE (R349). -/
def execSlkEnableWrite (t : Nat) (w : Writer) (v : Word) (s : State) : Host.Outcome State Fault Refusal :=
  run t s fun s => s.ownWrite w Reg.SLK_CTL v.toNat slkCtlOk slkCtlEff

/-- No frame of the peer for 1 ms (R344): PEER_ABSENT. -/
def execPeerAbsent (t : Nat) (s : State) : Host.Outcome State Fault Refusal :=
  run t s fun s =>
    if s.pulseUp && s.clp.peerSeen ≠ 0 && decide (s.clp.peerSeen + 1000000 ≤ s.now) then
      let s := s.updClp (fun c => { c with peerSeen := 0, peerRole := 0, peerContest := false, peerLineOk := false })
      (s.post clpPg sevWarn 0x0080 (b2n (!s.slotB)) 0 0 0 0).clpShow.ackRecords
    else s

/-- The slot link goes down (R344): the lease runs on the Clasp wires, and the standby is not ready. -/
def execSlotLinkDown (t : Nat) (s : State) : Host.Outcome State Fault Refusal :=
  run t s fun s => if s.fld Reg.SLK_STS 0 3 = 0 then s else (s.slkDown 0).clpShow

/-- A Clasp wire is broken while the other path still brings frames (R344). -/
def execClaspWireFault (t : Nat) (s : State) : Host.Outcome State Fault Refusal :=
  run t s fun s =>
    if s.pulseUp && !s.pathLive s.clp.wireAt && s.pathLive s.clp.slkAt then s.setBit Reg.CLP_STS 11 true else s

/-- The ages that the slot link shows (R349): microseconds since the last mirrored plan on a standby, milliseconds since the last
complete Cameo. -/
def State.slkAges (s : State) : State :=
  let s := match s.clp.planAt with
    | some p => if s.isOwner then s else s.setReg Reg.SLK_PLAN_AGE (min ((s.now - p) / 1000) (2 ^ 32 - 1))
    | none => s
  match (cameoCommits s.jnlRecs).getLast? with
  | some c => s.setReg Reg.SLK_CAMEO_AGE (min ((s.now - c.stamp) / 1000000) (2 ^ 32 - 1))
  | none => s

/-- The running Pattern as PATTERN_STATE records it: PATTERN_ID, variant, warm variant (0xFF: none), bank (log 43). -/
def State.patternState (s : State) : List Byte :=
  match s.runningPat with
  | some p => leBytes 16 p.id.toNat ++ [BitVec.ofNat 8 s.actBank.variant,
      BitVec.ofNat 8 (if s.inactBank.kind = .warm then s.inactBank.variant else 0xFF), BitVec.ofNat 8 s.actNo]
  | none => []

/-- At a plan-frame boundary the owner journals PATTERN_STATE where it has changed (R385). -/
def State.patternJournal (s : State) : State :=
  let p := s.patternState
  if s.isOwner && !p.isEmpty && (newestOf 0x18 s.jnlRecs).map (·.payload) ≠ some p &&
      !(s.jnl.queue.any (fun e => e.item.ty = 0x18 && e.item.payload = p)) then
    s.jnlAdd false ⟨0x18, false, 0x10, p⟩
  else s

end Sys2Proof.Machine
end

