-- ==== Sys2Proof/Machine/Hallmark.lean ====
section
/-!
DEFINITION. Hallmark (R170, R171, R279 to R305): request spans, the integration of frames, epochs and their records,
reconciliation, the Merkle root, headers, seals, release and archive.
-/
namespace Sys2Proof.Machine

/-- Hallmark's page. -/
def hmkPg : Nat := 0xA3

/-! ## Spans (R170, R171, R279, R298) -/

/-- The open request span of an endpoint with a SPAN_ID. -/
def State.openSpan (s : State) (n sid : Nat) : Option (Nat × SpanTag) :=
  s.hmk.spans.find? (fun x => x.2.ep = n && x.2.sid = sid && x.2.isOpen)

/-- Sum of an endpoint's open weights. -/
def State.openWeight (s : State) (n : Nat) : Nat :=
  (s.hmk.spans.filter (fun x => x.2.ep = n && x.2.isOpen)).foldl (fun a x => a + x.2.w) 0

/-- The lowest free request index, 128 to 4095 (R279). -/
def State.freeSpan (s : State) : Option Nat :=
  ((List.range 3968).map (· + 128)).find? (fun i => (s.span i).isNone)

/-- Set or drop what the Pattern keeps of a span. -/
def State.setTag (s : State) (i : Nat) (x : Option SpanTag) : State :=
  let l := sparseErase s.hmk.spans i
  { s with hmk := { s.hmk with spans := match x with
    | some y => sparseIns l i y
    | none => l } }

/-- A refused or ignored span event is counted (R171). -/
def State.spanRefused (s : State) (n : Fin 128) : State := s.updEp n (fun x => { x with cntSpan := x.cntSpan + 1 })

/-- OPEN (R171, R279): refused over the weight limit, for a reserved REQ_ID, for a SPAN_ID already open or without a free
index. `late`: it takes effect from the landing frame; `gap`: the span was opened under the failed owner (R300). -/
def State.spanOpen (s : State) (n : Fin 128) (sid w at' req : Nat) (late gap : Bool) : State :=
  if 0x8000 < s.openWeight n + w ∨ req = 0 ∨ req = 2 ^ 128 - 1 ∨ (s.openSpan n sid).isSome then s.spanRefused n
  else match s.freeSpan with
    | none => s.spanRefused n
    | some i =>
      let s := s.setSpan i (some ⟨n, at', none, w, 0, 0, 0, 0⟩)
      s.setTag i (some ⟨n, sid, req, w, true, 32 * b2n late + 8 * b2n gap⟩)

/-- CLOSE of a span that is open; any other is ignored (R171). -/
def State.spanClose (s : State) (n : Fin 128) (sid at' : Nat) (late : Bool) : State :=
  match s.openSpan n sid with
  | none => s.spanRefused n
  | some (i, x) =>
    let s := match s.span i with
      | some y => s.setSpan i (some { y with stop := some at' })
      | none => s
    s.setTag i (some { x with isOpen := false, flags := x.flags ||| (32 * b2n late) })

/-- WEIGHT of a span that is open, within the limit; it takes effect with the frame that begins at or after its instant. -/
def State.spanWeight (s : State) (n : Fin 128) (sid w at' : Nat) (late : Bool) : State :=
  match s.openSpan n sid with
  | none => s.spanRefused n
  | some (i, x) =>
    if 0x8000 < s.openWeight n - x.w + w then s.spanRefused n else
    let s := s.setTag i (some { x with w := w, flags := x.flags ||| (32 * b2n late) })
    { s with hmk := { s.hmk with weights := s.hmk.weights ++ [(at', (i, w))] } }

/-- One event of a SPAN flit (R170): late when it lands more than 200 us after its instant. -/
def State.spanEvent (s : State) (n : Fin 128) (b : List Byte) (i : Nat) : State :=
  let o := 0x18 + 32 * i
  let stamp := leAt b (o + 8) 8
  let late := decide (stamp + 200000 < s.now)
  let at' := if late then s.now / 10000 * 10000 else stamp
  let w := leAt b (o + 4) 2
  match byteAt b o with
  | 1 => s.spanOpen n (leAt b (o + 2) 2) w at' (leAt b (o + 16) 16) late (decide (stamp < s.hmk.gainAt))
  | 2 => s.spanClose n (leAt b (o + 2) 2) at' late
  | 3 => s.spanWeight n (leAt b (o + 2) 2) w at' late
  | _ => s.spanRefused n

/-- A SPAN flit (R170, R171). -/
def execStrandSpan (t : Nat) (p : Fin 32) (f : FlitIn) (s : State) : Host.Outcome State Fault Refusal :=
  run t s fun s => s.rxFlit p f 3 fun s ok =>
    let b := fitBytes 256 f.bytes
    if !ok || flitAgg b || s.blk 0x10 ≠ stRunning then s else
    s.forAll (List.range (min 7 (byteAt b 0x10))) (fun s i => s.spanEvent (epOf p (flitEp b)) b i)

/-! ## Integration (R280 to R283) -/

/-- K_r and U_r of a rail (R281). -/
def railCoefs (d : RailDesc) : Nat × Nat :=
  let acc := if d.acc = 0 then 1000 else d.acc
  ((((f32 d.vLsb).mul (f32 d.iLsb)).scale 64).nearest.toNat, min 65535 (cdiv (acc * 65536) 1000000 + 1))

/-- The landed sample of a frame: rail `r`, microsecond `k`; of duplicates the later. -/
def telemAt (l : List (Nat × (Nat × List Nat))) (n r k : Nat) : Option Nat :=
  match (l.filter (fun x => x.1 = n && x.2.1 = r / 6)).getLast? with
  | none => none
  | some x => let c := x.2.2.getD (10 * (r % 6) + k) 0x8000FFFF
    if c = 0x8000FFFF then none else some c

/-- Mark the spans of an index list. -/
def State.markTags (s : State) (l : List Nat) (flag : Nat) : State :=
  { s with hmk := { s.hmk with
    spans := s.hmk.spans.map (fun x => if l.contains x.1 then (x.1, { x.2 with flags := x.2.flags ||| flag }) else x) } }

/-- One sample is credited to the spans that cover it, or counted missing (R129, R280, R282). -/
def State.meterSample (s : State) (l : List (Nat × (Nat × List Nat))) (g n r k : Nat) (rails : List (Nat × RailDesc)) : State :=
  let hits := covering n (g * 10000 + k * 1000) s.eng.spans
  match sparseFind rails r, telemAt l n r k with
  | some d, some c =>
    let kr := railCoefs d
    let e : Int := (c % 65536 : Nat) * sext 16 (c / 65536) * (kr.1 : Int)
    let sp := countSpans (creditSpans false e kr.2 s.eng.spans (hits.take 16)) (hits.drop 16)
    ({ s with eng := { s.eng with spans := sp } }).markTags (hits.drop 16) 64
  | _, _ => { s with eng := { s.eng with spans := creditSpans true 0 0 s.eng.spans hits } }

/-- One endpoint's samples of a frame; spans of a QUARANTINED port are marked UNVERIFIED, and the first frame with samples
of an endpoint after a gain gives its G1 (R279, R299). -/
def State.meterEndpoint (s : State) (l : List (Nat × (Nat × List Nat))) (g : Nat) (n : Fin 128) : State :=
  let x := s.ep[n]
  let s := if (s.span n).isNone then s.setSpan n (some ⟨n, g * 10000, none, 0x8000, 0, 0, 0, 0⟩) else s
  let s := (List.range (x.ident.rails * 10)).foldl (fun s i => s.meterSample l g n (i / 10) (i % 10) x.rails) s
  let s := if s.link (n.val / 4) = lkQuarantined then
      s.markTags ((s.hmk.spans.filter (fun y => y.2.ep = n.val)).map (·.1)) 16 else s
  if l.any (fun y => y.1 = n.val) ∧ (sparseFind s.hmk.g1 n).isNone then
    match x.status with
    | some st => { s with hmk := { s.hmk with g1 := sparseIns s.hmk.g1 n (g * 10000, st.eAcc) } }
    | none => s
  else s

/-- Weights whose instant has come take effect (R171). -/
def State.meterWeights (s : State) (g : Nat) : State :=
  let due := s.hmk.weights.filter (fun x => x.1 ≤ g * 10000)
  let s := { s with hmk := { s.hmk with weights := s.hmk.weights.filter (fun x => !(x.1 ≤ g * 10000)) } }
  s.forAll due (fun s x => match s.span x.2.1 with
    | some y => s.setSpan x.2.1 (some { y with w := x.2.2 })
    | none => s)

/-! ## Epochs: sums (R284, R285) -/

/-- Does an epoch cover an instant? -/
def EpochSt.covers (e : EpochSt) (at' : Nat) : Bool :=
  e.start ≤ at' && (match e.stop with
    | some x => decide (at' < x)
    | none => true)

/-- Replace the first epoch that satisfies a condition. -/
def updFirst (p : EpochSt → Bool) (f : EpochSt → EpochSt) : List EpochSt → List EpochSt
  | [] => []
  | e :: r => if p e then f e :: r else e :: updFirst p f r

/-- Replace an epoch in hand. -/
def State.updEpoch (s : State) (p : EpochSt → Bool) (f : EpochSt → EpochSt) : State :=
  { s with hmk := { s.hmk with epochs := updFirst p f s.hmk.epochs } }

/-- Add a request's sums into the list, kept in rising REQ_ID. -/
def addReq : List ReqAcc → ReqAcc → List ReqAcc
  | [], a => [a]
  | x :: r, a =>
    if a.req = x.req then
      { x with
        eps := x.eps ||| a.eps, start := min x.start a.start, stop := max x.stop a.stop, energy := x.energy + a.energy,
        unc := x.unc + a.unc, samples := x.samples + a.samples, missing := x.missing + a.missing,
        flags := x.flags ||| a.flags } :: r
    else if a.req < x.req then a :: x :: r else x :: addReq r a

/-- What a read span adds to its epoch: an endpoint span to the endpoint's sums, a request span to its request's. -/
def EpochSt.take (e : EpochSt) (i : Nat) (x : SpanT) (tag : Option SpanTag) : EpochSt :=
  if i < 128 then
    let old := (sparseFind e.eps i).getD (0, 0)
    { e with eps := sparseIns (sparseErase e.eps i) i (old.1 + x.energy, old.2 + x.unc) }
  else match tag with
    | none => e
    | some t =>
      let cin := decide (x.start < e.start)
      let cout := match x.stop, e.stop with
        | none, _ => true
        | some a, some b => decide (b < a)
        | some _, none => false
      let stop := (x.stop.getD (2 ^ 64 - 1))
      { e with reqs := addReq e.reqs ⟨t.req, 2 ^ t.ep, x.start, stop, x.energy, x.unc, x.samples, x.missing,
        t.flags ||| (b2n cin + 2 * b2n cout)⟩ }

/-- The epoch that reads go to: the oldest not yet read. -/
def EpochSt.unread (e : EpochSt) : Bool := e.stage == .metering

/-- READ of the spans `sel` picks, into the oldest epoch not yet read: accumulators are taken and reset, and spans that ended
before `done` are freed (R128, R284). -/
def State.hmkRead (s : State) (sel : SpanT → Bool) (done : Nat) : State :=
  let l := s.eng.spans.filter (fun x => sel x.2 && (x.2.energy ≠ 0 || x.2.unc ≠ 0 || x.2.stop.isSome))
  s.forAll l (fun s x =>
    let s := if x.2.energy ≠ 0 || x.2.unc ≠ 0 then
        s.updEpoch EpochSt.unread (fun e => e.take x.1 x.2 (sparseFind s.hmk.spans x.1)) else s
    match x.2.stop with
    | some e => if e ≤ done then (s.setSpan x.1 none).setTag x.1 none
      else s.setSpan x.1 (some { x.2 with energy := 0, unc := 0, samples := 0, missing := 0 })
    | none => s.setSpan x.1 (some { x.2 with energy := 0, unc := 0, samples := 0, missing := 0 }))

/-- READ with ALL for the epochs that ended before frame `g` (R284). -/
def State.hmkEpochReads (s : State) (g : Nat) : State :=
  s.forAll (s.hmk.epochs.filter (fun e => e.unread && (match e.stop with
      | some x => decide (x ≤ g * 10000)
      | none => false))) (fun s e =>
    (s.hmkRead (fun _ => true) (e.stop.getD 0)).updEpoch EpochSt.unread (fun e => { e with stage := .read }))

/-- Closed spans whose frames are all integrated are read in every plan frame, so that their entries are freed (R284). -/
def State.hmkPlanRead (s : State) : State :=
  let done := (s.now / 10000 - 31) * 10000
  s.hmkRead (fun x => match x.stop with
    | some e => decide (e ≤ done)
    | none => false) done

/-- Frame f is integrated in frame f + 32 (R282): weights, READ ALL of epochs that ended before it, its samples, and its bus
energy into the epoch that covers it. -/
def State.hmkIntegrate (s : State) (g : Nat) : State :=
  let s := (s.hmkEpochReads g).meterWeights g
  let l := (s.hmk.telem.filter (fun x => x.1 = g)).map (·.2)
  let s := { s with hmk := { s.hmk with telem := s.hmk.telem.filter (fun x => g < x.1) } }
  if !s.hmk.epochs.any (fun e => e.covers (g * 10000)) then s else
  let s := s.forAll (List.finRange 128) (fun s n => if n.val < s.endpoints then s.meterEndpoint l g n else s)
  let e := (sparseFind s.hmk.frames g).getD 0
  let s := { s with hmk := { s.hmk with frames := sparseErase s.hmk.frames g } }
  s.updEpoch (fun x => x.covers (g * 10000)) (fun x => { x with bus := x.bus + e })

/-- QUAL of two stamps: the one of greater UNC, then of greater code (R293). -/
def worseQual (a b : Nat) : Nat := if a % 4 < b % 4 ∨ (a % 4 = b % 4 ∧ a < b) then b else a

/-- At a control-frame boundary (R283): the bus energy of the frame that ends is latched; a frame whose slot has gone by is
set apart as skipped; the stamp quality is noted. -/
def State.hmkLatch (s : State) : State :=
  let f := s.now / 10000
  let eo := s.reg Reg.HVS_EOUT
  let out := s.hmk.frames.filter (fun x => x.1 + 32 < f)
  let keep := s.hmk.frames.filter (fun x => !(x.1 + 32 < f))
  let s := { s with hmk := { s.hmk with frames := sparseIns (sparseErase keep (f - 1)) (f - 1) (eo - s.hmk.eoutPrev), eoutPrev := eo } }
  let s := s.forAll out (fun s x => s.updEpoch (fun e => e.covers (x.1 * 10000))
    (fun e => { e with skip := e.skip + x.2, framesSkip := e.framesSkip + 1 }))
  let q := s.qual.toNat
  s.updEpoch (fun e => e.stop.isNone) (fun e => { e with qual := worseQual e.qual q })

/-! ## Epochs: opening and closing (R295, R296, R299) -/

/-- The module meters: the standard Pattern runs and the life-cycle state allows sealing (R378). -/
def State.metering (s : State) : Bool := s.patternRunning && s.runningPat.isSome && lcSealing s.lc && s.baseUp

/-- An epoch just opened. -/
def State.newEpoch (s : State) (epoch part start flags : Nat) : EpochSt :=
  ⟨epoch, part, start, none, flags, s.reg Reg.HMK_POLICY, s.qual.toNat, [], [], 0, 0, 0, [], 0, 0, 0, 0, 0, 0, [], [], 0,
   (s.runningPat.map (fun p => p.id.toNat)).getD 0, s.hmk.keyGen, 0, 0, [], 0, .metering⟩

/-- Open an epoch. -/
def State.openEpoch (s : State) (epoch part start flags : Nat) : State :=
  let e := s.newEpoch epoch part start flags
  let s := { s with hmk := { s.hmk with epochs := s.hmk.epochs ++ [e] } }
  ((s.setBit Reg.HMK_STS 0 true).setBit Reg.HMK_STS 4 false)

/-- Is an epoch open? -/
def State.epochOpen (s : State) : Bool := s.hmk.epochs.any (fun e => e.stop.isNone)

/-- HVS_EOUT at an epoch's end; the last 240 are kept (R299). -/
def State.latchEout (s : State) : State :=
  { s with hmk := { s.hmk with eoutAt := lastN 240 (s.hmk.eoutAt ++ [(s.now, s.reg Reg.HVS_EOUT)]) } }

/-- The E_ACC readings known at this instant (R298). -/
def State.eaccNow (s : State) : List (Nat × (Nat × Nat)) :=
  (List.finRange 128).filterMap (fun n =>
    if s.link (n.val / 4) = lkAdmitted then (s.ep[n].status).map (fun x => (n.val, (x.eAcc, x.stamp))) else none)

/-- Close the epoch in progress now. -/
def State.closeEpoch (s : State) (flags : Nat) : State :=
  s.updEpoch (fun e => e.stop.isNone) (fun e => { e with stop := some s.now, flags := e.flags ||| flags, eacc := s.eaccNow })

/-- The first body that a module runs after it took over opens the epoch in progress from G0 (R299); with no chain in its
journal it waits for the next epoch to begin one (R297). -/
def State.hmkBegin (s : State) : State :=
  if !s.metering || s.epochOpen then s
  else if s.hmk.tip.isNone then s.setBit Reg.HMK_STS 4 true
  else if s.hmk.takeover then
    let s := { s with hmk := { s.hmk with takeover := false, gainAt := s.now, g1 := [] } }
    s.openEpoch (s.now / 250000000) 0 s.hmk.g0 4
  else s

/-- At a 250 ms boundary HVS_EOUT is latched, epoch E closes and E + 1 opens (R295). -/
def execEpochBoundary (s : State) : Host.Outcome State Fault Refusal :=
  runGrid 250000000 s.grid.epoch (fun g n => { g with epoch := n }) s fun s =>
    let s := if s.pulseUp then s.latchEout else s
    let s := s.closeEpoch 0
    if s.metering && !(s.hmk.takeover && s.hmk.tip.isSome) then s.openEpoch (s.now / 250000000) 0 s.now 0 else s.setBit Reg.HMK_STS 0 false

/-- The counter is stepped (R32); a forward step while a Pattern runs closes the epoch in progress as SHORT and opens the
next at the first instant after it, PART 1 where both lie in one epoch (R296). -/
def execClockStepApply (t : Nat) (s : State) : Host.Outcome State Fault Refusal :=
  let s0 := s.at t
  let f (s : State) : State :=
    if !stepMayApply s then s else
    if s.patternRunning && s.epochOpen then
      let before := s.now / 250000000
      let empty := s.hmk.epochs.any (fun e => e.stop.isNone && e.start = s.now)
      let s := s.latchEout
      let s := if empty then { s with hmk := { s.hmk with epochs := s.hmk.epochs.filter (fun e => e.stop.isSome) } }
        else s.closeEpoch 2
      let s := s.applyStep
      let e := s.now / 250000000
      s.openEpoch e (b2n (!empty && e = before)) s.now 2
    else s.applyStep
  .next { f s0 with pending := s.pending, fx := s.fx }

/-! ## Records and reconciliation (R285 to R291, R299) -/

/-- A quotient rounded to nearest, ties to even. -/
def divEven (a : Int) (b : Nat) : Int :=
  let q := a / (b : Int)
  let r2 := 2 * (a % (b : Int))
  if r2 < b then q else if (b : Int) < r2 then q + 1 else if q % 2 = 0 then q else q + 1

/-- The unit of the accumulators: 2^79 to a uJ (R128). -/
def accUnit : Nat := 2 ^ 79

/-- ENERGY and UNC of sums (R285). -/
def accEnergy (e : Int) : Int := divEven e accUnit
def accUnc (u : Nat) : Nat := cdiv u accUnit + 1

/-- A request's record before its residual share (R285). -/
def recOf (e : EpochSt) (rseq : Nat) (a : ReqAcc) : HmkRec :=
  let stop := e.stop.getD 0
  ⟨a.req, a.eps, max e.start a.start, min stop a.stop, accEnergy a.energy, accUnc a.unc, 0, 0, e.policy,
   a.flags ||| (if a.samples + a.missing < 1000 * a.missing then 256 else 0), min 65535 a.missing,
   min (2 ^ 32 - 1) a.samples, rseq⟩

/-- The bridging record of an endpoint whose E_ACC is known at G0 and G1 (R299). -/
def State.bridge (s : State) (e : EpochSt) (n : Fin 128) : Option HmkRec :=
  match sparseFind s.hmk.g0Eacc n, sparseFind s.hmk.g1 n with
  | some (e0, _), some (at1, e1) =>
    let d : Int := (e1 : Int) - e0
    some ⟨0, 2 ^ n.val, e.start, at1, d, cdiv d.natAbs 100 + s.ep[n].ident.pMax * 500, 0, 0, e.policy, 4 + 8, 0, 0, 0⟩
  | _, _ => none

/-- The most records an epoch holds (R287). -/
def recMax : Nat := 524288

/-- Merge the records past the limit into the overflow record (R287). -/
def overflowRec (e : EpochSt) (l : List HmkRec) : HmkRec :=
  l.foldl (fun a r => { a with
    eps := a.eps ||| r.eps, start := min a.start r.start, stop := max a.stop r.stop, energy := a.energy + r.energy,
    unc := a.unc + r.unc, flags := a.flags ||| (r.flags &&& 0x7B), missing := min 65535 (a.missing + r.missing),
    samples := min (2 ^ 32 - 1) (a.samples + r.samples) })
    ⟨2 ^ 128 - 1, 0, 2 ^ 64 - 1, 0, 0, 0, 0, 0, e.policy, 128, 0, 0, 0⟩

/-- The epoch's records in leaf order (R286, R287): bridging records, then requests by REQ_ID, then the overflow record. -/
def State.recordsOf (s : State) (e : EpochSt) : List HmkRec :=
  let br := if bitOf e.flags 2 then (List.finRange 128).filterMap (s.bridge e) else []
  let rs := e.reqs.map (fun a => recOf e ((sparseFind s.hmk.rseq a.req).getD 0) a)
  if br.length + rs.length ≤ recMax then br ++ rs
  else
    let keep := recMax - 1 - br.length
    br ++ rs.take keep ++ [overflowRec e (rs.drop keep)]

/-- Is a record a bridging record? -/
def HmkRec.isBridge (r : HmkRec) : Bool := bitOf r.flags 2

/-- The sum of ENERGY over a list. -/
def sumEnergy (l : List HmkRec) : Int := l.foldl (fun a r => a + r.energy) 0

/-- E_BUS (R288, R299): the integrated frames' energy; for an epoch after a takeover the module's own latches from G0 to END,
less the frames set apart. -/
def State.eBusOf (s : State) (e : EpochSt) : Int :=
  if bitOf e.flags 2 then
    let at' (i : Nat) : Option Nat := (s.hmk.eoutAt.find? (fun x => i ≤ x.1)).map (·.2)
    match at' e.start, at' (e.stop.getD 0) with
    | some a, some b => (b : Int) - a - e.skip
    | _, _ => e.bus
  else e.bus

/-- The amount to apportion under a policy (R290); E_EP at most 0 leaves LOSS without a stated amount. -/
def apportion (policy : Nat) (rLoss rIdle eAttr eEp : Int) (free : Int) : Int :=
  if policy = 1 then (if 0 < eEp then rLoss * eAttr / eEp else free)
  else if policy = 2 then rLoss + rIdle
  else 0

/-- Insert an index by falling remainder, ties to the lower index (R290). -/
def insertRem : List (Int × Nat) → Int × Nat → List (Int × Nat)
  | [], a => [a]
  | x :: r, a => if x.1 < a.1 then a :: x :: r else x :: insertRem r a

/-- The shares of an amount over records (R290): floors, then one uJ each to the largest remainders. -/
def shares (a b : Int) (l : List HmkRec) : List Int :=
  let own (r : HmkRec) : Bool := !r.isBridge
  let fl := l.map (fun r => if own r then a * r.energy / b else 0)
  let left := (a - fl.foldl (· + ·) 0).toNat
  let rems := (l.zipIdx.filter (fun x => own x.1)).map (fun x => (a * x.1.energy % b, x.2))
  let top := ((rems.foldl insertRem []).take left).map (·.2)
  fl.zipIdx.map (fun x => if top.contains x.2 then x.1 + 1 else x.1)

/-- The figures of R288 and R289 for an epoch with its records. -/
structure Recon where
  eBus : Int
  uBus : Nat
  eEp : Int
  uEp : Nat
  eAttr : Int
  rLoss : Int
  rIdle : Int
  uRes : Nat
  fails : Bool
  deriving DecidableEq, Repr

/-- Reconcile (R288, R289). -/
def State.reconOf (s : State) (e : EpochSt) (l : List HmkRec) : Recon :=
  let br := l.filter HmkRec.isBridge
  let eBus := s.eBusOf e
  let uBus := cdiv eBus.natAbs 1000 + 1000
  let eEp := e.eps.foldl (fun a x => a + accEnergy x.2.1) 0 + sumEnergy br
  let uEp := e.eps.foldl (fun a x => a + accUnc x.2.2) 0 + br.foldl (fun a r => a + r.unc) 0
  let eAttr := sumEnergy (l.filter (fun r => !r.isBridge))
  let rLoss := eBus - eEp
  let uRes := uBus + uEp
  ⟨eBus, uBus, eEp, uEp, eAttr, rLoss, eEp - eAttr, uRes,
   decide (rLoss < -(uRes : Int)) || decide ((s.reg Reg.HMK_RES_MAX : Int) * eBus < 10000 * rLoss)⟩

/-- The records with their shares, and UNASSIGNED (R290). -/
def apportioned (policy : Nat) (free : Int) (r : Recon) (l : List HmkRec) : List HmkRec × Int :=
  let a := apportion policy r.rLoss r.rIdle r.eAttr r.eEp free
  if r.fails ∨ r.eAttr ≤ 0 ∨ (policy ≠ 1 ∧ policy ≠ 2) then (l, r.rLoss + r.rIdle)
  else
    let sh := shares a r.eAttr l
    (l.zipIdx.map (fun x => if x.1.isBridge then x.1 else { x.1 with
      residual := sh.getD x.2 0, resUnc := cdiv (r.uRes * x.1.energy.natAbs) r.eAttr.toNat }), r.rLoss + r.rIdle - a)

/-- The records of the oldest epoch that has been read are formed, reconciled and apportioned (R285 to R291). -/
def execEpochReconcile (t : Nat) (s : State) : Host.Outcome State Fault Refusal :=
  run t s fun s =>
    match s.hmk.epochs.find? (fun e => e.stage == .read) with
    | none => s
    | some e =>
      let l := s.recordsOf e
      let r := s.reconOf e l
      let x := apportioned e.policy (Config.freeValue s.free 0 : Nat) r l
      let s := { s with free := s.free + 1 }
      let flags := e.flags ||| b2n r.fails ||| (if l.any (fun q => bitOf q.flags 7) then 32 else 0)
      let s := s.updEpoch (fun e => e.stage == .read) (fun e => { e with
        recs := x.1, unassigned := x.2, eBus := r.eBus, uBus := r.uBus, eEp := r.eEp, uEp := r.uEp, eAttr := r.eAttr,
        flags := flags, stage := .reconciled })
      let s := { s with hmk := { s.hmk with rseq := e.reqs.foldl (fun q (a : ReqAcc) =>
        sparseIns (sparseErase q a.req) a.req ((sparseFind q a.req).getD 0 + 1)) s.hmk.rseq } }
      let s := (s.setReg Reg.HMK_REC_CNT l.length).setReg Reg.HMK_REC_MAX (max (s.reg Reg.HMK_REC_MAX) l.length)
      if r.fails then
        let s := (s.inc Reg.HMK_RECON_FAIL_CNT).setBit Reg.HMK_STS 1 true
        s.post hmkPg sevWarn 0x0093 0 0 (e.epoch % 2 ^ 32) (e.epoch / 2 ^ 32) 0
      else s

/-! ## Root, header and seal (R292 to R297) -/

/-- The 96 bytes of a record (R285). -/
def recBytes (r : HmkRec) : List Byte :=
  leBytes 16 r.req ++ leBytes 16 r.eps ++ leBytes 8 r.start ++ leBytes 8 r.stop ++ leBytes 8 (ofInt 64 r.energy) ++
  leBytes 8 r.unc ++ leBytes 8 (ofInt 64 r.residual) ++ leBytes 8 r.resUnc ++ leBytes 4 r.policy ++ leBytes 2 r.flags ++
  leBytes 2 r.missing ++ leBytes 4 r.samples ++ leBytes 4 r.rseq

/-- Reduce a level to its root (a level count as fuel). -/
def merkleUp : Nat → List (List Byte) → List Byte
  | _, [] => sha256 [2#8]
  | _, [d] => d
  | 0, d :: _ => d
  | n + 1, l => merkleUp n (merkleLevel l)

/-- ROOT of an epoch's records (R292). -/
def merkleRoot (l : List HmkRec) : List Byte := merkleUp 32 (l.map (fun r => sha256 (0#8 :: recBytes r)))

/-- The 256 bytes of a header (R293); POLICY_HASH is 0 for the reserved policies. -/
def State.headerOf (s : State) (e : EpochSt) : List Byte :=
  leBytes 4 0x4B4D4C48 ++ leBytes 2 1 ++ leBytes 2 0x100 ++ leBytes 8 e.epoch ++ leBytes 8 e.start ++
  leBytes 8 (e.stop.getD 0) ++ e.prevRoot ++ e.root ++ leBytes 4 e.recs.length ++ leBytes 4 e.flags ++
  leBytes 8 (ofInt 64 e.eBus) ++ leBytes 8 e.uBus ++ leBytes 8 (ofInt 64 e.eEp) ++ leBytes 8 e.uEp ++
  leBytes 8 (ofInt 64 e.eAttr) ++ leBytes 8 (ofInt 64 (e.eBus - e.eEp)) ++ leBytes 8 (ofInt 64 (e.eEp - e.eAttr)) ++
  leBytes 8 (ofInt 64 e.unassigned) ++ leBytes 8 e.skip ++ leBytes 4 e.policy ++ leBytes 4 e.framesSkip ++
  List.replicate 32 0#8 ++ leBytes 8 s.fx.serial.toNat ++ leBytes 16 e.patternId ++ leBytes 8 e.chainSeq ++
  leBytes 1 (b2n s.slotB) ++ leBytes 1 e.qual ++ leBytes 1 e.part ++ [0#8] ++ leBytes 4 e.keyGen

/-- ROOT is formed and the epoch takes its place in the chain (R292, R293, R297). -/
def execEpochRootFormed (t : Nat) (s : State) : Host.Outcome State Fault Refusal :=
  run t s fun s =>
    match s.hmk.epochs.find? (fun e => e.stage == .reconciled) with
    | none => s
    | some e =>
      let root := merkleRoot e.recs
      let (prev, seq, fl) : List Byte × Nat × Nat := match s.hmk.tip with
        | none => (List.replicate 32 0#8, 0, 8)
        | some p => (p.root, p.seq + 1, if e.epoch = p.epoch + 1 ∨ (e.part = 1 ∧ e.epoch = p.epoch) then 0 else 16)
      let flags := e.flags ||| fl ||| (64 * b2n s.hmk.loss)
      let s := s.updEpoch (fun x => x.stage == .reconciled) (fun x => { x with
        root := root, prevRoot := prev, chainSeq := seq, flags := flags, stage := .rooted })
      { s with hmk := { s.hmk with loss := false, tip := some ⟨root, seq, e.epoch, e.stop.getD 0⟩ } }

/-- The payload of an EPOCH record (R385, R298): the header, then endpoint, E_ACC and its stamp for each admitted endpoint
(the place of the endpoint's number is DESIGN CHOICE, log 39). -/
def State.epochPayload (s : State) (e : EpochSt) : List Byte :=
  s.headerOf e ++ (e.eacc.map (fun x => leBytes 8 x.1 ++ leBytes 8 x.2.1 ++ leBytes 8 x.2.2)).flatten

/-- The journal controller takes the header, journals it and passes it to Signet (R295, R298). -/
def execEpochHeaderJournal (t : Nat) (s : State) : Host.Outcome State Fault Refusal :=
  run t s fun s =>
    match s.hmk.epochs.find? (fun e => e.stage == .rooted) with
    | none => s
    | some e =>
      if s.jnlRefuses then s else
      let q := s.reg Reg.JNL_SEQ
      let s := s.jnlAdd false ⟨0x40, true, hmkPg, s.epochPayload e⟩
      s.updEpoch (fun x => x.stage == .rooted) (fun x => { x with jseq := q, sealFrom := s.now, stage := .journalled })

/-- Both signatures are complete (R294, R295): the last header sealed is shown; a seal after T + 200 ms is counted;
Locket keeps the last sealed ROOT and CHAIN_SEQ (R368, R377). -/
def execEpochSealDone (t : Nat) (s : State) : Host.Outcome State Fault Refusal :=
  run t s fun s =>
    match s.hmk.epochs.find? (fun e => e.stage == .journalled) with
    | none => s
    | some e =>
      let s := if e.stop.getD 0 + 200000000 < s.now then (s.inc Reg.HMK_SEAL_LATE_CNT).setBit Reg.HMK_STS 2 true else s
      let s := (s.setReg Reg.HMK_EPOCH e.epoch).setReg Reg.HMK_CHAIN_SEQ e.chainSeq
      let word (i : Nat) : Nat := ofLe ((e.root.drop (4 * i)).take 4)
      let s := s.forAll (List.range 8) (fun s i => (s.setReg (Reg.HMK_ROOT i) (word i)).setReg (Reg.LKT_AUDIT_ROOT i) (word i))
      let s := s.setReg Reg.LKT_AUDIT_SEQ e.chainSeq
      let s := s.setReg Reg.SIG_SEAL_MAX (max (s.reg Reg.SIG_SEAL_MAX) (divOpen 13 (s.now - e.sealFrom) 1000000))
      let s := { s with free := s.free + 1 }
      s.updEpoch (fun x => x.stage == .journalled) (fun x => { x with sealIdx := s.free - 1, stage := .sealed })

/-- The 17,576 bytes of a seal (R294): the signatures and key identifiers rest on keys outside the model (free). -/
def sealOf (hdr : List Byte) (free : Nat) : List Byte :=
  leBytes 4 0x47534C48 ++ leBytes 2 1 ++ leBytes 2 0 ++ sha256 hdr ++
    (List.range 17536).map (fun i => BitVec.ofNat 8 (Config.freeValue free i))

/-! ## Release, archive, acknowledgement (R295, R301 to R303, R305) -/

/-- Blocks of an epoch, and the digests in a block's path: one for each level from 9 up at which its node has a sibling. -/
def blockCount (n : Nat) : Nat := cdiv n 512
def pathDepth : Nat → Nat → Nat → Nat
  | 0, _, _ => 0
  | k + 1, n, j => if n ≤ 1 then 0 else (if j % 2 = 0 ∧ j + 1 = n then 0 else 1) + pathDepth k ((n + 1) / 2) (j / 2)

/-- Bytes an epoch takes in the archive: header, seal and blocks (R301). -/
def arcSize (n : Nat) : Nat :=
  let b := blockCount n
  256 + 17576 + 96 * n + (List.range b).foldl (fun a j => a + 0x40 + 32 * pathDepth 32 b j) 0

/-- The archive's size (R302). -/
def arcMax : Nat := 56 * 2 ^ 30

/-- Bytes held. -/
def arcBytes (l : List ArcEpoch) : Nat := l.foldl (fun a e => a + e.size) 0

/-- Make room in the archive (R302, R303): acknowledged epochs go first, oldest first; then the oldest unacknowledged one is
overwritten, counted and reported (a count of entries as fuel). -/
def State.arcRoom : Nat → State → State
  | 0, s => s
  | k + 1, s =>
    if arcBytes s.hmk.archive ≤ arcMax then s else
    match s.hmk.archive with
    | [] => s
    | e :: rest =>
      let acked := s.hmk.acked && decide (e.seq ≤ s.reg Reg.HMK_ACK)
      let s := { s with hmk := { s.hmk with archive := rest } }
      let s := if acked then s else
        let s := (s.inc Reg.HMK_LOSS_CNT).setBit Reg.HMK_STS 3 true
        let s := { s with hmk := { s.hmk with loss := true } }
        s.post hmkPg sevFault 0x0092 0 0 (e.seq % 2 ^ 32) (e.seq / 2 ^ 32) 0
      State.arcRoom k s

/-- HMK_ARCHIVE_FILL (R305). -/
def State.arcShow (s : State) : State :=
  let open' := s.hmk.archive.filter (fun e => !(s.hmk.acked && decide (e.seq ≤ s.reg Reg.HMK_ACK)))
  s.setReg Reg.HMK_ARCHIVE_FILL (divOpen 5 (arcBytes open' * 1000) arcMax)

/-- Is a record programmed in the journal? -/
def State.jnlHas (s : State) (seq : Nat) : Bool := s.jnl.log.any (fun x => x.2.seq = seq)

/-- The oldest epoch in hand, sealed, is released by Nugen (R295): its header programmed and, while the peer is a standby on
the slot link, acknowledged there; otherwise counted as unmirrored (R340). -/
def execEpochRelease (t : Nat) (s : State) : Host.Outcome State Fault Refusal :=
  run t s fun s =>
    match s.hmk.epochs with
    | [] => s
    | e :: rest =>
      if e.stage ≠ .sealed ∨ !s.baseUp ∨ !s.jnlHas e.jseq ∨ (s.mirrorOn ∧ s.jnl.unacked.contains e.jseq) then s else
      let s := if s.mirrorOn then s else s.inc Reg.SLK_UNMIRRORED_CNT
      let a : ArcEpoch := ⟨e.chainSeq, e.epoch, e.part, s.headerOf e, e.sealIdx, e.recs, arcSize e.recs.length⟩
      let s := { s with hmk := { s.hmk with epochs := rest, archive := s.hmk.archive ++ [a] } }
      (s.arcRoom s.hmk.archive.length).arcShow

/-- The newest CHAIN_SEQ released. -/
def State.newestReleased (s : State) : Option Nat := (s.hmk.archive.getLast?).map (·.seq)

/-- A write of HMK_ACK is not below its present value nor above the newest epoch released (R302). -/
def hmkAckOk (s : State) (v : Nat) : Bool :=
  decide (s.reg Reg.HMK_ACK ≤ v) && (match s.newestReleased with
    | some q => decide (v ≤ q)
    | none => decide (v = s.reg Reg.HMK_ACK))

/-- What an acknowledgement does (R302). -/
def hmkAckEff (s : State) (_ : Nat) : State :=
  ({ s with hmk := { s.hmk with acked := s.hmk.acked || s.newestReleased.isSome } }).arcShow

/-- A write of HMK_ACK (R302). -/
def execHmkAckWrite (t : Nat) (w : Writer) (v : DWord) (s : State) : Host.Outcome State Fault Refusal :=
  run t s fun s => s.ownWrite64 w Reg.HMK_ACK v.toNat hmkAckOk hmkAckEff

/-- The policies declared: the standard Pattern's are NONE, LOSS and ALL (R290, R305, log 40). -/
def hmkPolicyOk (_ : State) (v : Nat) : Bool := v ≤ 2

/-- A write of HMK_POLICY (R305). -/
def execHmkPolicyWrite (t : Nat) (w : Writer) (v : Word) (s : State) : Host.Outcome State Fault Refusal :=
  run t s fun s => s.ownWrite w Reg.HMK_POLICY v.toNat hmkPolicyOk (fun s _ => s)

/-- HMK_RES_MAX is 1 to 5,000 (R305). -/
def hmkResMaxOk (_ : State) (v : Nat) : Bool := 1 ≤ v && v ≤ 5000

end Sys2Proof.Machine
end

