-- ==== Sys2Proof/Machine/Recorder.lean ====
section
/-!
DEFINITION. The flight recorder (R143 to R147, R150): the mover's placement, triggers, freeze, the AIR ring and export.
-/
namespace Sys2Proof.Machine

/-- MODE of FR_STS: 0 RECORDING, 1 POST_TRIGGER, 2 FROZEN. -/
def State.frMode (s : State) : Nat := s.fld Reg.FR_STS 0 2

/-- Does the AIR ring record? -/
def State.frAir (s : State) : Bool := s.bit Reg.FR_STS 2

/-- The last frame that the frozen ring takes: the trigger frame and FR_POST frames more (none after AIR entry, R146). -/
def State.frLast (s : State) : Nat :=
  s.reg Reg.FR_TRIG_FRAME + (if s.fld Reg.FR_STS 8 8 = 2 then 0 else s.reg Reg.FR_POST)

/-- Is a frame recorded now (R145, R146)? -/
def State.frRecords (s : State) (f : Nat) : Bool :=
  s.bit Reg.FR_CTL 0 && (s.frMode = 0 || s.frAir || f ≤ s.frLast)

/-- Slots of the AIR ring (R146). -/
def airSlots : Nat := 400000

/-- The slot number of a frame in the ring that records. -/
def State.frIndex (s : State) (f : Nat) : Nat := f % max (if s.frAir then airSlots else s.reg Reg.FR_SLOTS) 1

/-- A frame's slot, empty if its place holds an older frame. -/
def State.frSlot (s : State) (f : Nat) : FrSlot :=
  match sparseFind s.fr.slots (s.frIndex f) with
  | some x => if x.frame = f then x else ⟨f, false, s.frMode = 1, s.frAir, false, false, []⟩
  | none => ⟨f, false, s.frMode = 1, s.frAir, false, false, []⟩

/-- Store a frame's slot. -/
def State.setFrSlot (s : State) (x : FrSlot) : State :=
  let k := s.frIndex x.frame
  { s with fr := { s.fr with slots := sparseIns (sparseErase s.fr.slots k) k x } }

/-- A sample too late for its slot goes to the late log (R143). -/
def State.lateSample (s : State) (n rail stamp : Nat) (x : Word) : State :=
  let f := stamp / 10000
  let s := { s with fr := { s.fr with lateLog := s.fr.lateLog ++ [LateEnt.mk stamp n rail x] } }
  let s := s.inc Reg.FR_LATE_CNT
  match sparseFind s.fr.slots (s.frIndex f) with
  | some y => if y.frame = f then s.setFrSlot { y with late := true } else s
  | none => s

/-- The mover places a sample by its source stamp (R143): position 1,920 n + 40 r + 4 k, duplicates keeping the later. -/
def execFrMoverPlace (t : Nat) (n : Fin 128) (rail : Fin 48) (stamp : Nat) (sample : Word) (s : State) :
    Host.Outcome State Fault Refusal :=
  run t s fun s =>
    let f := stamp / 10000
    if !s.frRecords f ∨ s.endpoints ≤ n.val then s
    else if f + 32 ≤ s.now / 10000 then s.lateSample n rail stamp sample
    else
      let pos := 480 * n.val + 10 * rail.val + stamp % 10000 / 1000
      let x := s.frSlot f
      let s := if (sparseFind x.samples pos).isSome then s.inc Reg.FR_DUP_CNT else s
      s.setFrSlot { x with samples := sparseIns (sparseErase x.samples pos) pos sample }

/-- By the start of frame f + 32 the slot of frame f is complete (R143); a frame that a frozen ring does not take is counted
as missed (R145). -/
def execFrSlotDeadline (t f : Nat) (s : State) : Host.Outcome State Fault Refusal :=
  run t s fun s =>
    if s.now / 10000 < f + 32 ∨ !s.bit Reg.FR_CTL 0 then s
    else if !s.frRecords f then s.inc Reg.FR_MISS_CNT
    else
      let s := s.setFrSlot { (s.frSlot f) with done := true }
      let last := s.reg Reg.FR_HELD_LAST
      let first := if f = last + 1 then s.reg Reg.FR_HELD_FIRST else f
      let cap := if s.frAir then airSlots else s.reg Reg.FR_SLOTS
      (s.setReg Reg.FR_HELD_FIRST (max first (f + 1 - cap))).setReg Reg.FR_HELD_LAST f

/-- A trigger (R145): counted; while RECORDING it starts the post-trigger frames, and freezes at once where there are none. -/
def State.frTrigger (s : State) (cause page : Nat) : State :=
  let s := s.inc Reg.FR_TRIG_CNT
  if s.frMode ≠ 0 ∨ !s.bit Reg.FR_CTL 0 then s else
  let s := s.setReg Reg.FR_TRIG_FRAME (s.now / 10000)
  let s := (s.setFld Reg.FR_STS 8 8 cause).setFld Reg.FR_STS 16 12 page
  let none' := cause = 2 ∨ s.reg Reg.FR_POST = 0
  let s := s.setFld Reg.FR_STS 0 2 (if none' then 2 else 1)
  { s with fr := { s.fr with left := if none' then 0 else s.reg Reg.FR_POST } }

/-- The AIR ring opens in the slots that hold the oldest frames of the frozen ring; channels 2 and 3 keep their part in
self-refresh (R146). -/
def State.frAirOpen (s : State) : State :=
  if s.frAir ∨ !s.bit Reg.FR_CTL 0 then s else
  let keep := s.reg Reg.FR_SLOTS - airSlots
  let frozen := s.fr.slots.filter (fun x => s.reg Reg.FR_TRIG_FRAME < x.2.frame + keep)
  let s := { s with fr := { s.fr with slots := [], frozen := frozen } }
  let s := (s.setBit Reg.FR_STS 2 true).setFld Reg.FR_STS 0 2 2
  s.forAll [2, 3] (fun s c => if s.bit (Reg.DDC_STS c) 2 then s.setBit (Reg.DDC_STS c) 3 true else s)

/-- The recorder triggers on its own (R145, R146). -/
def execFrTrigger (t : Nat) (cause : FrCause) (page : BitVec 12) (s : State) : Host.Outcome State Fault Refusal :=
  run t s fun s =>
    match cause with
    | .blockFault => s.frTrigger 1 page.toNat
    | .airFallback => if s.pw.air && !s.frAir then (s.frTrigger 2 page.toNat).frAirOpen else s

/-- The post-trigger frames are over: the ring freezes (R145). -/
def execFrFreeze (t : Nat) (s : State) : Host.Outcome State Fault Refusal :=
  run t s fun s =>
    if s.frMode = 1 ∧ s.frLast < s.now / 10000 then
      let s := s.setFld Reg.FR_STS 0 2 2
      { s with fr := { s.fr with left := 0 } }
    else s

/-- A write of FR_CTL with TRIGGER (R145, R150): FROZEN counts it and changes nothing else. -/
def execFrCtlTrigger (t : Nat) (w : Writer) (s : State) : Host.Outcome State Fault Refusal :=
  run t s fun s => s.ownWrite w Reg.FR_CTL (s.fld Reg.FR_CTL 0 1 + 2) anyValue (fun s _ => s.frTrigger 0 0)

/-- Recording resumes (R145, R146): the frozen ring is released, the AIR ring closes. -/
def State.frUnfreeze (s : State) : State :=
  if s.frMode ≠ 2 then s else
  let air := s.frAir
  let s := (s.setFld Reg.FR_STS 0 2 0).setBit Reg.FR_STS 2 false
  let s := if air then { s with fr := { s.fr with slots := s.fr.frozen, frozen := [] } } else s
  s.forAll [2, 3] (fun s c => s.setBit (Reg.DDC_STS c) 3 false)

/-- A write of FR_CTL with UNFREEZE (R145, R150). -/
def execFrCtlUnfreeze (t : Nat) (w : Writer) (s : State) : Host.Outcome State Fault Refusal :=
  run t s fun s => s.ownWrite w Reg.FR_CTL (s.fld Reg.FR_CTL 0 1 + 4) anyValue (fun s _ => s.frUnfreeze)

/-- A write of FR_CTL.ENABLE (R150). -/
def execFrCtlEnable (t : Nat) (w : Writer) (on : Bool) (s : State) : Host.Outcome State Fault Refusal :=
  run t s fun s => s.ownWrite w Reg.FR_CTL (b2n on) anyValue (fun s _ => s)

/-- The slot that holds a frame, frozen ring included. -/
def State.frHeld (s : State) (f : Nat) : Option FrSlot :=
  ((s.fr.slots ++ s.fr.frozen).map (·.2)).find? (fun x => x.frame = f)

/-- The bytes of a frame slot (R143). -/
def State.slotImage (s : State) (x : FrSlot) : List Byte :=
  ((List.range (480 * s.endpoints)).map (fun p =>
    leBytes 4 ((sparseFind x.samples p).getD 0x8000FFFF#32).toNat)).flatten

/-- The header of an exported frame (R147), with its CRC-32C over header and slot. -/
def State.frHeader (s : State) (x : FrSlot) : List Byte :=
  let fl := b2n x.late + 2 * b2n x.ue + 4 * b2n x.post + 8 * b2n x.air
  let h := leBytes 8 x.frame ++ leBytes 8 (x.frame * 10000) ++ leBytes 1 s.endpoints ++ leBytes 1 fl ++
    List.replicate 42 0#8
  h ++ leBytes 4 (crc32c (h ++ s.slotImage x)).toNat

/-- Nugen exports a frame over the management port (R147): it goes to the session where the frame is held; Hallmark export
goes first (log 31). -/
def execFrExport (t : Nat) (sess : Fin 64) (f : Nat) (s : State) : Host.Outcome State Fault Refusal :=
  run t s fun s =>
    if !s.baseUp then s else
    match s.frHeld f with
    | some _ => { s with fr := { s.fr with exported := lastN 64 (s.fr.exported ++ [(sess.val, f)]), exports := s.fr.exports + 1 } }
    | none => s

end Sys2Proof.Machine
end

