-- ==== Sys2Proof/Machine/Power.lean ====
section
/-!
DEFINITION. Power-up, the Lining, cooling, resets and Seams (R404 to R420, R450): what starts, what each reset reaches, and the
power states. The discrete inputs are in Inputs.lean.
-/
namespace Sys2Proof.Machine

/-- The page of the Lining. -/
def linPg : Nat := 0x112

/-- Replace the power record. -/
def State.updPw (s : State) (f : PowerSt → PowerSt) : State := { s with pw := f s.pw }

/-! ## What is shown (R411, R425, R450) -/

/-- POWER_STATE: 0 KEEP-ALIVE, 1 STANDBY, 2 ACTIVE, 3 AIR-FALLBACK. -/
def State.powerState (s : State) : Nat :=
  if !s.pulseUp then 0
  else if s.isOwner || s.clp.drive || s.basePowered then (if s.pw.air && s.basePowered then 3 else 2)
  else 1

/-- Mask of the compute stacks in a power state. -/
def State.stackMask (s : State) (p : StackPower) : Nat :=
  (List.finRange 4).foldl (fun a d => a + (if s.pw.stack[d] = p then 2 ^ d.val else 0)) 0

/-- LIN_STS and PWR_STS follow the power record. -/
def State.pwShow (s : State) : State :=
  let p := s.pw
  let lin := b2n p.retOk + 2 * b2n p.retLost + 4 * b2n p.lxtFail + 8 * b2n p.pocketOk + 16 * b2n p.kaOk + 32 * b2n p.mainOk +
    64 * b2n (!p.kaOk && !p.mainOk && p.linUp) + 128 * b2n p.parked + 256 * s.powerState
  let s := s.setReg Reg.LIN_STS (if p.linUp then lin else 0)
  if !s.basePowered then s else
  let ret := s.stackMask .retention
  let v := b2n p.air + 2 * b2n p.causeFlow + 4 * b2n p.causeDie + 8 * b2n p.causeDimm + 16 * b2n (s.bit Reg.PWR_CTL 0) +
    256 * (s.stackMask .on + ret) + 4096 * ret + 65536 * s.powerState
  s.setReg Reg.PWR_STS v

/-! ## RESET_LOG (R406, R416) -/

/-- A reset of one of the first four kinds of R415 is recorded: kind from 0, and detail. -/
def State.logReset (s : State) (kind detail : Nat) : State :=
  let s := (s.setReg Reg.LIN_RST_CAUSE (kind + 256 * detail)).inc Reg.LIN_RST_CNT
  s.updPw (fun p => { p with
    resetLog := lastN 8 (p.resetLog ++ [⟨kind, detail, s.stamp⟩]), resetNew := min 8 (p.resetNew + 1) })

/-! ## Restoring predictive control (R342) -/

/-- A step of a restore has ended: one that failed, or came later than its bound after the gain of ownership, raises RESTORE_LATE
once. Steps count from 1 over the rows of R342 that have a bound (log 44). -/
def State.restoreStep (s : State) (k bound : Nat) (ok : Bool) : State :=
  match s.clp.restoreAt with
  | none => s
  | some c =>
    if (!ok || decide (c + bound < s.now)) && !s.clp.restoreLate.contains k then
      (s.updClp (fun x => { x with restoreLate := x.restoreLate ++ [k] })).post clpPg sevWarn 0x0082 0 k 0 0 0
    else s

/-! ## Resets of registers (R415) -/

/-- Base-die pages whose content lies in NAND, OTP or the PUF store: Locket, the life cycle and the journal. -/
def baseKept (p : Nat) : Bool := p = 0xA1 || p = 0xA2 || p = 0xC0 || p = 0xC1

/-- Registers of the pages that a reset reaches go back to their reset values. -/
def State.clearPages (s : State) (reached : Nat → Bool) : State :=
  { s with regs := s.regs.filter (fun e => !reached (e.1 / 4096)) }

/-- Pages that own their block's BLK_CTL on a die (R433, R434). -/
def blockPages (fx : Fuses) (pulse : Bool) : List Nat :=
  (List.range 0x115).filter (fun p => pageAllocated p && pagePresent fx p && ownBlkCtl p && onPulseDie p == pulse)

/-- A block enabled from power-up starts (R435, R437): STARTING, and RUNNING at once. -/
def State.startBlock (s : State) (p : Nat) : State :=
  if s.bit (Reg.BLK_CTL p) 0 && s.blk p = stOff && p ≠ seqPg then (s.setBlk p stStarting 0).setBlk p stRunning 0 else s

/-- A base-die reset or power-down (R415): the base die, the compute stacks, shared memory and MRDIMM content; what lies in NAND,
OTP, on the pulse die and in the Lining stays. `keepJournal`: the journal path goes on in the slot-link island (R340). -/
def State.baseClear (s : State) (keepJournal : Bool) : State :=
  let s := s.clearPages (fun p => p < 0x100 && !baseKept p)
  let s := if keepJournal then s else
    { s.setBit Reg.JNL_STS 0 false with jnl := { s.jnl with queue := [], prog := none, unacked := [], toOwner := [] } }
  { s with
    mem := [], poison := [],
    seq := { State.reset.seq with store := s.seq.store, storePrev := s.seq.storePrev },
    mac := State.reset.mac, eng := EngSt.empty, fr := State.reset.fr, scrub := State.reset.scrub,
    ep := State.reset.ep, port := State.reset.port, arb := State.reset.arb, chn := ChainSt.empty,
    wiring := none, wiringNext := none,
    hmk := { HmkSt.empty with archive := s.hmk.archive, keyGen := s.hmk.keyGen, eoutPrev := s.hmk.eoutPrev },
    mbx := { State.reset.mbx with heldMsgs := s.mbx.heldMsgs },
    evt := { s.evt with ring := [] },
    aud := { State.reset.aud with pd := s.aud.pd },
    nug := { s.nug with
      sess := Vector.replicate 64 none, jobs := [], sigJobs := [], drbg := 0, toPeer := [], acksToPeer := [], acks := [] },
    jnl := { s.jnl with snap := none, spoilt := true },
    pw := { s.pw with base := .off, stack := Vector.replicate 4 .off, nugSleep := false, glbResetAt := none } }

/-- The base die is lost or powered down: what it held goes, and the pulse die is signalled (R20, R404, R337). -/
def State.baseDown (s : State) (keepJournal : Bool) : State :=
  if !s.basePowered then s else
  let s := s.baseClear keepJournal
  let s := if s.pulseUp then (s.enterHoldover 2).yieldTrigger 2 true s.peerReady else s
  s.pwShow

/-- The base die is powered and its boot ROM begins (R371, R407). -/
def State.basePower (s : State) : State :=
  let s := s.updPw (fun p => { p with base := .rom, island := true, standby := false, wakeReq := false, lastService := s.now })
  (s.stampReg Reg.NUG_BOOT_STAMP).pwShow

/-- A base-die reset that starts again at once (R370, R415). -/
def State.baseRestart (s : State) (detail : Nat) : State :=
  let s := (s.baseDown false).logReset 3 detail
  if s.pw.mainOk && s.pw.pwrGood then s.basePower else s

/-- A pulse-die reset or power-down (R406, R415): ship mode, ENABLE of the strings, latched cell and string trips and the Bead
serials come back from the Pocket where its records hold. -/
def State.pulseClear (s : State) : State :=
  let ok := s.pw.pocketOk
  let ship := !ok || s.bit Reg.CTC_SHIP 0
  let en (x : Nat) : Bool := ok && s.bit (Reg.CTC_CTL x) 0
  let (enA, enB) := (en 0, en 1)
  let prt := if ok then s.fld Reg.PRT_STS 10 4 else 0
  let bds := if ok then s.reg Reg.BDS_TRIP_STS else 0
  let slk := !s.pw.island
  let was := s
  let s := s.clearPages (fun p => 0x100 ≤ p && p ≠ linPg && (p ≠ slkPg || slk))
  let s := ((s.setBit Reg.CTC_SHIP 0 ship).setBit (Reg.CTC_CTL 0) 0 enA).setBit (Reg.CTC_CTL 1) 0 enB
  let s := (s.setFld Reg.PRT_STS 10 4 prt).setReg Reg.BDS_TRIP_STS bds
  let s := s.setReg Reg.CLP_LISTEN (if s.slotB then 50 else 1)
  { s with
    pd := PleatSt.empty, cle := State.reset.cle, vm := State.reset.vm, gov := GovSt.empty,
    prt := { State.reset.prt with pll := false }, ctc := State.reset.ctc,
    loop := State.reset.loop, clp := State.reset.clp,
    evt := { s.evt with pd := [] }, aud := { s.aud with pd := [] }, mbx := { s.mbx with heldMsgs := [] },
    din := ⟨[], [], []⟩, hmk := { s.hmk with eoutPrev := 0 },
    jnl := { s.jnl with charge := (Fv.zero, Fv.zero), latches := [] },
    pw := { s.pw with pulse := .off } }
    |>.forAll [(0 : Fin 2), 1] (fun s x => s.forAll allBeads (fun s j =>
      if ok then s.updBead x j (fun b => { b with serial := (was.bead x j).serial }) else s))

/-- A pulse-die reset: the die starts again (R415). -/
def State.pulseRestart (s : State) (kind detail : Nat) : State :=
  let s := s.pulseClear.logReset kind detail
  (s.updPw (fun p => { p with pulse := .powered })).pwShow

/-! ## Supplies (R404, R405, R407) -/

/-- A voltage lies within two bounds in hundredths of a volt. -/
def withinCv (v : F32) (lo hi : Nat) : Bool :=
  let x := (f32 v.toNat).mul (Fv.ofNat 100)
  (Fv.ofNat lo).le x && x.le (Fv.ofNat hi)

/-- The Lining starts (R405 to R407): the Pocket's records are checked; records that fail their CRC are taken at their defaults. -/
def State.liningStart (s : State) (pocketOk : Bool) : State :=
  let s := s.clearPages (fun p => p = linPg)
  let s := s.updPw (fun p => { p with
    linUp := true, pocketOk := pocketOk, retOk := pocketOk, retLost := !pocketOk, parked := false, slotKnown := false,
    pdFailed := false, standby := false, resetLog := if pocketOk then p.resetLog else [], resetNew := 0 })
  let s := if pocketOk then s else { s with time := { s.time with rtcValid := false } }
  (s.logReset (if pocketOk then 1 else 0) 0).pwShow

/-- The keep-alive input is in range (R404, R407): at least 9.3 V and at most 14.0 V for 10 ms. -/
def execKeepaliveInRange (t : Nat) (v : F32) (heldNs : Nat) (pocketOk : Bool) (s : State) : Host.Outcome State Fault Refusal :=
  run t s fun s =>
    if s.pw.kaOk || !withinCv v 930 1400 || decide (heldNs < 10000000) then s else
    let s := s.updPw (fun p => { p with kaOk := true, onHoldup := false })
    let s := if s.pw.linUp then s else s.liningStart pocketOk
    (s.setReg Reg.LIN_VKA v.toNat).pwShow

/-- The keep-alive input is below 9.0 V for 20 us (R404): a trigger of a yield toward a standby in either role (R337); the role is
noted in the Pocket (R406). -/
def execKeepaliveLoss (t : Nat) (v : F32) (heldNs : Nat) (s : State) : Host.Outcome State Fault Refusal :=
  run t s fun s =>
    if !s.pw.kaOk || !(f32 v.toNat).lt (Fv.ofNat 9) || decide (heldNs < 20000) then s else
    let s := s.updPw (fun p => { p with
      kaOk := false, lastRole := s.clp.role, onHoldup := !p.mainOk, holdupSince := s.now })
    let s := s.setReg Reg.LIN_VKA v.toNat
    (s.yieldTrigger 3 true s.peerStandby).pwShow

/-- The main input is within 11.0 to 13.0 V for 10 ms (R404). -/
def execMainInRange (t : Nat) (v : F32) (heldNs : Nat) (s : State) : Host.Outcome State Fault Refusal :=
  run t s fun s =>
    if s.pw.mainOk || !withinCv v 1100 1300 || decide (heldNs < 10000000) then s else
    let s := s.updPw (fun p => { p with mainOk := true, onHoldup := false, baseReady := s.now, island := true })
    let s := s.updPw (fun p => { p with wakeReq := p.wakeReq || (p.standby && s.bit Reg.LIN_WAKE_EN 0) })
    let s := if s.bit Reg.LIN_WAKE_EN 0 then s.setBit Reg.LIN_WAKE_SRC 0 true else s
    (s.setReg Reg.LIN_VMAIN v.toNat).pwShow

/-- The main input is out of 10.8 to 13.2 V for 20 us, or PWR_GOOD is lost (R404): the base die powers down, and the slot link with
its island. -/
def execMainLoss (t : Nat) (v : F32) (heldNs : Nat) (s : State) : Host.Outcome State Fault Refusal :=
  run t s fun s =>
    let volt := s.pw.mainOk && !withinCv v 1080 1320 && decide (20000 ≤ heldNs)
    let good := s.pw.pwrGood && s.pulseUp && !s.dinActive 2
    if !volt && !good then s else
    let s := s.updPw (fun p => { p with
      mainOk := p.mainOk && !volt, pwrGood := p.pwrGood && !good, island := p.island && !volt, onHoldup := volt && !p.kaOk,
      holdupSince := if volt && !p.kaOk then s.now else p.holdupSince })
    let s := if volt then s.setReg Reg.LIN_VMAIN v.toNat else s
    let s := if s.basePowered then (s.baseDown false).logReset 3 0 else s
    (if volt then s.slkDown 0 else s).pwShow

/-! ## Starts (R407 to R409) -/

/-- At 1 ms SLOT_ID is sampled and the pulse die is powered (R15, R407, R422): more than 2 raw edges in the deglitch time read as
slot B. -/
def execPulseDiePowerUp (t : Nat) (slotId : Bool) (edges : Nat) (s : State) : Host.Outcome State Fault Refusal :=
  run t s fun s =>
    if !s.pw.linUp || s.pw.pulse != .off || s.pw.parked || s.pw.pdFailed then s else
    let b := if s.pw.slotKnown then s.slotB else slotId || decide (2 < edges)
    let s := { s with slotB := b }
    let s := s.setReg Reg.CLP_LISTEN (if b then 50 else 1)
    let s := s.setReg (Reg.DIN_STS 0) (7 * b2n b)
    (s.updPw (fun p => { p with pulse := .powered, slotKnown := true })).pwShow

/-- The image of a NOR device. -/
def State.image (s : State) (b : Bool) : Option ImgSt := if b then s.nug.imgB else s.nug.imgA

/-- Does an image pass the pulse die's boot verifier (R408)? -/
def State.pulseImgOk (s : State) (b : Bool) (v : ImgVerdict) : Bool :=
  match s.image b with
  | some i => v.sig.rsa && v.sig.slh && v.parts && decide (s.fld Reg.LKT_CNT 8 8 ≤ i.rollback)
  | none => false

/-- The pulse die runs (R27, R212, R234, R338, R407): its counter is seeded from the RTC, the law table loaded, its blocks started,
and Clasp listens. -/
def State.pulseStart (s : State) : State :=
  let s := s.updPw (fun p => { p with pulse := .up })
  let s := { s with
    prt := { s.prt with pll := true, pllSince := s.now },
    time := { s.time with
      tstate := if s.time.rtcValid then .rtc else .unset, unc := 3#2, slewing := false, source := .none, upSince := s.now } }
  let s := s.forAll (blockPages s.fx true) State.startBlock
  let s := s.updClp (fun c => { c with role := 1, listenAt := some s.now, checkOk := true })
  let s := if lcOwn s.lc then s else s.setBit Reg.CLP_CTL 2 true
  let s := if lcShipForced s.lc then s.setBit Reg.CTC_SHIP 0 true else s
  s.refreshFloors.clpShow.pwShow

/-- The pulse-die firmware is verified (R408): the image of the BOOT record, else the other; if both fail the module stays in
KEEP-ALIVE. -/
def execPulseFwVerified (t : Nat) (a b : ImgVerdict) (s : State) : Host.Outcome State Fault Refusal :=
  run t s fun s =>
    if s.pw.pulse != .powered then s else
    let first := s.nug.pulseB
    let ok (x : Bool) : Bool := s.pulseImgOk x (if x then b else a)
    let pick := if ok first then some first else if ok (!first) then some (!first) else none
    match pick with
    | none => (s.updPw (fun p => { p with pulse := .off, pdFailed := true })).pwShow
    | some x =>
      let rb := match s.image x with
        | some i => i.rollback
        | none => 0
      let s := { s with nug := { s.nug with pulseB := x, pulseDue := false } }
      (s.setReg Reg.LIN_PD_IMG (b2n x + 256 * (rb % 256))).pulseStart

/-- May the base die start (R404, R407, R411)? -/
def State.baseMayStart (s : State) : Bool :=
  s.pw.mainOk && s.pw.pwrGood && s.pw.base == .off && s.pulseUp && !s.pw.base115 && (!s.pw.standby || s.pw.wakeReq || s.isOwner) &&
  decide (s.pw.baseReady + 5000000 ≤ s.now)

/-- The base die is powered and the boot ROM begins (R371, R407); within a restore, by 20 ms after the gain (R342). -/
def execBaseDiePowerUp (t : Nat) (s : State) : Host.Outcome State Fault Refusal :=
  run t s fun s =>
    if s.baseMayStart then
      let s := if s.isOwner && s.clp.restoreAt.isSome && s.bit Reg.LIN_WAKE_EN 2 then s.setBit Reg.LIN_WAKE_SRC 2 true else s
      s.basePower.restoreStep 2 20000000 true
    else s

/-- A standby whose checks are done powers its base die down and enters STANDBY (R409, R411). -/
def State.standbyDown (s : State) : State :=
  ((s.baseClear true).updPw (fun p => { p with standby := true, island := true, wakeReq := false })).pwShow

/-- After its checks a standby enters STANDBY: its journal is mounted and nothing else keeps it awake (R409). -/
def execStandbyEntry (t : Nat) (s : State) : Host.Outcome State Fault Refusal :=
  run t s fun s =>
    if s.clp.role = 1 && s.clp.peerValid && s.baseUp && s.bit Reg.JNL_STS 0 && s.bit Reg.NUG_STS 3 && s.lc != .void then s.standbyDown
    else s

/-- The crystal fails (R405): the RC oscillator runs the Lining, and the RTC is invalid. -/
def execCrystalFail (t : Nat) (s : State) : Host.Outcome State Fault Refusal :=
  run t s fun s =>
    if !s.pw.linUp then s else
    ({ s with time := { s.time with rtcValid := false } }.updPw (fun p => { p with lxtFail := true })).pwShow

/-! ## LIN_CTL (R411, R415, R425) -/

/-- May LIN_CTL be written so: PARK and PD_RESET not on the owner, UNPARK by the Lining service core? -/
def linCtlOk (w : Writer) (s : State) (v : Nat) : Bool :=
  (!(bitOf v 0 || bitOf v 1) || !(s.isOwner || s.clp.drive)) && (!bitOf v 3 || w.path == .lining)

/-- Leave PARK: the pulse die starts as from the 1 ms step (R411). -/
def State.leavePark (s : State) : State := (s.updPw (fun p => { p with parked := false })).pwShow

/-- A wake of the base die by a source of LIN_WAKE_EN (R425). -/
def State.wakeBase (s : State) (src : Nat) : State :=
  if s.bit Reg.LIN_WAKE_EN src && !s.basePowered then
    (s.setBit Reg.LIN_WAKE_SRC src true).updPw (fun p => { p with wakeReq := true })
  else s

/-- What a write of LIN_CTL does. -/
def linCtlEff (s : State) (v : Nat) : State :=
  let s := if bitOf v 3 && s.pw.parked then s.leavePark else s
  let s := if bitOf v 2 then s.wakeBase 3 else s
  let s := if bitOf v 1 && s.pulseUp then s.pulseRestart 2 1 else s
  if bitOf v 0 then
    let s := if s.basePowered then s.baseClear false else s
    (s.pulseClear.updPw (fun p => { p with parked := true, standby := false })).pwShow
  else s

/-- A write of LIN_CTL.PARK (R411). -/
def execLinPark (t : Nat) (w : Writer) (s : State) : Host.Outcome State Fault Refusal :=
  run t s fun s => s.ownWrite w Reg.LIN_CTL 1 (linCtlOk w) linCtlEff

/-- A write of LIN_CTL.UNPARK (R411). -/
def execLinUnpark (t : Nat) (w : Writer) (s : State) : Host.Outcome State Fault Refusal :=
  run t s fun s => s.ownWrite w Reg.LIN_CTL 8 (linCtlOk w) linCtlEff

/-- A UART break unparks a parked module; otherwise it wakes the base die if LIN_WAKE_EN lets it (R411, R425). -/
def execUartBreak (t : Nat) (s : State) : Host.Outcome State Fault Refusal :=
  run t s fun s => if !s.pw.linUp then s else if s.pw.parked then s.leavePark else s.wakeBase 4

/-- A write of LIN_CTL.PD_RESET (R415). -/
def execLinPdReset (t : Nat) (w : Writer) (s : State) : Host.Outcome State Fault Refusal :=
  run t s fun s => s.ownWrite w Reg.LIN_CTL 2 (linCtlOk w) linCtlEff

/-- A write of LIN_CTL.BASE_WAKE (R425). -/
def execLinBaseWake (t : Nat) (w : Writer) (s : State) : Host.Outcome State Fault Refusal :=
  run t s fun s => s.ownWrite w Reg.LIN_CTL 4 (linCtlOk w) linCtlEff

/-! ## Cooling (R412, R414, R450) -/

/-- The causes of R412 in a set of temperatures, each bound lowered by `less` degrees: a die, a DIMM. -/
def hotDie (c : TempIn) (less : Int) : Bool :=
  c.compute.any (fun x => decide (100 - less < x)) || decide (100 - less < c.base) || decide (115 - less < c.pulse)
def hotDimm (c : TempIn) (less : Int) : Bool := c.dimm.any (fun x => decide (85 - less < x))

/-- The temperatures as PWR shows them, FP32. -/
def State.showTemps (s : State) (c : TempIn) : State :=
  if !s.basePowered then s else
  let f (x : Int) : Nat := rn32 (Fv.ofInt x)
  let s := s.forAll (List.range 4) (fun s d => match c.compute[d]? with
    | some x => if pagePresent s.fx (0x30 + d) then s.setReg (Reg.PWR_TEMP_CD d) (f x) else s
    | none => s)
  (s.setReg Reg.PWR_TEMP_BASE (f c.base)).setReg Reg.PWR_TEMP_PULSE (f c.pulse)

/-- The cooling mode becomes AIR (R412): the AIR variant is selected and switched to under R70, channels 2 and 3 enter self-refresh,
and the recorder triggers. -/
def State.airEnter (s : State) : State :=
  if s.pw.air then s.pwShow else
  let s := s.updPw (fun p => { p with air := true, coolSince := none })
  let s := if s.basePowered then
      let s := s.softSwitch 2
      let s := (s.frTrigger 2 5).frAirOpen
      s.forAll [2, 3] (fun s c => if s.bit (Reg.DDC_STS c) 2 then s.setBit (Reg.DDC_STS c) 3 true else s)
    else s
  s.pwShow

/-- A cooling cause sets AIR (R412). -/
def execCoolingAirEntry (t : Nat) (c : TempIn) (s : State) : Host.Outcome State Fault Refusal :=
  run t s fun s =>
    if !s.pulseUp then s else
    let s := s.showTemps c
    let flow := !s.dinActive 1
    let die := hotDie c 0
    let dimm := hotDimm c 0
    if !(flow || die || dimm) then s else
    (s.updPw (fun p => { p with
      causeFlow := p.causeFlow || flow, causeDie := p.causeDie || die, causeDimm := p.causeDimm || dimm })).airEnter

/-- After 60 s of flow and of dies and DIMMs 10 degrees below their warnings, the mode returns to liquid (R412): the stacks are woken,
the variant is switched, and channels 2 and 3 leave self-refresh. -/
def execCoolingLiquidReturn (t : Nat) (c : TempIn) (heldNs : Nat) (s : State) : Host.Outcome State Fault Refusal :=
  run t s fun s =>
    let s := s.showTemps c
    let flow := s.dinActive 1 && (match sparseFind s.din.since 1 with
      | some a => decide (a + 60000000000 ≤ s.now)
      | none => false)
    if !s.pw.air || s.bit Reg.PWR_CTL 0 || !flow || hotDie c 10 || hotDimm c 10 || decide (heldNs < 60000000000) then s else
    let s := s.updPw (fun p => { p with
      air := false, base115 := false, causeFlow := false, causeDie := false, causeDimm := false,
      stack := p.stack.map (fun x => if x = .retention then .on else x) })
    let s := if s.basePowered then
        (s.softSwitch 2).forAll [2, 3] (fun s c => s.setBit (Reg.DDC_STS c) 3 false)
      else s
    s.pwShow

/-- What a write of PWR_CTL does: FORCE_AIR forces AIR; released, the mode returns under R412. -/
def pwrCtlEff (s : State) (v : Nat) : State := if bitOf v 0 then s.airEnter else s.pwShow

/-- A write of PWR_CTL.FORCE_AIR (R450). -/
def execPwrForceAir (t : Nat) (w : Writer) (v : Word) (s : State) : Host.Outcome State Fault Refusal :=
  run t s fun s => s.ownWrite w Reg.PWR_CTL v.toNat anyValue pwrCtlEff

/-- Power of a compute stack. -/
def State.setStack (s : State) (d : Fin 4) (p : StackPower) : State :=
  s.updPw (fun x => { x with stack := x.stack.set d p })

/-- The loader wakes a stack from retention sleep (R414). -/
def execStackWake (t : Nat) (d : Fin 4) (s : State) : Host.Outcome State Fault Refusal :=
  run t s fun s => if s.pw.stack[d] = .retention then (s.setStack d .on).pwShow else s

/-- The stacks after a variant switch (R414): off where not fitted, failed, or used by no variant; in retention sleep where the running
variant does not use them; else on. -/
def State.stackWant (s : State) (d : Fin 4) : StackPower :=
  if !s.baseUp || !pagePresent s.fx (0x30 + d.val) || s.stackFailed d.val then .off else
  match s.runningPat, s.runningRow with
  | some p, some r =>
    let mask := if r.steer then 2 ^ s.actBank.steer else r.stackN
    if bitOf mask d.val then .on
    else if p.variants.any (fun v => v.steer || bitOf v.stackN d.val) && (p.targetF || d.val < 2) then .retention else .off
  | _, _ => .on

/-- The stacks settle into what the running variant calls for; a stack powered off loses its tiles' content. -/
def State.stackSettle (s : State) : State :=
  let want := List.ofFn (n := 4) (fun d => s.stackWant d)
  if want = s.pw.stack.toList then s else
  (s.forAll (List.finRange 4) (fun s d => s.setStack d (want.getD d.val .off))).pwShow

/-- A compute die at 115 degrees C is failed as a stack (R412, R67). -/
def execComputeDieOvertemp (t : Nat) (d : Fin 4) (s : State) : Host.Outcome State Fault Refusal :=
  run t s fun s => if !pagePresent s.fx (0x30 + d.val) || !s.basePowered || s.stackFailed d then s else s.failStack d

/-! ## Resets (R415, R446) -/

/-- A Lining reset (R415): by its watchdog, or because keep-alive stayed below range beyond the hold-up; it reaches the pulse die and
the base die, and clears PARK. -/
def execLiningReset (t : Nat) (watchdog : Bool) (s : State) : Host.Outcome State Fault Refusal :=
  run t s fun s =>
    if !s.pw.linUp || (!watchdog && s.pw.kaOk) then s else
    let s := if s.basePowered then s.baseClear false else s
    let s := s.pulseClear
    if watchdog then s.liningStart s.pw.pocketOk
    else (s.updPw (fun p => { p with linUp := false, parked := false, standby := false, onHoldup := false })).pwShow

/-- No firmware heartbeat for 1 ms resets the pulse die (R415). -/
def execPulseDieWatchdog (t quietNs : Nat) (s : State) : Host.Outcome State Fault Refusal :=
  run t s fun s => if s.pulseUp && decide (1000000 ≤ quietNs) then s.pulseRestart 2 0 else s

/-- The detail of a base-die reset in RESET_LOG (log 45). -/
def baseDetail : BaseCause → Nat
  | .mainLost => 0
  | .overTemp => 1
  | .imageActivate => 2
  | .bootRetry => 3
  | .command => 4

/-- The base die resets (R415): with its supply lost, or at 115 degrees C, it stays down; else it starts again. -/
def execBaseDieReset (t : Nat) (cause : BaseCause) (s : State) : Host.Outcome State Fault Refusal :=
  run t s fun s =>
    if !s.basePowered then s else
    match cause with
    | .mainLost => (s.baseDown false).logReset 3 0
    | .overTemp => ((s.baseDown false).logReset 3 1).updPw (fun p => { p with base115 := true }) |>.pwShow
    | c => s.baseRestart (baseDetail c)

/-- May GLB_RESET be written so (R446)? -/
def glbResetOk (_ : State) (v : Nat) : Bool := v = 0xC3A5

/-- What a write of the key does: the reset falls due at the next plan-frame boundary at which no SYNC record waits, at most 25 ms
later. -/
def glbResetEff (s : State) (_ : Nat) : State := s.updPw (fun p => { p with glbResetAt := some s.now })

/-- A write of GLB_RESET (R446). -/
def execGlbReset (t : Nat) (w : Writer) (v : Word) (s : State) : Host.Outcome State Fault Refusal :=
  run t s fun s => s.ownWrite w Reg.GLB_RESET v.toNat glbResetOk glbResetEff

/-- The reset of R446 at a plan-frame boundary. -/
def State.glbBoundary (s : State) : State :=
  match s.pw.glbResetAt with
  | none => s
  | some a =>
    let waits := s.jnl.queue.any (fun e => e.item.sync) || (s.jnl.prog.getD []).any (fun r => r.sync)
    if a < s.now && (!waits || decide (a + 25000000 ≤ s.now + 1000000)) then s.baseRestart 4 else s

/-! ## Seams (R418 to R420) -/

/-- Entries in flight between the dies are lost: a reference, a plan, mailbox messages held for the base die (R420). -/
def State.seamFlush (s : State) : State :=
  { s with eng := { s.eng with refOut := none, planOut := [] }, mbx := { s.mbx with heldMsgs := [] } }

/-- A side leaves reset on QW-SC9-B and resynchronises each FIFO by handshake (R419). -/
def execSeamRecoverHandshake (t : Nat) (_pulseSide : Bool) (s : State) : Host.Outcome State Fault Refusal :=
  run t s fun s =>
    if s.fx.full || !s.pulseUp || !s.basePowered then s else
    s.seamFlush.inc Reg.LIN_SEAM_CNT

/-- The reset-indication level of QW-SC9-F (R420): while it is asserted every FIFO is flushed and held; its fall reopens them. -/
def execSeamRecoverIndication (t : Nat) (_pulseSide : Bool) (level : Bool) (s : State) : Host.Outcome State Fault Refusal :=
  run t s fun s =>
    if !s.fx.full || !s.pulseUp then s
    else if level then (s.seamFlush.updPw (fun p => { p with seamHeld := true }))
    else if s.pw.seamHeld then (s.updPw (fun p => { p with seamHeld := false })).inc Reg.LIN_SEAM_CNT
    else s

/-! ## Restarts that wait (R370) -/

/-- The image whose pulse-die firmware waits: the one selected for the next start, or the one started since. -/
def NugSt.waiting (x : NugSt) : Bool := if x.nextTrial then x.nextB else x.runB

/-- At a plan-frame boundary a module that no longer owns makes the restart and takes the pulse-die firmware that waited (R370). -/
def State.updateBoundary (s : State) : State :=
  if s.isOwner || s.clp.drive then s else
  let s := if s.nug.restartDue then { s.baseRestart 2 with nug := { (s.baseRestart 2).nug with restartDue := false } } else s
  if s.nug.pulseDue then { s with nug := { s.nug with pulseDue := false, pulseB := s.nug.waiting } }.pulseRestart 2 2 else s

end Sys2Proof.Machine
end

