-- ==== Sys2Proof/Machine/Inputs.lean ====
section
/-!
DEFINITION. The discrete inputs (R421 to R426): raw edges, the deglitched value, CHATTER and STUCK, and their clears. DIN_STS [0] is the
raw level; [1] and [2] are 1 while the filtered value and the value in use are active.
-/
namespace Sys2Proof.Machine

/-- The page of the inputs. -/
def dinPg : Nat := 0x113

/-- Is an input active at its high level (R421)? The brick and tray alerts and FLOOR_ALL_N are active low; a contactor feedback is
given by its closed state. -/
def activeHigh (n : Nat) : Bool := n < 3 || (4 ≤ n && n < 8)

/-- The safe value of an input, as active (1) or not; none: as read (R421). -/
def safeActive (n : Nat) : Option Bool :=
  if n = 0 then some true else if n = 3 then none else if n < 8 then some false else some true

/-- MODE of an input. -/
def State.dinMode (s : State) (n : Nat) : Nat := s.fld (Reg.DIN_STS n) 3 2

/-- The value in use follows mode and filtered value (R422); PWR_GOOD also tells the Lining (R404), and a tray alert moves the tray's
floor (R185, R424). PWR_GOOD lost is acted on by MAIN_LOSS. -/
def State.dinUse (s : State) (n : Nat) : State :=
  let f := s.bit (Reg.DIN_STS n) 1
  let v := if s.dinMode n = 0 then f else (safeActive n).getD f
  let s := s.setBit (Reg.DIN_STS n) 2 v
  if n = 2 then
    if v && !s.pw.pwrGood then (s.updPw (fun p => { p with pwrGood := true, baseReady := s.now })).pwShow else s
  else if 56 ≤ n then
    (if v = bitOf s.gov.alerts (n - 56) then s else if v then s.alertActive (n - 56) else s.alertInactive (n - 56))
  else s

/-- Enter or leave a mode: the bit arrays, the count, and INPUT_MODE at an entry (R423, R426, R471). -/
def State.setDinMode (s : State) (n mode : Nat) : State :=
  let s := s.setFld (Reg.DIN_STS n) 3 2 mode
  let w := n / 32
  let s := s.setBit (Reg.DIN_CHATTER w) (n % 32) (mode = 1)
  let s := s.setBit (Reg.DIN_STUCK w) (n % 32) (mode = 2)
  let s := if mode = 0 then s else (s.inc Reg.DIN_MODE_CNT).post dinPg sevWarn 0x0055 n mode 0 0 0
  s.dinUse n

/-- DIN_CHAT_WIN in ns. -/
def State.chatWin (s : State) : Nat := s.reg Reg.DIN_CHAT_WIN * 1000000

/-- The raw edges of an input within the window that ends now. -/
def State.dinEdges (s : State) (n : Nat) : List Nat :=
  ((sparseFind s.din.edges n).getD []).filter (fun e => decide (s.now < e + s.chatWin))

/-- A raw edge (R423): edges of at least 20 ns count; more than DIN_CHAT_EDGES within DIN_CHAT_WIN enter CHATTER. -/
def execDinEdge (t : Nat) (n : Fin 88) (level : Bool) (widthNs : Nat) (s : State) : Host.Outcome State Fault Refusal :=
  run t s fun s =>
    if !s.pulseUp then s else
    let s := s.setBit (Reg.DIN_STS n) 0 level
    if widthNs < 20 then s else
    let l := s.dinEdges n ++ [s.now]
    let s := { s with din := { s.din with
      edges := sparseIns (sparseErase s.din.edges n.val) n.val (lastN 256 l),
      last := sparseIns (sparseErase s.din.last n.val) n.val s.now } }
    let s := s.setFld (Reg.DIN_STS n) 8 8 (min 255 l.length)
    if s.bit (Reg.DIN_CFG n) 14 && s.dinMode n = 0 && decide (s.reg Reg.DIN_CHAT_EDGES < l.length) then s.setDinMode n 1 else s

/-- After the deglitch time at a new level the filtered value changes (R422). -/
def execDinFilteredChange (t : Nat) (n : Fin 88) (level : Bool) (heldNs : Nat) (s : State) : Host.Outcome State Fault Refusal :=
  run t s fun s =>
    let act := level == activeHigh n
    if !s.pulseUp || n.val = 0 || decide (heldNs < 100 * s.fld (Reg.DIN_CFG n) 0 14) || s.bit (Reg.DIN_STS n) 1 = act then s else
    let s := (s.setBit (Reg.DIN_STS n) 0 level).setBit (Reg.DIN_STS n) 1 act
    let since := sparseErase s.din.since n.val
    let s := { s with din := { s.din with since := if act then sparseIns since n.val s.now else since } }
    s.dinUse n

/-- The stuck-active timeout has passed (R424): STUCK; for the FLOOR_ALL_N readback only the event is posted. -/
def execDinStuck (t : Nat) (n : Fin 88) (s : State) : Host.Outcome State Fault Refusal :=
  run t s fun s =>
    let ms := s.fld (Reg.DIN_CFG n) 16 16
    match sparseFind s.din.since n.val with
    | none => s
    | some a =>
      if ms = 0 || s.dinMode n ≠ 0 || !s.pulseUp || decide (s.now ≤ a + ms * 1000000) then s
      else s.setDinMode n 2

/-- PWR_GOOD without a raw edge for 10 s leaves CHATTER (R423). -/
def execPwrGoodChatterClear (t : Nat) (s : State) : Host.Outcome State Fault Refusal :=
  run t s fun s =>
    let quiet := match sparseFind s.din.last 2 with
      | some e => decide (e + 10000000000 ≤ s.now)
      | none => true
    if s.dinMode 2 = 1 && quiet then s.setDinMode 2 0 else s

/-- May DIN_CLR be written so (R423, R424, R426)? -/
def dinClrOk (s : State) (v : Nat) : Bool :=
  let n := v % 128
  n < 88 && (s.dinMode n ≠ 1 || (s.dinEdges n).isEmpty) && (s.dinMode n ≠ 2 || !s.bit (Reg.DIN_STS n) 1)

/-- What a write of DIN_CLR does. -/
def dinClrEff (s : State) (v : Nat) : State := if s.dinMode (v % 128) = 0 then s else s.setDinMode (v % 128) 0

/-- A write of DIN_CLR (R426). -/
def execDinClr (t : Nat) (w : Writer) (v : Word) (s : State) : Host.Outcome State Fault Refusal :=
  run t s fun s => s.ownWrite w Reg.DIN_CLR v.toNat dinClrOk dinClrEff

/-- May DIN_CFG of an input be written so (R426)? Input 0's is read-only. -/
def dinCfgOk (n : Nat) (_ : State) (v : Nat) : Bool :=
  let d := v % 2 ^ 14
  n ≠ 0 && 1 ≤ d && d ≤ 10000 && (n < 56 || d ≤ 10)

end Sys2Proof.Machine
end

