-- ==== Sys2Proof/Machine/Mailbox.lean ====
section
/-!
DEFINITION. The mailboxes (R48, R356 to R362): posts, fetches and acknowledgements by the registers, the MBP slot and doorbell
frames, and the coefficient loads of the control-law engine.
-/
namespace Sys2Proof.Machine

/-! ## Agents and their paths (R356) -/

/-- The agent that a path serves; the UART console and JTAG serve none. -/
def agentOf : Path → Option Nat
  | .nugen => some 0
  | .mbp => some 1
  | .mgmt => some 3
  | .slot => some 4
  | .uart | .jtag | .lining => none

/-- A path's place in the tables of staging and read buffers. -/
def pathIdx : Path → Fin 7
  | .nugen => 0
  | .mgmt => 1
  | .slot => 2
  | .uart => 3
  | .jtag => 4
  | .mbp => 5
  | .lining => 6

/-- A path's MBX_DSEL on a mailbox page. -/
def dselIdx (pg : Fin 4) (p : Path) : Fin 28 := ⟨7 * pg.val + (pathIdx p).val, by have := (pathIdx p).isLt; omega⟩

/-- The receiving agent of a mailbox. -/
def State.mbxRx (s : State) (n : Nat) : Nat := s.fld (Reg.MBX_CFG n) 0 3

/-- May the path's agent post to the mailbox (R357)? -/
def State.pathPosts (s : State) (p : Path) (n : Nat) : Bool :=
  match agentOf p with
  | some a => s.mbxAdmits n a
  | none => false

/-- Is the path's agent the mailbox's receiver? -/
def State.pathReceives (s : State) (p : Path) (n : Nat) : Bool := agentOf p = some (s.mbxRx n)

/-- Replace a path's staging buffer. -/
def State.setStaging (s : State) (p : Path) (m : BitVec 2048) : State :=
  { s with mbx := { s.mbx with staging := s.mbx.staging.set (pathIdx p) m } }

/-- Replace a path's read buffer. -/
def State.setReadBuf (s : State) (p : Path) (m : BitVec 2048) : State :=
  { s with mbx := { s.mbx with readBuf := s.mbx.readBuf.set (pathIdx p) m } }

/-- Answer the peer's post or message over the slot link. -/
def State.answerPeer (s : State) (n : Fin 64) (code : Nat) : State :=
  { s with nug := { s.nug with acksToPeer := s.nug.acksToPeer ++ [(n.val, code)] } }

/-! ## Post, fetch (R358 to R360) -/

/-- A message of the peer for a base die that is down (R360): the pulse die holds up to 4 and wakes the base die; a fifth is
refused as NOT_READY. -/
def State.holdMsg (s : State) (n : Fin 64) (m : BitVec 2048) : State :=
  if 4 ≤ s.mbx.heldMsgs.length then s.answerPeer n 0x0101
  else
    let s := { s with mbx := { s.mbx with heldMsgs := s.mbx.heldMsgs ++ [(n.val, m)] } }
    if s.bit (Reg.MBX_CFG n) 16 then s.wakeBase 1 else s

/-- A path's agent posts its staging buffer. -/
def State.pathPost (s : State) (p : Path) (n : Fin 64) (sess : Option (Fin 64)) : State :=
  let m := s.mbx.staging[pathIdx p]
  if p == .slot && !s.baseUp then s.holdMsg n m
  else match agentOf p with
    | some a => s.mbxArrive n a m sess
    | none => s

/-- The empty marker (R359): its first two bytes are 0xFFFF; the spec states no others. -/
def emptyMarker (free : Nat) : BitVec 2048 := BitVec.ofNat 2048 (0xFFFF + 2 ^ 16 * Config.freeValue free 0)

/-- A fetch into a path's read buffer (R359). -/
def State.pathFetch (s : State) (p : Path) (n : Fin 64) : State :=
  let full := s.bit (Reg.MBX_STS n) 0
  let m := if full then s.mbx.box[n].msg else emptyMarker s.free
  let s := if full then s else { s with free := s.free + 1 }
  (s.mbxTaken n).setReadBuf p m

/-- May a path's agent acknowledge (R359): it is the receiver and has fetched since the last acknowledgement? -/
def State.mayAck (s : State) (p : Path) (n : Fin 64) : Bool := s.pathReceives p n && s.mbx.box[n].fetched

/-- Mailbox pages by their index, and a mailbox by page and number on it. -/
def mbxOf (pg : Fin 4) (k : Nat) : Fin 64 := ⟨16 * pg.val + k % 16, by omega⟩
def mbxPageOf (n : Fin 64) : Nat := n.val / 16

/-- The rule of a write of MBX_POST (R357): TX_MASK admits the path's agent. On the slot link a refusal is answered instead. -/
def mbxPostOk (w : Writer) (pg : Fin 4) (s : State) (v : Nat) : Bool := s.pathPosts w.path (mbxOf pg v)

/-- What a write of MBX_POST does. -/
def mbxPostEff (w : Writer) (pg : Fin 4) (s : State) (v : Nat) : State := s.pathPost w.path (mbxOf pg v) none

/-- A write of MBX_POST for mailbox `n` (R358, R380). -/
def execMbxPost (t : Nat) (w : Writer) (n : Fin 64) (s : State) : Host.Outcome State Fault Refusal :=
  run t s fun s =>
    let pg : Fin 4 := ⟨mbxPageOf n, by unfold mbxPageOf; omega⟩
    if w.path == .slot && pathArrives s w (0x90 + mbxPageOf n) && !s.mbxAdmits n 4 then s.answerPeer n 0x0242
    else s.ownWrite w (Reg.MBX_POST (mbxPageOf n)) (n.val % 16) (mbxPostOk w pg) (mbxPostEff w pg)

/-- The rule of a write of MBX_FETCH: the receiver alone takes a mailbox's messages (R356). -/
def mbxFetchOk (w : Writer) (pg : Fin 4) (s : State) (v : Nat) : Bool := s.pathReceives w.path (mbxOf pg v)

/-- What a write of MBX_FETCH does. -/
def mbxFetchEff (w : Writer) (pg : Fin 4) (s : State) (v : Nat) : State := s.pathFetch w.path (mbxOf pg v)

/-- A write of MBX_FETCH for mailbox `n` (R359, R380). -/
def execMbxFetch (t : Nat) (w : Writer) (n : Fin 64) (s : State) : Host.Outcome State Fault Refusal :=
  run t s fun s =>
    let pg : Fin 4 := ⟨mbxPageOf n, by unfold mbxPageOf; omega⟩
    s.ownWrite w (Reg.MBX_FETCH (mbxPageOf n)) (n.val % 16) (mbxFetchOk w pg) (mbxFetchEff w pg)

/-- A write of MBX_ACK of mailbox `n` (R359). -/
def execMbxAck (t : Nat) (w : Writer) (n : Fin 64) (v : Word) (s : State) : Host.Outcome State Fault Refusal :=
  run t s fun s => s.ownWrite w (Reg.MBX_ACK n) v.toNat (fun s _ => s.mayAck w.path n) (fun s v => s.mbxAck n v)

/-! ## The windows of the buffers (R380) -/

/-- Word `k` of a message, and the message with that word replaced. -/
def msgWord (m : BitVec 2048) (k : Nat) : Nat := fieldOf m.toNat (32 * k) 32
def msgWithWord (m : BitVec 2048) (k v : Nat) : BitVec 2048 := BitVec.ofNat 2048 (withField m.toNat (32 * k) 32 v)

/-- The word field of a path's MBX_DSEL, and its advance by 1, from 63 back to 0. -/
def State.dselWord (s : State) (pg : Fin 4) (p : Path) : Nat := fieldOf (s.mbx.dsel[dselIdx pg p]).toNat 4 6
def State.setDsel (s : State) (pg : Fin 4) (p : Path) (v : Nat) : State :=
  { s with mbx := { s.mbx with dsel := s.mbx.dsel.set (dselIdx pg p) (BitVec.ofNat 10 v) } }
def State.dselAdvance (s : State) (pg : Fin 4) (p : Path) : State :=
  s.setDsel pg p (withField (s.mbx.dsel[dselIdx pg p]).toNat 4 6 ((s.dselWord pg p + 1) % 64))

/-- What a write of MBX_DSEL does: it is held per path. -/
def mbxDselEff (w : Writer) (pg : Fin 4) (s : State) (v : Nat) : State := (s.clrReg (Reg.MBX_DSEL pg)).setDsel pg w.path v

/-- What a write of MBX_WDATA does. -/
def mbxWdataEff (w : Writer) (pg : Fin 4) (s : State) (v : Nat) : State :=
  (s.setStaging w.path (msgWithWord s.mbx.staging[pathIdx w.path] (s.dselWord pg w.path) v)).dselAdvance pg w.path

/-- A write of MBX_WDATA (R380). -/
def execMbxWdataWrite (t : Nat) (w : Writer) (pg : Fin 4) (v : Word) (s : State) : Host.Outcome State Fault Refusal :=
  run t s fun s => s.ownWrite w (Reg.MBX_WDATA pg) v.toNat anyValue (mbxWdataEff w pg)

/-- What a read of MBX_RDATA returns (R380). -/
def State.rdata (s : State) (p : Path) (pg : Fin 4) : Nat := msgWord s.mbx.readBuf[pathIdx p] (s.dselWord pg p)

/-- A read of MBX_RDATA (R380, R429): the word field advances. -/
def execMbxRdataRead (t : Nat) (w : Writer) (pg : Fin 4) (s : State) : Host.Outcome State Fault Refusal :=
  run t s fun s =>
    if s.basePowered && w.path != .lining && (w.path != .jtag || lcJtag s.lc) then s.dselAdvance pg w.path else s

/-! ## The sequencer's mailbox port (R48) -/

/-- The writer of path 5. -/
def mbpWriter : Writer := ⟨.mbp, 0, .admin⟩

/-- MBX of an MBP op. -/
def mbpBox (slot : BitVec 16) : Fin 64 := ⟨fieldOf slot.toNat 6 6, Nat.mod_lt _ (by decide)⟩

/-- The shared-memory buffer that DESC names in the running Pattern's MBX_DESC table. -/
def State.mbpAddr (s : State) (slot : BitVec 16) : Nat :=
  match s.runningPat with
  | some p => p.mbxDesc.getD (fieldOf slot.toNat 12 4) 0
  | none => 0

/-- MBP POST (R48, R358): 256 bytes of the buffer into the mailbox; a refused post is recorded as REJECTED. -/
def execMbpPost (t : Nat) (slot : BitVec 16) (s : State) : Host.Outcome State Fault Refusal :=
  run t s fun s =>
    if !s.seq.body.active then s else
    let n := mbpBox slot
    let s := s.setStaging .mbp (BitVec.ofNat 2048 (s.le (s.mbpAddr slot) 256))
    if s.mbxAdmits n 1 then s.pathPost .mbp n none
    else s.rejectWrite mbpWriter (Reg.MBX_POST (mbxPageOf n)) (n.val % 16) false

/-- MBP FETCH (R48, R359): the message, or the empty marker, into the buffer; a mailbox that the sequencer does not receive gives
it the empty marker. -/
def execMbpFetch (t : Nat) (slot : BitVec 16) (s : State) : Host.Outcome State Fault Refusal :=
  run t s fun s =>
    if !s.seq.body.active then s else
    let n := mbpBox slot
    let s := if s.pathReceives .mbp n then s.pathFetch .mbp n
      else { s.setReadBuf .mbp (emptyMarker s.free) with free := s.free + 1 }
    s.putBytes (s.mbpAddr slot) (leBytes 256 s.mbx.readBuf[pathIdx .mbp].toNat)

/-- MBP ACK (R48, R359): the return code in the buffer is written to MBX_ACK by path 5. -/
def execMbpAck (t : Nat) (slot : BitVec 16) (s : State) : Host.Outcome State Fault Refusal :=
  run t s fun s =>
    if !s.seq.body.active then s else
    let n := mbpBox slot
    s.ownWrite mbpWriter (Reg.MBX_ACK n) (s.le (s.mbpAddr slot) 2) (fun s _ => s.mayAck .mbp n) (fun s v => s.mbxAck n v)

/-! ## Doorbell frames (R361) -/

/-- Operations of a session that lie within the last second. -/
def State.recentOps (s : State) (e : SessSt) : List Nat := e.ops.filter (fun a => s.now < a + 1000000000)

/-- A host operation by doorbell (R361): answered with a RESULT; the 1,001st within a second with BUSY. -/
def State.doorbell (s : State) (i : Fin 64) (f : State → State × Nat) : State :=
  match s.nug.sess[i] with
  | none => s
  | some e =>
    if !e.doorbell || !s.baseUp || !s.mgmtUp || !s.bit Reg.MGP_CTL 2 then s else
    let l := s.recentOps e
    if 1000 ≤ l.length then s.updSess i (fun e => { e with ops := l, result := 0x0100 })
    else
      let x := f s
      x.1.updSess i (fun e => { e with ops := l ++ [s.now], result := x.2 })

/-- A doorbell POST. -/
def execDoorbellPost (t : Nat) (sess : Fin 64) (n : Fin 64) (m : Message) (s : State) : Host.Outcome State Fault Refusal :=
  run t s fun s => s.doorbell sess fun s =>
    let s := s.setStaging .mgmt m
    if s.mbxAdmits n 3 then (s.pathPost .mgmt n (some sess), 0) else (s, 0x0242)

/-- A doorbell FETCH: the message goes to the session in the RESULT. -/
def execDoorbellFetch (t : Nat) (sess : Fin 64) (n : Fin 64) (s : State) : Host.Outcome State Fault Refusal :=
  run t s fun s => s.doorbell sess fun s =>
    if s.pathReceives .mgmt n then (s.pathFetch .mgmt n, 0) else (s, 0x0242)

/-- A doorbell ACK: one by another than the receiver, or with no fetch, is recorded as REJECTED (R359). -/
def execDoorbellAck (t : Nat) (sess : Fin 64) (n : Fin 64) (code : BitVec 16) (s : State) : Host.Outcome State Fault Refusal :=
  run t s fun s => s.doorbell sess fun s =>
    if s.mayAck .mgmt n then (s.mbxAck n code.toNat, 0)
    else
      let w : Writer := ⟨.mgmt, BitVec.ofNat 12 sess.val, .auditor⟩
      (s.rejectWrite w (Reg.MBX_ACK n) code.toNat false, if s.pathReceives .mgmt n then 0x0247 else 0x0242)

/-! ## Coefficient loads (R362) -/

/-- The answer to a coefficient load: FORMAT for an instance, bank or word that does not exist, RANGE for FIRST and COUNT, CONFLICT
for the bank in use, LIFECYCLE for a locked one. -/
def State.coefCode (s : State) (m : Nat) : Nat :=
  let i := fieldOf m 0 8
  let b := fieldOf m 8 8
  let k := fieldOf m 16 8
  let c := fieldOf m 24 8
  if 64 ≤ i ∨ 2 ≤ b then 0x0241
  else if c = 0 ∨ 60 < c ∨ 128 < k + c then 0x0248
  else if s.cleBankOf i == (b = 1) then 0x0249
  else if !s.coefOpen i (b = 1) then 0x0243
  else 0

/-- The CLE takes a coefficient load from a mailbox it receives (R362): it writes the words, requests the swap where the message
asks for it, and acknowledges. -/
def execCleCoefLoad (t : Nat) (n : Fin 64) (s : State) : Host.Outcome State Fault Refusal :=
  run t s fun s =>
    if !s.baseUp || !s.pulseUp || s.mbxRx n ≠ 2 || !s.bit (Reg.MBX_STS n) 0 then s else
    let m := s.mbx.box[n].msg.toNat
    let s := s.mbxTaken n
    let code := s.coefCode m
    let i := fieldOf m 0 8
    let b : Bool := fieldOf m 8 8 = 1
    let s := if code ≠ 0 then s else
      let s := s.forAll (List.range (fieldOf m 24 8)) (fun s j =>
        s.setCoef i b (fieldOf m 16 8 + j) (fieldOf m (64 + 32 * j) 32))
      if bitOf (fieldOf m 32 8) 0 then s.cleSwapReq i b else s
    s.mbxAck n code

end Sys2Proof.Machine
end

