-- ==== Sys2Proof/Machine/Nugen.lean ====
section
/-!
DEFINITION. Nugen, the management port, Signet, Locket and the life cycle (R350 to R379): the watchdog and restarts, sessions,
Redfish, the service commands, boot images, attestation, tokens and key generation.
-/
namespace Sys2Proof.Machine

/-- Nugen's page. -/
def nugPg : Nat := 0xB0

/-- Replace Nugen's record. -/
def State.updNug (s : State) (f : NugSt → NugSt) : State := { s with nug := f s.nug }

/-- Nugen's cores run, or are clock-gated until the next arrival (R360). -/
def State.nugRuns (s : State) : Bool := s.baseUp && (s.bit Reg.NUG_STS 0 || s.pw.nugSleep)

/-- Nugen has loaded the policy and the wiring plan (R355). -/
def State.nugReady (s : State) : Bool := s.nugRuns && s.bit Reg.NUG_STS 3

/-! ## The watchdog and restarts (R350, R380) -/

/-- Sessions open. -/
def State.sessOpen (s : State) : Nat := (s.nug.sess.toList.filter Option.isSome).length

/-- MGP_STS shows them. -/
def State.mgpShow (s : State) : State := s.setFld Reg.MGP_STS 8 8 s.sessOpen

/-- Nugen's cores restart from the active image (R350): sessions and long commands end with them; the rest of the module goes on. -/
def State.nugRestart (s : State) : State :=
  let s := s.updNug (fun x => { x with sess := Vector.replicate 64 none, jobs := [], sigJobs := [], acks := [], kickAt := s.now })
  let s := { s with pw := { s.pw with nugSleep := false } }
  let s := ((s.setBit Reg.NUG_STS 0 true).setBit Reg.NUG_STS 3 false).setFld Reg.NUG_STS 4 4 4
  (s.setFld Reg.SIG_STS 8 8 0).mgpShow.inc Reg.NUG_RESTART_CNT

/-- The watchdog was not kicked for NUG_WDOG (R350). -/
def execNugenWatchdogExpire (t : Nat) (s : State) : Host.Outcome State Fault Refusal :=
  run t s fun s =>
    if s.baseUp && s.bit Reg.NUG_STS 0 && decide (s.nug.kickAt + s.reg Reg.NUG_WDOG * 1000000 ≤ s.now) then s.nugRestart else s

/-- What a write of NUG_WDOG_KICK does. -/
def nugKickEff (s : State) (_ : Nat) : State := s.updNug (fun x => { x with kickAt := s.now })

/-- A write of NUG_WDOG_KICK (R380). -/
def execNugWdogKick (t : Nat) (w : Writer) (v : Word) (s : State) : Host.Outcome State Fault Refusal :=
  run t s fun s => s.ownWrite w Reg.NUG_WDOG_KICK v.toNat anyValue nugKickEff

/-- SLEEP (R360): a standby powers its base die down again; on another module the cores are clock-gated. -/
def State.nugGate (s : State) : State :=
  if !s.baseUp then s
  else if s.clp.role = 1 && s.clp.peerValid then s.standbyDown
  else ({ s with pw := { s.pw with nugSleep := true } }).setBit Reg.NUG_STS 0 false

/-- What a write of NUG_CTL does. -/
def nugCtlEff (s : State) (v : Nat) : State :=
  if !s.baseUp then s
  else
    let s := if bitOf v 1 then s.nugRestart else s
    if bitOf v 0 then s.nugGate else s

/-- A write of NUG_CTL.RESTART (R380). -/
def execNugCtlRestart (t : Nat) (w : Writer) (s : State) : Host.Outcome State Fault Refusal :=
  run t s fun s => s.ownWrite w Reg.NUG_CTL 2 anyValue nugCtlEff

/-- A write of NUG_CTL.SLEEP (R360, R380). -/
def execNugCtlSleep (t : Nat) (w : Writer) (s : State) : Host.Outcome State Fault Refusal :=
  run t s fun s => s.ownWrite w Reg.NUG_CTL 1 anyValue nugCtlEff

/-- 10 min without a service command on a standby that was woken for one (R360). -/
def execStandbyServiceTimeout (t : Nat) (s : State) : Host.Outcome State Fault Refusal :=
  run t s fun s =>
    if s.baseUp && s.clp.role = 1 && s.clp.peerValid && decide (s.pw.lastService + 600000000000 ≤ s.now) then s.standbyDown else s

/-! ## Sessions (R353, R354, R378) -/

/-- The role that a client certificate gives in a life-cycle state, if it gives one. -/
def admitRole (lc : LifeCycle) (h : TlsHello) : Option Role :=
  if !h.supported then none else
  match h.roles with
  | [r] =>
    match lc with
    | .fab | .returned => if h.makerChain && r == .service then some r else none
    | .void => if h.ownerChain && r == .auditor then some r else none
    | .provision | .field => if h.ownerChain then some r else none
  | _ => none

/-- The lowest free session number below a bound. -/
def State.freeSess (s : State) : Option (Fin 64) := (List.finRange 64).find? (fun i => s.nug.sess[i].isNone)

/-- A TLS handshake (R353, R354): it opens a session, is refused with HTTP 503 where no more may be open, or fails. -/
def execTlsHandshake (t : Nat) (h : TlsHello) (s : State) : Host.Outcome State Fault Refusal :=
  run t s fun s =>
    if !s.nugRuns || !s.mgmtUp then s else
    match admitRole s.lc h with
    | none => s.inc Reg.MGP_TLS_FAIL
    | some r =>
      if s.reg Reg.MGP_SESS_MAX ≤ s.sessOpen then s else
      match s.freeSess with
      | none => s
      | some i =>
        (s.updNug (fun x => { x with sess := x.sess.set i (some ⟨r, h.doorbell, false, [], 0, 200⟩) })).mgpShow

/-- A session closes. -/
def execSessionClose (t : Nat) (sess : Fin 64) (s : State) : Host.Outcome State Fault Refusal :=
  run t s fun s => (s.updNug (fun x => { x with sess := x.sess.set sess none })).mgpShow

/-! ## The DRBG and the entropy source (R365) -/

/-- SIG_STS.TRNG_FAIL. -/
def State.trngFail (s : State) : Bool := s.bit Reg.SIG_STS 1

/-- A request of the DRBG: reseeded every 2^20 requests. -/
def State.drbgDraw (s : State) : State := s.updNug (fun x => { x with drbg := (x.drbg + 1) % 2 ^ 20 })

/-- A health test of the entropy source fails (R365). -/
def execTrngHealthFail (t : Nat) (s : State) : Host.Outcome State Fault Refusal :=
  run t s fun s =>
    if s.basePowered then ((s.setBit Reg.SIG_STS 1 true).setBit Reg.SIG_STS 0 false).inc Reg.SIG_TRNG_FAIL_CNT else s

/-- 1,024 consecutive samples have passed (R365). -/
def execTrngRecover (t good : Nat) (s : State) : Host.Outcome State Fault Refusal :=
  run t s fun s =>
    if s.trngFail && decide (1024 ≤ good) then (s.setBit Reg.SIG_STS 1 false).setBit Reg.SIG_STS 0 true else s

/-- SIG_STS shows the jobs queued. -/
def State.sigShow (s : State) : State := s.setFld Reg.SIG_STS 8 8 (min 255 s.nug.sigJobs.length)

/-- Queue Signet jobs for a long command (R365). -/
def State.sigQueue (s : State) (tag : Word) (prio : Nat) (l : List SigEngine) : State :=
  (s.updNug (fun x => { x with sigJobs := x.sigJobs ++ l.map (fun e => ⟨e, prio, tag⟩) })).sigShow

/-- The engine's next job: of the highest priority, the oldest. -/
def nextJob (e : SigEngine) : List SigJob → Option SigJob
  | [] => none
  | j :: l =>
    if j.engine != e then nextJob e l
    else match nextJob e l with
      | some k => if k.prio < j.prio then some k else some j
      | none => some j

/-- One wait of the long command with a TAG is over. -/
def lessWait (tag : Word) : List SvcJob → List SvcJob
  | [] => []
  | j :: l => if j.tag = tag ∧ 0 < j.waits then { j with waits := j.waits - 1 } :: l else j :: lessWait tag l

/-- Signet completes a job of an engine (R365). -/
def execSignetJob (t : Nat) (e : SigEngine) (s : State) : Host.Outcome State Fault Refusal :=
  run t s fun s =>
    match nextJob e s.nug.sigJobs with
    | none => s
    | some j =>
      (s.updNug (fun x => { x with sigJobs := x.sigJobs.erase j, jobs := lessWait j.tag x.jobs })).sigShow.inc Reg.SIG_JOBS

/-! ## Nonces (R376) -/

/-- A fresh nonce from the DRBG; none can be drawn while TRNG_FAIL is set. -/
def State.newNonce (s : State) : State :=
  if s.trngFail then s.updNug (fun x => { x with nonceOk := false }) else
  let s := s.drbgDraw
  let s := s.forAll (List.range 8) (fun s k => s.setReg (Reg.LCS_NONCE k) (Config.freeValue s.free k % 2 ^ 32))
  let s := (s.stampReg Reg.LCS_NONCE_STAMP).updNug (fun x => { x with nonceOk := true })
  { s with free := s.free + 1 }

/-- The present nonce. -/
def State.nonce (s : State) : Nat := ofLe ((List.range 8).map (fun k => leBytes 4 (s.reg (Reg.LCS_NONCE k)))).flatten

/-- A nonce becomes invalid after 1 h (R376). -/
def execNonceExpire (t : Nat) (s : State) : Host.Outcome State Fault Refusal :=
  run t s fun s =>
    if s.nug.nonceOk && decide (s.reg Reg.LCS_NONCE_STAMP + 3600000000000 ≤ s.now) then
      s.updNug (fun x => { x with nonceOk := false })
    else s

/-! ## Notices (R363) -/

/-- A notice in mailbox 40: CMD, LEN and TAG of the header of R363, and a payload that begins with the return code (log 46). -/
def noticeOf (cmd : Nat) (tag : Word) (code : Nat) (extra : List Byte) : BitVec 2048 :=
  BitVec.ofNat 2048 (ofLe (leBytes 2 cmd ++ leBytes 2 (2 + extra.length) ++ leBytes 4 tag.toNat ++ List.replicate 16 0#8 ++
    leBytes 2 code ++ extra))

/-- Post it. -/
def State.notice (s : State) (cmd : Nat) (tag : Word) (code : Nat) (extra : List Byte) : State :=
  s.mbxSelf 40 0 (noticeOf cmd tag code extra)

/-! ## Return codes (R364) -/

def rcDone : Nat := 0x0000
def rcAccepted : Nat := 0x0001
def rcNoChange : Nat := 0x0002
def rcBusy : Nat := 0x0100
def rcNotReady : Nat := 0x0101
def rcPeerUnreachable : Nat := 0x0102
def rcFormat : Nat := 0x0241
def rcRole : Nat := 0x0242
def rcLifecycle : Nat := 0x0243
def rcSignature : Nat := 0x0244
def rcRollback : Nat := 0x0245
def rcTenant : Nat := 0x0246
def rcPrecondition : Nat := 0x0247
def rcConflict : Nat := 0x0249
def rcStaleNonce : Nat := 0x024A

/-! ## Who may send what (R354, R363, R378) -/

/-- CMD of a service command. -/
def svcCode : SvcCmd → Nat
  | .patternStage _ => 0x0001
  | .patternSwap _ => 0x0002
  | .policyCommit _ => 0x0010
  | .standingPolicy _ => 0x0011
  | .limitOverride _ => 0x0012
  | .wiringLoad _ _ => 0x0020
  | .shipEnter => 0x0030
  | .shipExit => 0x0031
  | .imageStage _ => 0x0040
  | .imageActivate => 0x0041
  | .attest _ => 0x0050
  | .lcNonce => 0x0060
  | .lcTransition _ _ => 0x0061
  | .ownerEnroll _ => 0x0062
  | .hmkKeygen => 0x0063

/-- The roles that may send a command. The role of LC_TRANSITION is its tokens' (R375): a session that may request it is an ADMIN's,
or the maker's in FAB and RETURN. -/
def svcRole (lc : LifeCycle) (c : SvcCmd) (r : Role) : Bool :=
  match c with
  | .policyCommit _ | .limitOverride _ => r == .operator || r == .admin
  | .shipEnter | .shipExit => r == .admin || r == .service
  | .attest _ => r != .service
  | .lcTransition _ _ => r == .admin || (r == .service && (lc == .fab || lc == .returned))
  | .patternStage _ | .patternSwap _ | .standingPolicy _ | .wiringLoad _ _ | .imageStage _ | .imageActivate | .lcNonce
  | .ownerEnroll _ | .hmkKeygen => r == .admin

/-- Does the life-cycle state open what a command asks for (R378)? -/
def svcOpen (lc : LifeCycle) (c : SvcCmd) : Bool :=
  match c with
  | .policyCommit _ | .standingPolicy _ | .wiringLoad _ _ | .ownerEnroll _ | .hmkKeygen => lcOwnerData lc
  | .shipExit => !lcShipForced lc
  | .patternStage _ | .patternSwap _ | .limitOverride _ | .shipEnter | .imageStage _ | .imageActivate | .attest _ | .lcNonce
  | .lcTransition _ _ => true

/-! ## Patterns (R61, R66, R351) -/

/-- The Pattern staging area (R351). -/
def stageAddr : Nat := 0x8080000000

/-- What a command answers: the state, the return code, the restarts that follow the acknowledgement, and the record (type and
payload) that the acknowledgement waits for (R384). -/
structure SvcOut where
  st : State
  code : Nat
  base : Bool := false
  pulse : Bool := false
  detail : Nat := 2
  wait : Option (Nat × List Byte) := none

/-- Put a long command in hand (R363). -/
def State.longCmd (s : State) (tag : Word) (c : LongCmd) (prio : Nat) (l : List SigEngine) : SvcOut :=
  { st := (s.updNug (fun x => { x with jobs := x.jobs ++ [⟨tag, c, l.length⟩] })).sigQueue tag prio l, code := rcAccepted }

/-- Is a long command of a kind in hand? -/
def State.busyWith (s : State) (p : LongCmd → Bool) : Bool := s.nug.jobs.any (fun j => p j.cmd)

def LongCmd.isStage : LongCmd → Bool
  | .stage => true
  | _ => false
def LongCmd.isImage : LongCmd → Bool
  | .image _ => true
  | _ => false
def LongCmd.isKeygen : LongCmd → Bool
  | .keygen => true
  | _ => false

/-- PATTERN_STAGE (R61, R351): a container beyond 4 GiB is refused; else the loader checks the one in the staging area. -/
def State.svcStage (s : State) (tag : Word) (sig : SigVerdict) : SvcOut :=
  let total := (readHdr (memSrc s stageAddr)).total
  if maxContainer < total then { st := s, code := rcFormat }
  else
    let s := (s.setReg Reg.SEQ_LOAD_ADDR stageAddr).setReg Reg.SEQ_LOAD_LEN (min total (2 ^ 32 - 1))
    if s.seqBusy ∨ s.seq.loadBusy then { st := s.loadReject 0x14 0, code := 0x0214 }
    else (s.loadStart false sig).longCmd tag .stage 3 []

/-- PATTERN_SWAP (R66, R71, R78). -/
def State.svcSwap (s : State) (bank : Bool) : SvcOut :=
  if s.seqBusy then { st := s.loadReject 0x14 0, code := 0x0214 }
  else if !swapGoOk bank s then { st := s, code := rcPrecondition }
  else { st := (s.setFld Reg.SEQ_SWAP 0 1 (b2n bank)).swapRequest, code := rcDone }

/-! ## Policy (R179, R345), limits (R321), wiring (R313) -/

/-- Length of a policy record of this module. -/
def State.policyLen (s : State) : Nat := 0x40 + 24 * s.endpoints

/-- POP of class `c` and FLOOR_GRANT of endpoint `n` in a policy record, 0.25 W. -/
def polPop (l : List Byte) (n c : Nat) : Nat := leAt l (0x40 + 24 * n + 2 * c) 2
def polFloor (l : List Byte) (n : Nat) : Nat := leAt l (0x52 + 24 * n) 2

/-- An endpoint is admitted. -/
def State.epAdmitted (s : State) (n : Fin 128) : Bool := s.ep[n].planFrom.isSome

/-- The endpoints admitted. -/
def State.admittedEps (s : State) : List (Fin 128) := (List.finRange 128).filter s.epAdmitted

/-- Do R179's checks pass? -/
def State.policyOk (s : State) (l : List Byte) : Bool :=
  let eps := s.admittedEps
  let within (n : Fin 128) (x : Nat) : Bool := decide (s.ep[n].ident.pFloor ≤ x ∧ x ≤ s.ep[n].ident.pMax)
  l.length = s.policyLen &&
  decide (eps.foldl (fun (a : Nat) (n : Fin 128) => a + polFloor l n) 0 ≤ 4 * leAt l 0x1C 4) &&
  eps.all (fun n => within n (polFloor l n) && (List.range 8).all (fun c => within n (polPop l n c))) &&
  decide (1000 ≤ leAt l 0x14 4 ∧ leAt l 0x14 4 ≤ 330000)

/-- POLICY_COMMIT and STANDING_POLICY (R179, R345): checked, journalled, and in force from the next plan-frame boundary, or kept as
the standing policy. -/
def State.svcPolicy (s : State) (l : List Byte) (standing : Bool) : SvcOut :=
  if !s.policyOk l then { st := s, code := rcFormat }
  else if s.jnlRefuses then { st := s, code := rcBusy }
  else
    let ty := if standing then 0x11 else 0x10
    let s := s.jnlAdd false ⟨ty, true, 0x7000, l⟩
    { st := { s with arb := if standing then { s.arb with standing := some l } else { s.arb with pendingPolicy := some l } },
      code := rcDone, wait := some (ty, l) }

/-- LIMIT_OVERRIDE (R321): a member of the ring originates the LIMIT. -/
def State.svcLimit (s : State) (l : LimitRec) : SvcOut :=
  if s.jrjMember then { st := s.sendLimit l.limit.toNat l.effect.toNat l.leaseEnd.toNat, code := rcDone }
  else { st := s, code := rcNotReady }

/-- Is a wiring plan's format right (R312, R313): its header and tables in their places, weights of at least 1, and no node number or
serial twice? -/
def wirFormat (l : List Byte) : Bool :=
  let k := wirNodes l
  let ix := List.range k
  let sns := (ix.map (wirSnA l)) ++ (ix.map (wirSnB l))
  wirOk l && decide (0x40 + 32 * k ≤ leAt l 0x24 4 ∧ leAt l 0x24 4 + 512 * k ≤ leAt l 0x28 4 ∧ leAt l 0x28 4 ≤ l.length) &&
  decide (wirRing l ≤ 15) && ix.all (fun i => decide (1 ≤ wirWeight l i)) && !hasDup (ix.map (wirNodeNo l)) && !hasDup sns

/-- WIRING_LOAD (R313): checked, journalled as an object, and pending until its EFFECT. -/
def State.svcWiring (s : State) (l : List Byte) (sig : SigVerdict) : SvcOut :=
  let newer := match s.wiring with
    | some p => decide (wirVersion p < wirVersion l)
    | none => true
  if !(sig.rsa && sig.slh) then { st := s.inc Reg.SIG_VERIFY_FAIL, code := rcSignature }
  else if !wirFormat l || !newer then { st := s, code := rcSignature }
  else if s.jnlRefuses then { st := s, code := rcBusy }
  else
    let commit := s.commitPayload l []
    let s := s.jnlObject 0x12 0x7000 false l []
    { st := ({ s with wiringNext := some l }).setBit Reg.JRJ_STS 9 true, code := rcDone, wait := some (0x12, commit) }

/-! ## Ship mode (R274, R275, R379) -/

/-- Nugen as a writer. -/
def nugWriter : Writer := ⟨.nugen, 0, .admin⟩

/-- SHIP_ENTER and SHIP_EXIT (R274, R275): Nugen writes CTC_SHIP. -/
def State.svcShip (s : State) (exit : Bool) : SvcOut :=
  if exit then
    if s.shipExitOk then { st := s.ownWrite nugWriter Reg.CTC_SHIP 4 (ctcShipOk nugWriter) ctcShipEff, code := rcDone }
    else { st := s, code := rcPrecondition }
  else if s.ship then { st := s, code := rcNoChange }
  else { st := s.ownWrite nugWriter Reg.CTC_SHIP 2 (ctcShipOk nugWriter) ctcShipEff, code := rcDone }

/-! ## Images (R369 to R371) -/

/-- IMAGE_STAGE (R369): its verification and its write take longer than the acknowledgement. -/
def State.svcImage (s : State) (tag : Word) (i : BootImage) : SvcOut :=
  if s.busyWith LongCmd.isImage then { st := s, code := rcBusy } else s.longCmd tag (.image i) 1 [.rsa, .slh]

/-- The image of a device is replaced; NUG_IMG_ROLLBACK shows both. -/
def State.setImage (s : State) (b : Bool) (x : Option ImgSt) : State :=
  let s := s.updNug (fun n => if b then { n with imgB := x } else { n with imgA := x })
  let rb (y : Option ImgSt) : Nat := match y with
    | some i => i.rollback % 256
    | none => 0
  s.setReg Reg.NUG_IMG_ROLLBACK (rb s.nug.imgA + 256 * rb s.nug.imgB)

/-- IMAGE_STAGE ends (R367, R369): the inactive device holds the image, or is marked empty. -/
def State.imageDone (s : State) (i : BootImage) : State × Nat :=
  let b := !s.nug.runB
  if !(i.sig.rsa && i.sig.slh) then ((s.inc Reg.SIG_VERIFY_FAIL).setImage b none, rcSignature)
  else if 255 < i.rollback ∨ i.rollback < s.fld Reg.LKT_CNT 0 8 then (s.setImage b none, rcRollback)
  else if 96 * 2 ^ 20 < i.size ∨ !i.parts ∨ !i.writeOk then (s.setImage b none, rcFormat)
  else (s.setImage b (some ⟨i.rollback, i.header, i.pulse⟩), rcDone)

/-- The inactive image is selected for the next start, with TRIAL (R370). -/
def State.selectImage (s : State) : State :=
  let b := !s.nug.runB
  (s.updNug (fun x => { x with nextB := b, nextTrial := true })).setBit Reg.NUG_BOOT 0 b

/-- Does the pulse-die firmware of the selected image differ from the one in use? -/
def State.pulseDiffers (s : State) : Bool := (s.image s.nug.nextB).map (·.pulse) ≠ (s.image s.nug.pulseB).map (·.pulse)

/-- IMAGE_ACTIVATE by the module's role (R370). -/
def State.svcActivate (s : State) : SvcOut :=
  if (s.image (!s.nug.runB)).isNone then { st := s, code := rcPrecondition }
  else if !s.isOwner && !s.clp.drive then
    let s := s.selectImage
    { st := s, code := rcDone, base := true, pulse := s.pulseDiffers }
  else if s.peerReady then
    let s := s.selectImage
    let s := s.updNug (fun x => { x with restartDue := true, pulseDue := s.pulseDiffers })
    { st := s.yieldTrigger 1 false true, code := rcDone }
  else if s.bit Reg.NUG_BOOT 3 then
    let s := s.selectImage
    { st := s.updNug (fun x => { x with pulseDue := s.pulseDiffers }), code := rcDone, base := true }
  else { st := s, code := rcPrecondition }

/-! ## Attestation (R372) -/

/-- A PUF that failed its reconstruction refuses every signature with the wrapped keys (R367). -/
def State.pufFail (s : State) : Bool := s.bit Reg.LKT_STS 1

/-- ATTEST (R372). -/
def State.svcAttest (s : State) (tag : Word) (nonce : BitVec 256) : SvcOut :=
  if s.pufFail then { st := s, code := rcPrecondition }
  else if s.trngFail then { st := s, code := rcNotReady }
  else s.drbgDraw.longCmd tag (.attest nonce) 5 [.rsa, .slh]

/-- The quote's 320 bytes (R372). -/
def State.quoteOf (s : State) (nonce : BitVec 256) : List Byte :=
  let run := s.image s.nug.runB
  let pul := s.image s.nug.pulseB
  let pat := s.runningPat
  let src := listSrc s.seq.store
  let h := readHdr src
  let patDigest := if pat.isSome then sha256 (srcBytes src 0 (h.dirOff + 64 * h.dirCount)) else List.replicate 32 0#8
  let planDigest := match s.wiring with
    | some l => sha256 (wirMessage l)
    | none => List.replicate 32 0#8
  leBytes 4 0x54544151 ++ leBytes 2 1 ++ leBytes 2 0x140 ++ leBytes 32 nonce.toNat ++ leBytes 8 s.now ++ leBytes 8 s.fx.serial.toNat ++
    leBytes 1 (lcCode s.lc) ++ leBytes 1 (b2n s.slotB) ++ leBytes 1 (b2n s.fx.full) ++ leBytes 1 s.roleSent ++
    leBytes 4 (b2n (s.bit Reg.NUG_STS 1) + 2 * b2n s.pufFail + 4 * b2n (s.bit Reg.LKT_STS 2)) ++
    leBytes 48 ((run.map (fun i => i.header.toNat)).getD 0) ++ leBytes 48 ((pul.map (fun i => i.pulse.toNat)).getD 0) ++
    leBytes 16 ((pat.map (fun p => p.id.toNat)).getD 0) ++ patDigest ++ planDigest ++ leBytes 4 (wirVersion s.planBytesW) ++
    leBytes 4 ((s.arb.policy.map (fun l => leAt l 0 4)).getD 0) ++
    leBytes 2 (s.fld Reg.LKT_CNT 0 16) ++ leBytes 4 (s.reg Reg.LKT_CNT_PATTERN) ++ leBytes 2 (s.fld Reg.LKT_CNT 16 16) ++
    leBytes 8 ((s.hmk.tip.map (·.seq)).getD 0) ++ fitBytes 32 ((s.hmk.tip.map (·.root)).getD []) ++ leBytes 4 (s.fld Reg.LKT_CNT 16 8) ++
    List.replicate 20 0#8

/-! ## The life cycle (R373 to R377) -/

/-- Which tokens a transition needs: maker, consent; none for a transition that does not exist (R375). -/
def transTokens (a b : LifeCycle) : Option (Bool × Bool) :=
  match a, b with
  | .fab, .provision => some (true, false)
  | .provision, .field => some (false, true)
  | .field, .returned => some (true, true)
  | .fab, .void | .provision, .void | .returned, .void => some (true, false)
  | .field, .void => some (false, true)
  | _, _ => none

/-- The rejection of a token, 0 where it is good (R375, R376). -/
def State.tokenCode (s : State) (toward : LifeCycle) (k : LcToken) : Nat :=
  if !k.wellFormed then rcFormat
  else if !s.nug.nonceOk || k.nonce.toNat ≠ s.nonce || decide (k.notAfter < s.now) then rcStaleNonce
  else if k.frm.toNat ≠ lcCode s.lc ∨ k.toward.toNat ≠ lcCode toward then rcLifecycle
  else if k.sn ≠ s.fx.serial then rcPrecondition
  else if !(k.sig.rsa && k.sig.slh) || k.keyClass ≠ 1 + b2n k.consent then rcSignature
  else 0

/-- The first rejection among tokens, 0 where all are good. -/
def State.tokensCode (s : State) (toward : LifeCycle) : List LcToken → Nat
  | [] => 0
  | k :: l => if s.tokenCode toward k = 0 then s.tokensCode toward l else s.tokenCode toward k

/-- The preconditions of a transition (R375). -/
def State.transReady (s : State) (toward : LifeCycle) : Bool :=
  match toward with
  | .provision => s.bit Reg.LKT_STS 4
  | .field => s.nug.owner.isSome && (s.wiring.isSome || s.wiringNext.isSome) && (s.arb.policy.isSome || s.arb.pendingPolicy.isSome) &&
      s.bit Reg.LKT_STS 3
  | _ => !s.isOwner && !s.clp.drive

/-- LC_TRANSITION judged, 0 where it may be made. -/
def State.transCode (s : State) (toward : LifeCycle) (l : List LcToken) : Nat :=
  match transTokens s.lc toward with
  | none => rcLifecycle
  | some (maker, consent) =>
    let bad := s.tokensCode toward l
    if bad ≠ 0 then bad
    else if (maker && !l.any (fun k => !k.consent)) || (consent && !l.any (fun k => k.consent)) then rcSignature
    else if !s.transReady toward then rcPrecondition
    else 0

/-- A wipe (R377): owner keys and CA, Hallmark keys, statements and archive, wiring plan, policy records, journal and Pattern store,
and then the reserved MRDIMM areas; the audit record, the serial, the device identity and the counters stay. -/
def State.wipe (s : State) : State :=
  let reserved (a : Nat) : Bool := 0x8000000000 ≤ a && a < 0x8200000000
  let s := s.forAll (List.range 8) (fun s k => s.setReg (Reg.LKT_OWNER_ID k) 0)
  let s := s.setFld Reg.LKT_STS 2 2 0
  let s := s.clearPages (fun p => p = 0xC0 || p = 0xC1)
  { s with
    mem := s.mem.filter (fun c => !reserved c.1), poison := s.poison.filter (fun a => !reserved a),
    wiring := none, wiringNext := none,
    arb := { s.arb with policy := none, pendingPolicy := none, standing := none },
    hmk := { HmkSt.empty with eoutPrev := s.hmk.eoutPrev },
    jnl := { JnlSt.empty with charge := s.jnl.charge, latches := s.jnl.latches },
    seq := { s.seq with store := [], storePrev := [] },
    nug := { s.nug with owner := none, statements := [] } }

/-- A transition takes effect (R375, R378). -/
def State.lcEnter (s : State) (toward : LifeCycle) : State :=
  let s := if s.lc == .field then s.wipe else s
  let s := s.setFld Reg.LKT_CNT 24 8 (min 255 (s.fld Reg.LKT_CNT 24 8 + 1))
  let s := { s with lc := toward }
  let s := if lcShipForced toward && s.pulseUp then s.setBit Reg.CTC_SHIP 0 true else s
  if !lcOwn toward && s.pulseUp then s.setBit Reg.CLP_CTL 2 true else s

/-- LC_TRANSITION (R375, R376): the nonce is replaced after every attempt. -/
def State.svcTransition (s : State) (toward : LifeCycle) (l : List LcToken) : SvcOut :=
  let code := s.transCode toward l
  let s := if l.any (fun k => !(k.sig.rsa && k.sig.slh)) then s.inc Reg.SIG_VERIFY_FAIL else s
  let s := s.newNonce
  if code ≠ 0 then { st := s.inc Reg.LCS_REJ_CNT, code := code }
  else { st := s.lcEnter toward, code := rcDone, base := toward != .field, detail := 4 }

/-- LC_NONCE (R363, R376): the nonce goes out in a notice. -/
def State.svcNonce (s : State) (tag : Word) : SvcOut :=
  if s.trngFail then { st := s, code := rcNotReady }
  else
    let s := s.newNonce
    { st := s.notice 0x0060 tag rcDone (leBytes 32 s.nonce), code := rcDone }

/-! ## Keys (R367, R368) -/

/-- OWNER_ENROLL (R367): in FIELD only with the present owner's signatures. -/
def State.svcEnroll (s : State) (k : OwnerKeys) : SvcOut :=
  let signed := match k.signed with
    | some v => v.rsa && v.slh
    | none => false
  if !k.wellFormed then { st := s, code := rcFormat }
  else if s.lc == .field && (s.nug.owner.isNone || !signed) then { st := s.inc Reg.SIG_VERIFY_FAIL, code := rcSignature }
  else
    let s := s.forAll (List.range 8) (fun s i => s.setReg (Reg.LKT_OWNER_ID i) (fieldOf k.rsaId.toNat (32 * i) 32))
    { st := (s.setBit Reg.LKT_STS 2 true).updNug (fun x => { x with owner := some (k.rsaId, k.slhId) }), code := rcDone }

/-- HMK_KEYGEN (R368). -/
def State.svcKeygen (s : State) (tag : Word) : SvcOut :=
  if 255 ≤ s.fld Reg.LKT_CNT 16 8 || s.pufFail then { st := s, code := rcPrecondition }
  else if s.trngFail then { st := s, code := rcNotReady }
  else if s.busyWith LongCmd.isKeygen then { st := s, code := rcBusy }
  else s.drbgDraw.longCmd tag .keygen 5 [.rsa, .slh]

/-- HMK_KEYGEN ends (R368): KEY_GEN advances, and the statement, signed with the device identity key, is kept. -/
def State.keygenDone (s : State) : State :=
  let k := min 255 (s.fld Reg.LKT_CNT 16 8 + 1)
  let s := (s.setFld Reg.LKT_CNT 16 8 k).setBit Reg.LKT_STS 3 true
  { s with
    free := s.free + 1, hmk := { s.hmk with keyGen := k },
    nug := { s.nug with statements := s.nug.statements ++ [(k, (s.now, s.free))] } }

/-! ## Serving (R355, R363) -/

/-- A service command of a role: refused by role, by life cycle, or served. -/
def State.service (s : State) (r : Role) (tag : Word) (c : SvcCmd) : SvcOut :=
  if !svcRole s.lc c r then { st := s, code := rcRole }
  else if !svcOpen s.lc c then { st := s, code := rcLifecycle }
  else match c with
    | .patternStage sig => s.svcStage tag sig
    | .patternSwap b => s.svcSwap b
    | .policyCommit l => s.svcPolicy l false
    | .standingPolicy l => s.svcPolicy l true
    | .limitOverride l => s.svcLimit l
    | .wiringLoad l sig => s.svcWiring l sig
    | .shipEnter => s.svcShip false
    | .shipExit => s.svcShip true
    | .imageStage i => s.svcImage tag i
    | .imageActivate => s.svcActivate
    | .attest n => s.svcAttest tag n
    | .lcNonce => s.svcNonce tag
    | .lcTransition toward l => s.svcTransition toward l
    | .ownerEnroll k => s.svcEnroll k
    | .hmkKeygen => s.svcKeygen tag

/-- The restarts that follow a command's acknowledgement (R370, R375). -/
def SvcOut.after (o : SvcOut) : State :=
  let s := if o.base then o.st.baseRestart o.detail else o.st
  if o.pulse then (s.updNug (fun x => { x with pulseDue := false, pulseB := x.waiting })).pulseRestart 2 2 else s

/-- Can the UART console give commands (R378, R379)? -/
def lcUartCmd (l : LifeCycle) : Bool := l == .provision || lcUartFull l

/-- The role behind a command in a mailbox of Nugen: that of the session that posted it, or the one the peer relays. -/
def State.boxRole (s : State) (agent : Nat) (box : Fin 64) : Bool :=
  s.mbxRx box = 0 && s.bit (Reg.MBX_STS box) 0 && s.fld (Reg.MBX_STS box) 8 3 = agent &&
  s.nug.acks.all (fun a => a.dest != .box box)

/-- The acknowledgement of a command: at once, or once its record is programmed and mirrored (R384). -/
def SvcOut.ack (o : SvcOut) (fromSeq : Nat) (dest : AckTo) (now : State → State) : State :=
  match o.wait with
  | some (ty, p) => o.st.updNug (fun x => { x with acks := x.acks ++ [⟨dest, ty, p, fromSeq⟩] })
  | none => (({ o with st := now o.st } : SvcOut)).after

/-- Serve a command from a mailbox: fetched, carried out, and acknowledged with its return code. -/
def State.serveBox (s : State) (box : Fin 64) (r : Role) (tag : Word) (c : SvcCmd) : State :=
  let s := (s.mbxTaken box).setReadBuf .nugen s.mbx.box[box].msg
  let o := s.service r tag c
  o.ack (s.reg Reg.JNL_SEQ) (.box box) (fun s => s.mbxAck box o.code)

/-- A service command as it reaches Nugen (R363, R379). -/
def serve (t : Nat) (o : SvcOrigin) (tag : Word) (c : SvcCmd) (s : State) : Host.Outcome State Fault Refusal :=
  run t s fun s =>
    if !s.nugRuns then s else
    let s := ({ s with pw := { s.pw with nugSleep := false, lastService := s.now } }).setBit Reg.NUG_STS 0 true
    match o with
    | .session i box =>
      match s.nug.sess[i] with
      | some e => if s.boxRole 3 box && s.mbx.box[box].poster == some i then s.serveBox box e.role tag c else s
      | none => s
    | .peer r box => if s.boxRole 4 box then s.serveBox box r tag c else s
    | .uart =>
      if lcUartCmd s.lc then
        let x := s.service .admin tag c
        x.ack (s.reg Reg.JNL_SEQ) .uart (fun s => s.updNug (fun n => { n with uartCode := x.code }))
      else s.updNug (fun n => { n with uartCode := rcLifecycle })

/-- PATTERN_STAGE. -/
def execPatternStage (t : Nat) (o : SvcOrigin) (tag : Word) (sig : SigVerdict) (s : State) : Host.Outcome State Fault Refusal :=
  serve t o tag (.patternStage sig) s

/-- PATTERN_SWAP. -/
def execPatternSwap (t : Nat) (o : SvcOrigin) (tag : Word) (bank : Bool) (s : State) : Host.Outcome State Fault Refusal :=
  serve t o tag (.patternSwap bank) s

/-- POLICY_COMMIT. -/
def execPolicyCommit (t : Nat) (o : SvcOrigin) (tag : Word) (r : List Byte) (s : State) : Host.Outcome State Fault Refusal :=
  serve t o tag (.policyCommit r) s

/-- STANDING_POLICY. -/
def execStandingPolicy (t : Nat) (o : SvcOrigin) (tag : Word) (r : List Byte) (s : State) : Host.Outcome State Fault Refusal :=
  serve t o tag (.standingPolicy r) s

/-- LIMIT_OVERRIDE. -/
def execLimitOverride (t : Nat) (o : SvcOrigin) (tag : Word) (l : LimitRec) (s : State) : Host.Outcome State Fault Refusal :=
  serve t o tag (.limitOverride l) s

/-- WIRING_LOAD. -/
def execWiringLoad (t : Nat) (o : SvcOrigin) (tag : Word) (p : List Byte) (sig : SigVerdict) (s : State) :
    Host.Outcome State Fault Refusal :=
  serve t o tag (.wiringLoad p sig) s

/-- SHIP_ENTER. -/
def execShipEnter (t : Nat) (o : SvcOrigin) (tag : Word) (s : State) : Host.Outcome State Fault Refusal :=
  serve t o tag .shipEnter s

/-- SHIP_EXIT. -/
def execShipExit (t : Nat) (o : SvcOrigin) (tag : Word) (s : State) : Host.Outcome State Fault Refusal :=
  serve t o tag .shipExit s

/-- IMAGE_STAGE. -/
def execImageStage (t : Nat) (o : SvcOrigin) (tag : Word) (i : BootImage) (s : State) : Host.Outcome State Fault Refusal :=
  serve t o tag (.imageStage i) s

/-- IMAGE_ACTIVATE. -/
def execImageActivate (t : Nat) (o : SvcOrigin) (tag : Word) (s : State) : Host.Outcome State Fault Refusal :=
  serve t o tag .imageActivate s

/-- ATTEST. -/
def execAttest (t : Nat) (o : SvcOrigin) (tag : Word) (nonce : BitVec 256) (s : State) : Host.Outcome State Fault Refusal :=
  serve t o tag (.attest nonce) s

/-- LC_NONCE. -/
def execLcNonce (t : Nat) (o : SvcOrigin) (tag : Word) (s : State) : Host.Outcome State Fault Refusal :=
  serve t o tag .lcNonce s

/-- LC_TRANSITION. -/
def execLcTransition (t : Nat) (o : SvcOrigin) (tag : Word) (toward : LifeCycle) (k : List LcToken) (s : State) :
    Host.Outcome State Fault Refusal :=
  serve t o tag (.lcTransition toward k) s

/-- OWNER_ENROLL. -/
def execOwnerEnroll (t : Nat) (o : SvcOrigin) (tag : Word) (k : OwnerKeys) (s : State) : Host.Outcome State Fault Refusal :=
  serve t o tag (.ownerEnroll k) s

/-- HMK_KEYGEN. -/
def execHmkKeygen (t : Nat) (o : SvcOrigin) (tag : Word) (s : State) : Host.Outcome State Fault Refusal :=
  serve t o tag .hmkKeygen s

/-- CMD of a long command. -/
def longCode : LongCmd → Nat
  | .stage => 0x0001
  | .image _ => 0x0040
  | .attest _ => 0x0050
  | .keygen => 0x0063

/-- A long command ends: its effect and its return code. -/
def State.longDone (s : State) (c : LongCmd) : State × Nat :=
  match c with
  | .stage =>
    let v := s.reg Reg.SEQ_LOAD_STS
    (s, if fieldOf v 0 2 = 3 then 0x0200 + fieldOf v 8 8 else rcDone)
  | .image i => s.imageDone i
  | .attest n =>
    if s.trngFail then (s, rcNotReady)
    else ({ s.updNug (fun x => { x with quote := s.quoteOf n, quoteIdx := s.free }) with free := s.free + 1 }, rcDone)
  | .keygen => if s.trngFail then (s, rcNotReady) else (s.keygenDone, rcDone)

/-- May a long command end: its Signet jobs and the loader are done? -/
def State.longMayEnd (s : State) (j : SvcJob) : Bool := j.waits = 0 && !(j.cmd.isStage && s.seq.loadBusy)

/-- The oldest long command that may end does so, with its notice in mailbox 40 (R363). -/
def execServiceCmdComplete (t : Nat) (s : State) : Host.Outcome State Fault Refusal :=
  run t s fun s =>
    if !s.nugRuns then s else
    match s.nug.jobs.find? s.longMayEnd with
    | none => s
    | some j =>
      let s := s.updNug (fun x => { x with jobs := x.jobs.erase j })
      let o := s.longDone j.cmd
      o.1.notice (longCode j.cmd) j.tag o.2 []

/-! ## Redfish (R355, R7) -/

/-- The HTTP status of a return code's class. -/
def httpOf (code : Nat) : Nat :=
  if code = rcAccepted then 202 else if code < 0x0100 then 200 else if code < 0x0200 then 409 else 403

/-- A Redfish request of a session (R7, R355): 503 until the policy and the wiring plan are loaded; a request that names a tenant is
refused. -/
def execRedfishRequest (t : Nat) (sess : Fin 64) (q : RedfishReq) (s : State) : Host.Outcome State Fault Refusal :=
  run t s fun s =>
    match s.nug.sess[sess] with
    | none => s
    | some e =>
      if !s.nugRuns || !s.mgmtUp || !s.bit Reg.MGP_CTL 1 then s else
      let s := ({ s with pw := { s.pw with nugSleep := false } }).setBit Reg.NUG_STS 0 true
      if !s.bit Reg.NUG_STS 3 then s.answer sess 0 503
      else if q.tenant then s.answer sess rcTenant (httpOf rcTenant)
      else match q.ask with
        | .get => s.answer sess rcDone 200
        | .subscribe on => (s.updSess sess (fun e => { e with subscribed := on })).answer sess rcDone 200
        | .write tag c =>
          let s := { s with pw := { s.pw with lastService := s.now } }
          let o := s.service e.role tag c
          o.ack (s.reg Reg.JNL_SEQ) (.redfish sess) (fun s => s.answer sess o.code (httpOf o.code))
        | .relay box m =>
          let n : Fin 64 := ⟨8 + box.val, by omega⟩
          if !s.mbxAdmits n 0 then s.answer sess rcRole (httpOf rcRole)
          else if s.slkUp then (s.mbxArrive n 0 m (some sess)).answer sess rcAccepted 202
          else (s.mbxArrive n 0 m (some sess)).answer sess rcPeerUnreachable (httpOf rcPeerUnreachable)

/-- EPOCH_EXPORT (R301, R302): the next released epoch goes to a session that subscribes to export, in CHAIN_SEQ order. -/
def execEpochExport (t : Nat) (sess : Fin 64) (s : State) : Host.Outcome State Fault Refusal :=
  run t s fun s =>
    match s.nug.sess[sess] with
    | none => s
    | some e =>
      if !s.nugRuns || !e.subscribed || !s.bit Reg.HMK_CTL 0 then s else
      let last := sparseFind s.hmk.sent sess.val
      let next := s.hmk.archive.find? (fun a => match last with
        | some k => decide (k < a.seq)
        | none => true)
      match next with
      | none => s
      | some a => { s with hmk := { s.hmk with sent := sparseIns (sparseErase s.hmk.sent sess.val) sess.val a.seq } }

/-! ## Boot (R342, R360, R370, R371, R407) -/

/-- Does an image pass the boot ROM (R371)? -/
def State.bootImgOk (s : State) (b : Bool) (v : ImgVerdict) : Bool :=
  match s.image b with
  | some i => v.sig.rsa && v.sig.slh && v.parts && decide (s.fld Reg.LKT_CNT 0 8 ≤ i.rollback)
  | none => false

/-- The hold-up measured at a start (R394): JNL_HOLDUP_CAP is what the monitor finds; below 8 ms it sets HOLDUP_LOW and the
event. -/
def State.holdupCheck (s : State) : State :=
  let cap := Config.freeValue s.free 0 % 2 ^ 32
  let s := ({ s with free := s.free + 1 }).setReg Reg.JNL_HOLDUP_CAP cap
  if cap < 8000 then (s.setBit Reg.JNL_STS 4 true).post 0xC0 sevWarn 0x00A0 0 0 cap 0 0 else s.setBit Reg.JNL_STS 4 false

/-- Nugen runs from an image: the base die's blocks start, the stacks are powered, and the messages held for the base die are
delivered (R360, R371, R435). -/
def State.nugenStart (s : State) (b : Bool) : State :=
  let trial := s.nug.nextTrial && b == s.nug.nextB
  let s := s.updPw (fun p => { p with base := .up, lastService := s.now, nugSleep := false })
  let s := s.updNug (fun x => { x with
    runB := b, trialAt := if trial then some s.now else none, nextTrial := false, nextB := x.confirmedB, kickAt := s.now })
  let s := s.setBit Reg.NUG_BOOT 0 s.nug.confirmedB
  let s := s.setReg Reg.NUG_STS (1 + 2 * b2n trial + 4 * b2n b + 64)
  let s := (s.setImage b (s.image b)).setReg Reg.SIG_STS 5
  let s := s.holdupCheck
  let s := s.updClp (fun c => { c with patTries := 0 })
  let s := s.forAll (blockPages s.fx false) State.startBlock
  let s := s.stackSettle.pwShow
  let l := s.mbx.heldMsgs
  let s := { s with mbx := { s.mbx with heldMsgs := [] } }
  s.forAll l (fun s x => s.mbxArrive (Fin.ofNat 64 x.1) 4 x.2 none)

/-- The boot ROM verifies the selected image, else the other; if both fail, the base die stays in the ROM (R371). -/
def execBootRomVerify (t : Nat) (a b : ImgVerdict) (s : State) : Host.Outcome State Fault Refusal :=
  run t s fun s =>
    if s.pw.base != .rom then s else
    let first := if s.nug.nextTrial then s.nug.nextB else s.nug.confirmedB
    let ok (x : Bool) : Bool := s.bootImgOk x (if x then b else a)
    if ok first then (s.nugenStart first).restoreStep 3 250000000 true
    else if ok (!first) then ((s.inc Reg.SIG_VERIFY_FAIL).nugenStart (!first)).restoreStep 3 250000000 true
    else (s.inc Reg.SIG_VERIFY_FAIL).restoreStep 3 250000000 false

/-- A trial image was not confirmed within 120 s (R371): the base die restarts on the previous image. -/
def execTrialTimeout (t : Nat) (s : State) : Host.Outcome State Fault Refusal :=
  run t s fun s =>
    match s.nug.trialAt with
    | none => s
    | some a =>
      if !s.baseUp || !s.bit Reg.NUG_STS 1 || decide (s.now < a + 120000000000) then s else
      let rb := match s.image s.nug.runB with
        | some i => i.rollback
        | none => 0
      let k := s.reg Reg.NUG_REVERT_CNT
      let s := s.updNug (fun x => { x with trialAt := none, nextTrial := false, nextB := x.confirmedB, pulseDue := false })
      let s := (s.baseRestart 3).setReg Reg.NUG_REVERT_CNT (satAdd 32 k 1)
      s.post nugPg sevWarn 0x0091 (b2n s.nug.confirmedB) 0 rb 0 0

/-- CONFIRM (R371): the image is active, and the BOOT and PULSE counters advance to its ROLLBACK; without TRIAL, no effect. -/
def State.bootConfirm (s : State) : State :=
  if !s.bit Reg.NUG_STS 1 then s else
  let b := s.nug.runB
  let rb := match s.image b with
    | some i => min 255 i.rollback
    | none => 0
  let s := s.updNug (fun x => { x with confirmedB := b, nextB := b, nextTrial := false, trialAt := none })
  let s := (s.setFld Reg.LKT_CNT 0 8 (max rb (s.fld Reg.LKT_CNT 0 8))).setFld Reg.LKT_CNT 8 8 (max rb (s.fld Reg.LKT_CNT 8 8))
  (s.setBit Reg.NUG_STS 1 false).setBit Reg.NUG_BOOT 0 b

/-- ACTIVATE selects the image of the inactive device for the next start. -/
def State.bootActivate (s : State) : State := if (s.image (!s.nug.runB)).isSome then s.selectImage else s

/-- What a write of NUG_BOOT does. -/
def nugBootEff (s : State) (v : Nat) : State :=
  let s := if bitOf v 2 then s.bootConfirm else s
  if bitOf v 1 then s.bootActivate else s

/-- A write of NUG_BOOT.CONFIRM (R371, R380). -/
def execNugBootConfirm (t : Nat) (w : Writer) (s : State) : Host.Outcome State Fault Refusal :=
  run t s fun s => s.ownWrite w Reg.NUG_BOOT (8 * s.fld Reg.NUG_BOOT 3 1 + 4) anyValue nugBootEff

/-- A write of NUG_BOOT.ACTIVATE (R370, R380). -/
def execNugBootActivate (t : Nat) (w : Writer) (s : State) : Host.Outcome State Fault Refusal :=
  run t s fun s => s.ownWrite w Reg.NUG_BOOT (8 * s.fld Reg.NUG_BOOT 3 1 + 2) anyValue nugBootEff

end Sys2Proof.Machine
end

