-- ==== Sys2Proof/Machine/Mount.lean ====
section
/-!
DEFINITION. Mounting the journal (R387, R393, R406) and restoring predictive control (R342, R397, R398): the Pattern from the store, the
newest Cameo, and the records after it.
-/
namespace Sys2Proof.Machine

/-! ## What the journal gives (R297, R298, R313, R345, R398) -/

/-- The chain's tip that an EPOCH record's header holds (R293, R297). -/
def tipOf (r : JRec) : ChainTip := ⟨(r.payload.drop 0x40).take 32, payAt r 0xF0 8, payAt r 8 8, payAt r 0x18 8⟩

/-- The E_ACC readings of an EPOCH record (R298, log 39). -/
def eaccOf (r : JRec) : List (Nat × (Nat × Nat)) :=
  (List.range ((r.payload.length - 256) / 24)).map (fun i =>
    (payAt r (256 + 24 * i) 8, (payAt r (264 + 24 * i) 8, payAt r (272 + 24 * i) 8)))

/-- The complete wiring plans of the journal, oldest first. -/
def plansOf (l : List JRec) : List (List Byte) := (ofType 0x12 l).filterMap (objectOf l)

/-- The policy, the standing policy, the wiring plan and the Hallmark chain's tip are taken from the journal where the module does not
hold them. -/
def State.fromJournal (s : State) : State :=
  let l := s.jnlRecs
  let s := if s.arb.policy.isSome || s.arb.pendingPolicy.isSome then s
    else s.policyTakes ((newestOf 0x10 l).map (·.payload)) s.arb.policyLapsed
  let s := if s.arb.standing.isSome then s else s.updArb (fun a => { a with standing := (newestOf 0x11 l).map (·.payload) })
  let s := if s.wiring.isSome || s.wiringNext.isSome then s else
    let ps := plansOf l
    let next := (ps.filter (fun p => s.now < wirEffect p)).getLast?
    let s := ({ s with wiringNext := next }).setBit Reg.JRJ_STS 9 next.isSome
    match (ps.filter (fun p => wirEffect p ≤ s.now)).getLast? with
    | some p => ({ s with wiring := some p }).recheckAll
    | none => s
  if s.hmk.tip.isSome then s else
  match newestOf 0x40 l with
  | some r =>
    let t := tipOf r
    { s with hmk := { s.hmk with tip := some t, takeover := true, g0 := t.stop, g0Eacc := eaccOf r } }
  | none => s

/-! ## The mount (R383, R387, R393) -/

/-- The greatest SEQ that the journal, its numbered queue and the Pocket hold. -/
def State.topSeq (s : State) : Nat :=
  let j := s.jnl
  let a := j.log.foldl (fun (m : Nat) x => max m x.2.seq) 0
  let b := (j.queue.filter (·.numbered)).foldl (fun (m : Nat) e => max m e.item.seq) a
  j.pocket.toList.foldl (fun (m : Nat) o => match o with
    | some r => max m r.seq
    | none => m) b

/-- Records queued before the first mount take the SEQ that follow (R383). -/
def numberFrom : Nat → List JEnt → List JEnt × Nat
  | n, [] => ([], n)
  | n, e :: l =>
    if e.numbered then
      let x := numberFrom n l
      (e :: x.1, x.2)
    else
      let x := numberFrom (n + 1) l
      ({ e with item := { e.item with seq := n }, numbered := true } :: x.1, x.2)

/-- A Pocket slot at the first mount (R393): a record that passes its CRC and is not in the journal is queued with FROM_POCKET; then the
slot is cleared. -/
def State.pocketMount (s : State) (k : Fin 4) : State :=
  match s.jnl.pocket[k] with
  | none => s
  | some r =>
    let s := { s with jnl := { s.jnl with pocket := s.jnl.pocket.set k none } }
    if !s.pw.pocketOk then s.inc Reg.JNL_POCKET_LOST
    else if s.jnl.log.any (fun x => x.2.seq = r.seq) then s
    else s.jnlPut { r with pocket := true }

/-- The record of a reset that the journal has not yet received (R406, log 45). -/
def resetRecord (r : ResetRec) : JNew :=
  ⟨0x51, false, 0x0112, leBytes 1 r.kind ++ leBytes 1 r.detail ++ List.replicate 6 0#8 ++ leBytes 8 r.stamp.toNat ++
    List.replicate 16 0#8⟩

/-- The controller mounts the journal. `bad`: invalid records that it skipped. -/
def State.mount (s : State) (bad : Nat) : State :=
  let s := if bad = 0 then s else s.addCnt Reg.JNL_CRC_ERR bad
  let top := s.topSeq
  let x := numberFrom (top + 1) (if s.jnl.compact.isSome then s.jnl.queue.filter (fun e => !e.item.copy) else s.jnl.queue)
  let s := if s.jnl.compact.isSome then
      { s.setBit Reg.JNL_STS 1 false with jnl := { s.jnl with compact := none, compactReq := true } }
    else s
  let s := ({ s with jnl := { s.jnl with queue := x.1 } }).setReg Reg.JNL_SEQ (if top = 0 ∧ x.1 = [] then s.reg Reg.JNL_SEQ else x.2)
  let s := s.setBit Reg.JNL_STS 0 true
  let s := (s.forAll (List.finRange 4) State.pocketMount).setBit Reg.JNL_STS 3 false
  let l := lastN s.pw.resetNew s.pw.resetLog
  let s := s.forAll l (fun s r => s.jnlAdd false (resetRecord r))
  (s.updPw (fun p => { p with resetNew := 0 })).jnlShow

/-- JNL_MOUNT (R355, R387): the journal is mounted, and Nugen loads the policy and the wiring plan from it. -/
def execJnlMount (t bad : Nat) (s : State) : Host.Outcome State Fault Refusal :=
  run t s fun s =>
    if !s.baseUp || (s.bit Reg.JNL_STS 0 && s.bit Reg.NUG_STS 3) then s else
    let s := if s.bit Reg.JNL_STS 0 then s else s.mount bad
    s.fromJournal.setBit Reg.NUG_STS 3 true

/-! ## The restore (R342, R397, R398) -/

/-- May a step of the restore be taken: the owner's base die runs, its journal is mounted and the sequencer is OFF? -/
def State.restoring (s : State) : Bool := s.baseUp && s.isOwner && s.bit Reg.JNL_STS 0 && s.blk seqPg = stOff

/-- The Pattern of the store has the PATTERN_ID of the newest PATTERN_STATE record, where there is one. -/
def State.storeIsOwners (s : State) : Bool :=
  match newestOf 0x18 s.jnlRecs with
  | some r => (readHdr (listSrc s.seq.store)).id = payAt r 0 16
  | none => true

/-- A load that passed (R65, R342): the Pattern, in the variant of R67, stands in the active bank and the images in their places. -/
def State.restorePattern (s : State) : State :=
  let f := listSrc s.seq.store
  let p := describePattern f
  match s.selectFor (some p) with
  | none => s.seqFault 0x01
  | some (v, d) =>
    let s := s.setActBank ⟨.active, some p, v, d, streamOf f v⟩
    let s := (s.writeImages f v d (fun _ => false)).loadDescriptors f v
    let s := (s.copyVariants s.actNo p.variants).showVariant v
    ((s.nextFlag flFirst).setReg Reg.SEQ_LOAD_STS 2).restoreStep 4 750000000 true

/-- RESTORE_PATTERN_LOADED (R342): from the NAND Pattern store with every check of R61; a load that fails is retried once. -/
def execRestorePatternLoaded (t : Nat) (sig : SigVerdict) (s : State) : Host.Outcome State Fault Refusal :=
  run t s fun s =>
    if !s.restoring || s.runningPat.isSome || s.seq.store.isEmpty || decide (2 ≤ s.clp.patTries) then s else
    let fail (s : State) (r d : Nat) : State :=
      ((s.loadReject r d).updClp (fun c => { c with patTries := c.patTries + 1 })).restoreStep 4 750000000 false
    if !s.storeIsOwners then fail s 0x06 0 else
    match checkContainer s (listSrc s.seq.store) s.seq.store.length sig [] with
    | .error (r, d) => fail s r d
    | .ok _ => s.restorePattern

/-- LAYOUT_ID and the plan frame of a Cameo commit (R396). -/
def cameoLayout (c : JRec) : Nat := payAt c 68 16
def cameoFrame (c : JRec) : Nat := payAt c 84 8

/-- The string charges latched at a plan frame (R397). -/
def State.latchAt (s : State) (p : Nat) : Option (Fv × Fv) := (s.jnl.latches.find? (fun x => x.1 = p)).map (·.2)

/-- The newest usable Cameo (R397, R398): complete, of the loaded Pattern's LAYOUT_ID, with the module's own latch at its plan frame. -/
def State.usableCameo (s : State) : Option (JRec × (Fv × Fv)) :=
  let lay := (s.runningPat.map (fun p => p.layout.toNat)).getD 0
  let l := (cameoCommits s.jnlRecs).filterMap (fun c =>
    if cameoLayout c = lay then (s.latchAt (cameoFrame c)).map (fun q => (c, q)) else none)
  l.getLast?

/-- Write a Cameo's bytes into the persistent regions, each from a granule of it on. -/
def State.writeRegions (s : State) : List (Nat × Nat) → List Byte → State
  | [], _ => s
  | (a, n) :: l, d => (s.putBytes a (d.take n)).writeRegions l (d.drop (granules n))

/-- CAMEO_RESTORE (R342, R398): the Cameo is written, the charge since its plan frame is its correction (R397), the records after it take
effect as at mount, and the sequencer starts. -/
def execCameoRestore (t : Nat) (s : State) : Host.Outcome State Fault Refusal :=
  run t s fun s =>
    if !s.restoring || s.runningPat.isNone then s else
    let s := match s.usableCameo with
      | some (c, q) =>
        let s := s.writeRegions s.keepRegions ((objectOf s.jnlRecs c).getD [])
        { s with jnl := { s.jnl with restored := (s.jnl.charge.1.sub q.1, s.jnl.charge.2.sub q.2) } }
      | none => { s with jnl := { s.jnl with restored := (Fv.zero, Fv.zero) } }
    let s := s.fromJournal
    let s := (s.setBit (Reg.BLK_CTL seqPg) 0 true).setBlk seqPg stStarting 0
    (s.updClp (fun c => { c with cameoAt := some s.now })).restoreStep 5 1550000000 true

/-- ESTIMATORS_WARM (R342): the filters have run for 2 s, and the Pattern hands its first reference: the restore ends. -/
def execEstimatorsWarm (t : Nat) (s : State) : Host.Outcome State Fault Refusal :=
  run t s fun s =>
    match s.clp.cameoAt with
    | none => s
    | some a =>
      if s.patternActive && decide (a + 2000000000 ≤ s.now) then
        (s.restoreStep 6 3550000000 true).updClp (fun c => { c with restoreAt := none, cameoAt := none })
      else s

end Sys2Proof.Machine
end

