-- ==== Sys2Proof/Machine/Blocks.lean ====
section
/-!
DEFINITION. Block control (R434 to R440): BLK_CTL with the enable table of R234, QUIESCE of the sequencer, SOFT_RESET and leaving
FAULT, and the rows that write the header's own registers.
-/
namespace Sys2Proof.Machine

/-! ## Stopping and starting a block (R234, R437) -/

/-- What follows when a block reaches RUNNING: bricks whose ENABLE is set start where their string runs (R235). -/
def State.blockRunning (s : State) (p : Nat) : State :=
  if p = 0x102 then
    s.forAll allBricks (fun s b =>
      if s.bit (Reg.PCM_CTL b) 0 && s.ctcState (strOf b) = stRunning then s.brickStart b else s)
  else s

/-- A block leaves OFF (R437): the sequencer waits in STARTING for its plan-frame boundary (R79), any other block runs at once. -/
def State.blockStart (s : State) (p : Nat) : State :=
  let s := s.setBlk p stStarting 0
  if p = seqPg then s else (s.setBlk p stRunning 0).blockRunning p

/-- Has every function that a block holds come to rest (R234: a block stops every function it holds)? -/
def State.functionsRest (s : State) (p : Nat) : Bool :=
  if p = 0x102 then allBricks.all (fun b => s.bst b = stOff || s.bst b = stFault)
  else if p = 0x108 then allVm.all (fun n => s.vmst n = stOff || s.vmst n = stFault)
  else if p = 0x10E then [0, 1].all (fun x => s.ctcState x = stOff || s.ctcState x = stFault)
  else if p = seqPg then !s.seq.body.active
  else true

/-- A stop that has run to its end: OFF, and the start that a rearm asked for (R234). -/
def State.blockSettle (s : State) (p : Nat) : State :=
  if s.blk p = stStopping && s.functionsRest p then
    let s := s.setBlk p stOff 0
    if p ≠ seqPg && s.bit (Reg.BLK_STS p) 4 then (s.setBit (Reg.BLK_STS p) 4 false).blockStart p else s
  else s

/-- The pages of the blocks that hold functions with a STATE of their own. -/
def functionPages : List Nat := [0x102, 0x108, 0x10E]

/-- Every block whose stop has run to its end goes to OFF. -/
def State.settleBlocks (s : State) : State := s.forAll functionPages State.blockSettle

/-- A block stops the functions it holds (R234); the sequencer gives up a switch or a swap in HOLD. -/
def State.blockStop (s : State) (p : Nat) : State :=
  let s := s.setBlk p stStopping 0
  let s :=
    if p = 0x102 then s.forAll allBricks State.brickStop
    else if p = 0x108 then
      s.forAll allVm (fun s n =>
        if s.vmst n = stStarting || s.vmst n = stRunning || s.vmst n = stHold then s.vmStop n else s)
    else if p = 0x10E then
      s.forAll [(0 : Fin 2), 1] (fun s x =>
        let st := s.ctcState x
        if st = stStarting || st = stRunning || st = stHold then s.openStart x else s)
    else if p = seqPg then
      { s.cancelSwap with seq := { s.cancelSwap.seq with sw := .none, swReadyAt := none, coldHold := false } }
    else s
  s.blockSettle p

/-- ENABLE of a block by the table of R234 (a 1 in FAULT is judged before), QUIESCED as R437 adds. -/
def State.blockEnable (s : State) (p : Nat) (on : Bool) : State :=
  let st := s.blk p
  if on then
    if st = stOff then s.blockStart p
    else if st = stStopping then s.setBit (Reg.BLK_STS p) 4 true else s
  else if st = stStopping then s.setBit (Reg.BLK_STS p) 4 false
  else if st = stOff then s.setBit (Reg.BLK_STS p) 4 false
  else if st = stFault then s
  else s.blockStop p

/-! ## QUIESCE (R437) -/

/-- QUIESCE of the sequencer: pending until the body in progress has ended; on every other block it is stored only. -/
def State.blockQuiesce (s : State) (p : Nat) (on : Bool) : State :=
  if p ≠ seqPg then s
  else if on then (if s.blk p = stQuiesced then s else (s.setBit (Reg.BLK_STS p) 5 true).heldQuiesce)
  else s.setBit (Reg.BLK_STS p) 5 false

/-! ## SOFT_RESET (R437) -/

/-- The sticky status of a page, as (register, mask). -/
def stickyOf (p : Nat) : List (Nat × Nat) :=
  if 0x20 ≤ p ∧ p < 0x30 then [(Reg.MAC_STS (p - 0x20), 0x1E)]
  else if 0x30 ≤ p ∧ p < 0x34 then [(Reg.VEC_STS (p - 0x30), 0x6)]
  else if 0x40 ≤ p ∧ p < 0x4D then [(Reg.ENG_STS (p - 0x40), 0xE)]
  else if p = 0x50 then [(Reg.SHM_STS, 0x7)]
  else if p = 0x53 then [(Reg.ING_STS, 0xE), (Reg.EGR_STS, 0xE)]
  else if p = 0x109 then [(Reg.PLT_STS, 0x4)]
  else if p = 0x10B then [(Reg.CLE_STS, 0x1)]
  else if p = 0xA3 then [(Reg.HMK_STS, 0xE)]
  else if p = 0xC1 then [(Reg.EVR_STS, 0x2)]
  else []

/-- Does BLK_CTL of page `p` govern page `q`? -/
def governs (p q : Nat) : Bool := (blockOf q).1 = (blockOf p).1 && (q = p || !ownBlkCtl q)

/-- Is a register a counter (SHM_BANK_CE holds four)? -/
def isCounter (a : Nat) : Bool :=
  ((a / 4096 = 0x52) && decide (0x100 ≤ a % 4096)) ||
  match findRow (a / 4096) (a % 4096) with
  | some r => r.counter
  | none => false

/-- The block's counters and sticky status go to 0; STATE, configuration, IRQ_STS and LOCK stay (R437). -/
def State.softClear (s : State) (p : Nat) : State :=
  let s := { s with regs := s.regs.filter (fun e => !(governs p (e.1 / 4096) && isCounter e.1)) }
  let s := if 0x49 ≤ p ∧ p < 0x4D then { s with eng := { s.eng with asyncSeq := Vector.set! s.eng.asyncSeq (p - 0x49) 0 } } else s
  s.forAll ((List.range 0x115).filter (governs p)) (fun s q =>
    s.forAll (stickyOf q) (fun s e => s.setReg e.1 (s.reg e.1 &&& (2 ^ 32 - 1 - e.2))))

/-- Has the condition that FAULT_CAUSE names gone? The sequencer's cause 0x01: some variant can be selected again (R67). -/
def State.faultGone (s : State) (p : Nat) : Bool :=
  if p = seqPg && s.fld (Reg.BLK_STS p) 8 8 = 1 then (s.selectFor s.runningPat).isSome else true

/-- SOFT_RESET, written with the ENABLE given: FAULT is left for OFF with ENABLE 0, once its condition has gone (R437). -/
def State.softReset (s : State) (p : Nat) (en : Bool) : State :=
  let s := s.softClear p
  if s.blk p = stFault && !en && s.faultGone p then s.setBlk p stOff 0 else s

/-! ## BLK_CTL (R435) -/

/-- May BLK_CTL of a page be written so: a 1 to ENABLE of a block in FAULT is rejected (R234)? -/
def blkCtlOk (p : Nat) (s : State) (v : Nat) : Bool := !(bitOf v 0 && s.blk p = stFault)

/-- What a write of BLK_CTL does: SOFT_RESET, then ENABLE, then QUIESCE. -/
def blkCtlEff (p : Nat) (s : State) (v : Nat) : State :=
  let s := if bitOf v 2 then s.softReset p (bitOf v 0) else s
  (s.blockEnable p (bitOf v 0)).blockQuiesce p (bitOf v 1)

/-- A write of BLK_CTL that sets or clears ENABLE (R437). -/
def execBlkCtlEnable (t : Nat) (w : Writer) (page : BitVec 12) (v : Word) (s : State) : Host.Outcome State Fault Refusal :=
  run t s fun s => s.ownWrite w (Reg.BLK_CTL page.toNat) v.toNat (blkCtlOk page.toNat) (blkCtlEff page.toNat)

/-- A write of BLK_CTL that sets or clears QUIESCE (R437). -/
def execBlkCtlQuiesce (t : Nat) (w : Writer) (page : BitVec 12) (v : Word) (s : State) : Host.Outcome State Fault Refusal :=
  run t s fun s => s.ownWrite w (Reg.BLK_CTL page.toNat) v.toNat (blkCtlOk page.toNat) (blkCtlEff page.toNat)

/-- A write of BLK_CTL with SOFT_RESET (R437). -/
def execBlkCtlSoftReset (t : Nat) (w : Writer) (page : BitVec 12) (v : Word) (s : State) : Host.Outcome State Fault Refusal :=
  run t s fun s => s.ownWrite w (Reg.BLK_CTL page.toNat) (v.toNat ||| 4) (blkCtlOk page.toNat) (blkCtlEff page.toNat)

/-! ## IRQ_SET and LOCK (R434, R440) -/

/-- What a write of IRQ_SET does: its ones set bits of IRQ_STS. -/
def irqSetEff (p : Nat) (s : State) (v : Nat) : State := s.irqSet p (v % 32)

/-- A write of IRQ_SET (R434). -/
def execIrqSetWrite (t : Nat) (w : Writer) (page : BitVec 12) (v : Word) (s : State) : Host.Outcome State Fault Refusal :=
  run t s fun s => s.ownWrite w (Reg.IRQ_SET page.toNat) v.toNat anyValue (irqSetEff page.toNat)

/-- What a write of LOCK does: WR_LOCK is set and stays (R440). -/
def lockEff (p : Nat) (s : State) (v : Nat) : State := if bitOf v 0 then s.setBit (Reg.LOCK p) 0 true else s

/-- A write of LOCK.WR_LOCK (R440). -/
def execLockWrLock (t : Nat) (w : Writer) (page : BitVec 12) (v : Word) (s : State) : Host.Outcome State Fault Refusal :=
  run t s fun s => s.ownWrite w (Reg.LOCK page.toNat) v.toNat anyValue (lockEff page.toNat)

end Sys2Proof.Machine
end

