-- ==== Sys2Proof/Machine/Registers.lean ====
section
/-!
DEFINITION. Register writes by address (R427 to R440): the range rule and the effect of every register, gathered from its
chapter; writes outside the register window; the event fabric's own rows (R441 to R445), the audit's (R448), and the front panel's
(R453, R456).
-/
namespace Sys2Proof.Machine

/-! ## What a write of each register must satisfy and what it does -/

/-- The range rule of a register and its effect beside the stored value. -/
abbrev Hook := (State → Nat → Bool) × (State → Nat → State)

/-- Stored only. -/
def plain : Hook := (anyValue, fun s _ => s)

/-- Stored if within a range. -/
def within (lo hi : Nat) : Hook := (fun _ v => decide (lo ≤ v ∧ v ≤ hi), fun s _ => s)

/-- Stored if a rule holds. -/
def checked (ok : State → Nat → Bool) : Hook := (ok, fun s _ => s)

/-- Any value, with an effect. -/
def acting (eff : State → Nat → State) : Hook := (anyValue, eff)

/-- The common header (R434). -/
def headerHook (page off : Nat) : Hook :=
  match off with
  | 0x08 => (blkCtlOk page, blkCtlEff page)
  | 0x18 => acting (irqSetEff page)
  | 0x1C => acting (fun s v => if hasErrInj page then s.armInject page v else s)
  | 0x28 => acting (lockEff page)
  | _ => plain

/-- Does a word of EVT_ROUTE name only targets that its four pages may have (R444)? -/
def routeOk (word : Nat) (_ : State) (v : Nat) : Bool :=
  (List.range 4).all (fun i =>
    let k := fieldOf v (8 * i) 3
    k ≤ 4 || (k = 5 && onPulseDie (4 * word + i)))

/-- CLR_LOST of EVT_CTL and of AUD_CTL (R445, R448). -/
def evtCtlEff (s : State) (v : Nat) : State := if bitOf v 1 then s.setReg Reg.EVT_LOST 0 else s
def audCtlEff (s : State) (v : Nat) : State := if bitOf v 0 then s.setReg Reg.AUD_LOST 0 else s

/-- GO and RELEASE of SEQ_SWAP (R66, R78). -/
def seqSwapOk (s : State) (v : Nat) : Bool := !bitOf v 1 || swapGoOk (bitOf v 0) s
def seqSwapEff (s : State) (v : Nat) : State :=
  let s := if bitOf v 4 then s.releaseBank else s
  if bitOf v 1 then s.swapRequest else s

/-- GO of SEQ_LOAD (R76): a write without its own row gives no verdict of the signatures, which are then open. -/
def seqLoadEff (s : State) (v : Nat) : State :=
  if bitOf v 0 then
    let (i, s) := s.fresh
    s.loadStart (bitOf v 1) ⟨Config.freeValue i 0 % 2 = 1, Config.freeValue i 1 % 2 = 1⟩
  else s

/-- TRIGGER and UNFREEZE of FR_CTL (R145, R150). -/
def frCtlEff (s : State) (v : Nat) : State :=
  let s := if bitOf v 1 then s.frTrigger 0 0 else s
  if bitOf v 2 then s.frUnfreeze else s

/-- Pages 0x000 to 0x005 (R445 to R450). -/
def globalHook (page off : Nat) : Hook :=
  match page, off with
  | 0, 0x104 => (glbResetOk, glbResetEff)
  | 1, 0x108 => checked (fun _ v => fieldOf v 8 2 ≠ 3)
  | 2, 0x104 => acting evtCtlEff
  | 2, 0x110 => within 0 60000
  | 2, o => if 0x400 ≤ o then checked (routeOk ((o - 0x400) / 4)) else plain
  | 3, 0x104 => acting audCtlEff
  | 5, 0x104 => acting pwrCtlEff
  | 5, 0x108 => checked (fun s v => v ≤ s.fld Reg.OPT_BUDGET_LIQ 0 16)
  | 5, 0x10C => checked (fun s v => v ≤ s.fld Reg.OPT_BUDGET_LIQ 16 16)
  | 5, 0x110 => checked (fun s v => v ≤ s.fld Reg.OPT_BUDGET_AIR 0 16)
  | 5, 0x114 => checked (fun s v => v ≤ s.fld Reg.OPT_BUDGET_AIR 16 16)
  | _, _ => plain

/-- Pages 0x010 to 0x088: sequencer, recorder, Strand, Chain, Jarrojo, management port. -/
def baseHook (page off : Nat) : Hook :=
  if page = 0x10 then
    match off with
    | 0x104 => (seqSwapOk, seqSwapEff)
    | 0x108 => acting seqLoadEff
    | 0x110 => acting (fun s _ => s.warmChanged)
    | 0x114 => acting State.returnUnits
    | _ => plain
  else if page = 0x58 then
    match off with
    | 0x200 => acting frCtlEff
    | 0x208 => checked (fun s v => v ≤ s.reg Reg.FR_SLOTS / 2)
    | _ => plain
  else if h : 0x60 ≤ page ∧ page < 0x80 then
    let p : Fin 32 := ⟨page - 0x60, by omega⟩
    if off = 0x104 then (strCtlOk p, strCtlEff p) else plain
  else if h : 0x80 ≤ page ∧ page < 0x84 then
    if off = 0x104 then acting (chnCtlEff ⟨page - 0x80, by omega⟩) else plain
  else if page = 0x84 then
    match off with
    | 0x104 => acting jrjCtlEff
    | 0x12C => checked jrjStepOk
    | _ => plain
  else if page = 0x88 ∧ off = 0x108 then within 1 64
  else plain

/-- Pages 0x090 to 0x093: the mailboxes (R356 to R359, R380). -/
def mbxHook (w : Writer) (pg : Fin 4) (off : Nat) : Hook :=
  match off with
  | 0x800 => acting (mbxDselEff w pg)
  | 0x804 => acting (mbxWdataEff w pg)
  | 0x80C => (mbxPostOk w pg, mbxPostEff w pg)
  | 0x810 => (mbxFetchOk w pg, mbxFetchEff w pg)
  | _ =>
    if off % 64 = 0x10 then
      let n : Fin 64 := ⟨(16 * pg.val + (off - 0x110) / 64) % 64, Nat.mod_lt _ (by decide)⟩
      (fun s _ => s.mayAck w.path n, fun s v => s.mbxAck n v)
    else plain

/-- Pages 0x0A3 to 0x0C1: Hallmark, Nugen, journal, event recorder. -/
def nugHook (page off : Nat) : Hook :=
  match page, off with
  | 0xA3, 0x118 => (hmkAckOk, hmkAckEff)
  | 0xA3, 0x138 => checked hmkPolicyOk
  | 0xA3, 0x13C => within 1 5000
  | 0xB0, 0x104 => acting nugCtlEff
  | 0xB0, 0x108 => acting nugBootEff
  | 0xB0, 0x10C => within 100 10000
  | 0xB0, 0x110 => acting nugKickEff
  | 0xC0, 0x104 => acting jnlCtlEff
  | 0xC0, 0x10C => within 500 900
  | 0xC1, 0x118 => within 10 300
  | 0xC1, 0x11C => within 10 240
  | 0xC1, 0x120 => within 24 336
  | _, _ => plain

/-- A brick's registers (R199). -/
def brickHook (b : Fin 48) (o : Nat) : Hook :=
  match o with
  | 0x00 => (pcmCtlOk b, pcmCtlEff b)
  | 0x08 => within 100 1000
  | 0x0C => within 0 128
  | 0x1C => within 1000 9500
  | _ => plain

/-- Does a new BDS_LIM value keep the warning inside its trip (R278)? -/
def bdsLimOk (k : Nat) (s : State) (v : Nat) : Bool :=
  let lim (i : Nat) : Fv := f32 (s.reg (Reg.BDS_LIM_OV_WARN + 4 * i))
  match k with
  | 0 => (f32 v).lt (lim 1)
  | 1 => (lim 0).lt (f32 v)
  | 2 => (lim 3).lt (f32 v)
  | 3 => (f32 v).lt (lim 2)
  | 4 => (f32 v).lt (lim 5)
  | 5 => (lim 4).lt (f32 v)
  | _ => true

/-- Pages 0x108 to 0x10D: VM channels, Pleat, shedding, control laws, governor, protection. -/
def stageHook (w : Writer) (page off : Nat) : Hook :=
  if page = 0x108 then
    if off % 64 = 0 then
      let n : Fin 4 := ⟨(off - 0x100) / 64 % 4, Nat.mod_lt _ (by decide)⟩
      (vmcCtlOk n, vmcCtlEff n)
    else plain
  else if page = 0x109 then
    if off = 0x104 then within 1 1024 else if 0x140 ≤ off ∧ off < 0x170 then acting (pltMapEff w) else plain
  else if page = 0x10A then
    match off with
    | 0x108 => checked (fun _ v => v % 2 = 0 && decide (2 ≤ v ∧ v ≤ 48))
    | 0x110 => checked (fun s v => (f32 (s.reg Reg.SHD_OFF_KW)).lt (f32 v))
    | _ => plain
  else if page = 0x10B then
    match off with
    | 0x108 => acting cleSwapEff
    | 0x11C => (cleWdataOk, cleWdataEff)
    | o => if 0x400 ≤ o ∧ o < 0x800 then checked (cleRecOk ((o - 0x400) / 16) (o % 16 / 4)) else plain
  else if page = 0x10C then
    if 0x200 ≤ off ∧ off < 0x240 then checked (govRowOk ((off - 0x200) / 16) (off % 16 / 4)) else plain
  else if page = 0x10D ∧ off = 0x104 then (prtClrOk, prtClrEff)
  else plain

/-- Pages 0x10E to 0x114: contactors, Beads, Clasp, Lining, discrete inputs, slot link. -/
def stringHook (w : Writer) (page off : Nat) : Hook :=
  match page, off with
  | 0x10E, 0x100 => (ctcCtlOk 0, ctcCtlEff 0)
  | 0x10E, 0x120 => (ctcCtlOk 1, ctcCtlEff 1)
  | 0x10E, 0x140 => (ctcShipOk w, ctcShipEff)
  | 0x10F, 0x104 => (bdsCtlOk, bdsCtlEff)
  | 0x10F, 0x108 => within 1 1024
  | 0x10F, 0x11C => (balForceOk, balForceEff)
  | 0x10F, 0x124 => within 1 168
  | 0x10F, o =>
    if 0x130 ≤ o ∧ o < 0x14C then checked (bdsLimOk ((o - 0x130) / 4))
    else if 0x300 ≤ o ∧ o < 0x33C then acting balReqEff else plain
  | 0x111, 0x104 => (clpCtlOk, clpCtlEff)
  | 0x112, 0x104 => (linCtlOk w, linCtlEff)
  | 0x113, 0x800 => within 2 255
  | 0x113, 0x804 => within 1 1000
  | 0x113, 0x808 => (dinClrOk, dinClrEff)
  | 0x113, o => if o < 0x3C0 then checked (dinCfgOk ((o - 0x100) / 8)) else plain
  | 0x114, 0x104 => (slkCtlOk, slkCtlEff)
  | _, _ => plain

/-- Page 0x100: the shared pulse-die registers (R236), and page 0x101: the time base (R193, R447). -/
def pulseHook (page off : Nat) : Hook :=
  match page, off with
  | 0x100, 0x120 => acting (fun s _ => s.refreshFloors)
  | 0x100, 0x124 => acting (fun s _ => s.refreshFloors)
  | 0x101, 0x110 => checked ptbStepOk
  | 0x101, 0x118 => (fun s _ => !s.disciplineEn, ptbSlewEff)
  | _, _ => plain

/-- The hook of the register at a window address, for a writer. -/
def regHook (w : Writer) (a : Nat) : Hook :=
  let page := a / 4096
  let off := a % 4096
  if off < 0x100 then headerHook page off
  else if page < 0x10 then globalHook page off
  else if page < 0x90 then baseHook page off
  else if h : 0x90 ≤ page ∧ page < 0x94 then mbxHook w ⟨page - 0x90, by omega⟩ off
  else if page < 0x100 then nugHook page off
  else if page < 0x102 then pulseHook page off
  else if page < 0x108 then
    brickHook ⟨(8 * (page - 0x102) + (off - 0x100) / 64) % 48, Nat.mod_lt _ (by decide)⟩ (off % 64)
  else if page < 0x10E then stageHook w page off
  else stringHook w page off

/-- What a write of a page brings about beyond its own register: TIM holds the step and the slew at 0 once it no longer disciplines
(R447), and IRQ_EN may assert the page's interrupt (R444). -/
def State.afterWrite (was s : State) (page : Nat) : State :=
  let s := if was.disciplineEn && !s.disciplineEn then (s.setReg Reg.PTB_STEP 0).setReg Reg.PTB_SLEW 0 else s
  if !was.irqAsserted page && was.reg (Reg.IRQ_STS page) = s.reg (Reg.IRQ_STS page) && s.irqAsserted page then s.irqNotice page
  else s

/-- A write that reaches the register window (R428 to R440). -/
def State.windowWrite (s : State) (w : Writer) (a width v : Nat) : State :=
  let j := judge s w a width v
  (s.doWrite w j (fun s b v => (regHook w b).1 s v) (fun s b v => (regHook w b).2 s v)) |> s.afterWrite <| a / 4096

/-! ## The rest of the address map (R427, R428) -/

/-- Is an address in the tile SRAM window of a fitted die? -/
def tileWindow (fx : Fuses) (a : Nat) : Bool :=
  0x4100000000 ≤ a && a < 0x4140000000 && (a - 0x4100000000) % 0x10000000 < 0x4000000 &&
  pagePresent fx (0x30 + (a - 0x4100000000) / 0x10000000)

/-- Is an address in the MRDIMM region? -/
def mrRegion (a : Nat) : Bool := 0x8000000000 ≤ a && a < 0x10000000000

/-- Does a path reach memory outside the register window (R429)? The management port: ADMIN, and of MRDIMM only the upload buffers and
the staging area of R351. -/
def pathMemory (s : State) (w : Writer) (a : Nat) : Bool :=
  match w.path with
  | .nugen => true
  | .jtag => lcJtag s.lc
  | .mgmt => w.role == .admin && (!mrRegion a || (0x8074000000 ≤ a && a < 0x8180000000))
  | _ => false

/-- A write outside the register window: into memory where the path and R111, R139 and R141 allow it, refused and counted where they
do not, a decode error elsewhere. -/
def State.memoryWrite (s : State) (w : Writer) (a n v : Nat) : State :=
  if !s.basePowered then s
  else if a < 0x40000000 || tileWindow s.fx a then
    if !pathMemory s w a then s
    else if !s.winAllowed .nugen a then (s.inc Reg.SHM_WIN_REJ).setBit Reg.SHM_STS 2 true
    else s.winWrite a (leBytes n v)
  else if mrRegion a then
    if !pathMemory s w a then s
    else if s.mrOk a then s.setLe a n v else s.mrHole a
  else
    (s.audRingPut (s.audEntry w (a % 2 ^ 32) v (n = 8) true)).inc Reg.GLB_DECODE_ERR

/-- A write of a physical address by a path. -/
def State.mapWrite (s : State) (w : Writer) (a width v : Nat) : State :=
  let v := v % 2 ^ width
  if 0x4000000000 ≤ a ∧ a < 0x4001000000 then s.windowWrite w (a - 0x4000000000) width v
  else if (width = 32 ∨ width = 64) ∧ a % (width / 8) = 0 then s.memoryWrite w a (width / 8) v
  else s

/-- A write to a register, by its physical address (R440). -/
def execRegisterWrite (t : Nat) (w : Writer) (addr width : Nat) (v : DWord) (s : State) : Host.Outcome State Fault Refusal :=
  run t s fun s => s.mapWrite w addr width v.toNat

/-- A 32-bit write of the low word of a 64-bit register (R430). -/
def execRegWrite64Low (t : Nat) (w : Writer) (addr : Nat) (v : Word) (s : State) : Host.Outcome State Fault Refusal :=
  run t s fun s => s.mapWrite w addr 32 v.toNat

/-! ## The event fabric (R442, R445) -/

/-- A block posts an event (R442): its die must have power. -/
def execEventPost (t : Nat) (e : EventIn) (s : State) : Host.Outcome State Fault Refusal :=
  run t s fun s =>
    let p := e.page.toNat
    let up := if onPulseDie p then s.pw.pulse != .off else s.basePowered
    if pagePresent s.fx p && up then
      s.post p e.sev e.code.toNat e.unit.toNat e.cause.toNat e.v0.toNat e.v1.toNat e.v2.toNat
    else s

/-- Is a ring record due for the journal: WARN or FAULT, its coalescing window over, not yet journalled? -/
def State.evDue (s : State) (e : EvRec) : Bool :=
  1 ≤ e.sev.toNat && !e.jnl && decide (e.stamp.toNat + s.reg Reg.EVT_COAL_MS * 1000000 ≤ s.now)

/-- Nugen journals the records whose coalescing window is over, and announces each over Redfish (R442). -/
def execEventCoalesceEnd (t : Nat) (s : State) : Host.Outcome State Fault Refusal :=
  run t s fun s =>
    if !s.baseUp then s else
    let l := s.evt.ring.filter s.evDue
    let s := { s with evt := { s.evt with
      ring := s.evt.ring.map (fun e => if s.evDue e then { e with jnl := true } else e),
      announced := s.evt.announced + l.length } }
    s.forAll l (fun s e => s.jnlAdd false { ty := 0x51, sync := false, src := e.src.toNat, payload := evBytes e })

/-- EVT_CTL.CLR_LOST (R445). -/
def execEvtClrLost (t : Nat) (w : Writer) (v : Word) (s : State) : Host.Outcome State Fault Refusal :=
  run t s fun s => s.ownWrite w Reg.EVT_CTL v.toNat anyValue evtCtlEff

/-- AUD_CTL.CLR_LOST (R448). -/
def execAudClrLost (t : Nat) (w : Writer) (v : Word) (s : State) : Host.Outcome State Fault Refusal :=
  run t s fun s => s.ownWrite w Reg.AUD_CTL v.toNat anyValue audCtlEff

/-! ## The front panel (R453, R456) -/

/-- The highest power class of a cage, in 0.1 W (R453). -/
def cageClass (cage : Fin 11) : Nat := if cage.val < 8 then 35 else if cage.val < 10 then 120 else 15

/-- The page of a cage's first lane. -/
def cagePage (cage : Fin 11) : Nat :=
  if cage.val < 8 then 0x60 + 4 * cage.val else if cage.val < 10 then 0x80 + 2 * (cage.val - 8) else 0x88

/-- The lanes of a cage go DOWN. -/
def State.cageDown (s : State) (cage : Fin 11) : State :=
  let s := s.forAll ((List.finRange 32).filter (fun (p : Fin 32) => p.val / 4 = cage.val)) (fun s p =>
    if s.bit (Reg.STR_STS p) 3 then
      ((s.setLink p lkDown).setBit (Reg.STR_STS p) 3 false).forAll (epsOf p) State.dropIntents
    else s)
  s.forAll ((List.finRange 4).filter (fun (l : Fin 4) => 8 + l.val / 2 = cage.val)) (fun s l =>
    if s.bit (Reg.CHN_STS l) 3 then s.laneDown l else s)

/-- A plug above its cage's class (R453): held in low power, its lanes DOWN, a CONFIG event. A plug within its class ends a hold. -/
def execPluggableOverclass (t : Nat) (cage : Fin 11) (class01W : Nat) (s : State) : Host.Outcome State Fault Refusal :=
  run t s fun s =>
    if !s.basePowered || !pagePresent s.fx (cagePage cage) then s
    else if class01W ≤ cageClass cage then
      s.updPw (fun p => { p with overclass := p.overclass.filter (fun k => k ≠ cage.val) })
    else
      let s := s.cageDown cage
      let s := s.updPw (fun p => { p with overclass := insertNat p.overclass cage.val })
      s.post (cagePage cage) sevWarn 0x0001 cage.val 5 class01W 0 0

/-- The ejector lever's switch opens (R456), after 10 ms without a bounce: an owner yields to a READY peer, or raises CONFIG. -/
def execLeverSwitchOpen (t heldNs : Nat) (s : State) : Host.Outcome State Fault Refusal :=
  run t s fun s =>
    if heldNs < 10000000 || !s.isOwner || !s.pulseUp then s
    else if s.peerReady then s.yieldTrigger 1 false true
    else s.post 0x111 sevWarn 0x0001 0 6 0 0 0

end Sys2Proof.Machine
end

