-- ==== Sys2Proof/Machine/Boundary.lean ====
section
/-!
DEFINITION. The boundaries of the control frame, the plan frame and the admission slot (R35, R157), each one whole step over the
parts that its chapters define (spec/95_what_each_step_holds.md), and the start of a body, which holds the Pattern's work of a
control frame.
-/
namespace Sys2Proof.Machine

/-! ## The body (R55) -/

/-- The work that the running Pattern does in the body of a frame (R172, R282, R284, R322, R323, R395). -/
def State.bodyWork (s : State) : State :=
  let f := s.seq.body.frame
  let slot := f % 100
  let s := s.hmkBegin.shortForecast
  let s := if 32 ≤ f then s.hmkIntegrate (f - 32) else s
  let s := s.cameoFreeze
  let s := if slot = 10 then s.reportSend else s
  if slot = 30 then s.consensus else s

/-- Run a step that may start a body; a body that has begun does its work. -/
def State.withBody (s : State) (f : State → State) : State :=
  let r := f s
  if r.seq.body.active && (!s.seq.body.active || r.seq.body.frame ≠ s.seq.body.frame) then r.bodyWork else r

/-- The catch-up body starts 9 cycles after FRAME_END (R74), and does a body's work. -/
def execCatchupBodyStart (t : Nat) (s : State) : Host.Outcome State Fault Refusal :=
  run t s fun s => s.withBody State.catchUp

/-- The COLD swap's images are written: the new Pattern starts at this plan-frame boundary, slot 0 (R66). -/
def execColdSwapStart (t : Nat) (s : State) : Host.Outcome State Fault Refusal := run t s fun s => s.withBody State.coldStart

/-- The copied variant starts at this control-frame boundary (R68 step 3). -/
def execVariantRestart (t : Nat) (s : State) : Host.Outcome State Fault Refusal := run t s fun s => s.withBody State.variantRestart

/-- A restart that was awaiting OFF starts at this plan-frame boundary (R79). -/
def execSeqRearmRestart (t : Nat) (s : State) : Host.Outcome State Fault Refusal := run t s fun s => s.withBody State.rearmRestart

/-! ## The control frame (R35) -/

/-- The base die's part of a control-frame boundary, before the governor: rings, Hallmark's latch. -/
def State.baseFrame (s : State) : State :=
  if !s.baseUp then s else
  (s.publishRings.forAll (List.range 32) State.ringMove).hmkLatch

/-- The base die's part after it: the next body, links, intents, stacks. -/
def State.baseFrameEnd (s : State) : State :=
  if !s.baseUp then s else
  let s := s.withBody State.seqBoundary
  s.drainEgress.strandTimeSend.intentFalsified.stackSettle

/-- The pulse die's part after the governor: cadence, precharge, opening strings, blocks that stop. -/
def State.pulseFrame (s : State) : State :=
  if !s.pulseUp then s else s.cadenceTrack.prechargeMatch.trackOpen.settleBlocks

/-- CONTROL_FRAME_BOUNDARY (R35). -/
def execControlFrameBoundary (s : State) : Host.Outcome State Fault Refusal :=
  runGrid 10000 s.grid.ctl (fun g n => { g with ctl := n }) s fun s =>
    s.baseFrame.govBoundary.baseFrameEnd.pulseFrame

/-! ## The pulse-die buffers (R39, R442) -/

/-- The pulse-die audit buffer drains into the ring. -/
def State.audDrain (s : State) : State :=
  let l := s.aud.pd
  { s with aud := { s.aud with pd := [] } }.forAll l State.audRingPut

/-- The pulse-die event buffer drains into the ring. -/
def State.evDrain (s : State) : State :=
  let l := s.evt.pd
  { s with evt := { s.evt with pd := [] } }.forAll l State.evRingPut

/-! ## The plan frame (R35) -/

/-- The Pattern's part of a plan frame: estimators and rest windows (R264 to R271), the site's shares (R324, R325), plan, setpoint
and grants (R173 to R188), announcements (R320), and the metering's reads (R284). -/
def State.patternFrame (s : State) (q : PlanIn) : State :=
  if !s.patternActive then s else
  let s := (((((s.ekfStep q.strs).trackQuiet q.strs).restAbandon q.strs).restStart q.strs).reserveUpdate q.strs)
  let s := s.tripAbsorb.capApply
  ((s.arbiterFrame q).stepAnnounce q).hmkPlanRead

/-- The pulse die's part: the plan buffer, setpoints, strings, cadence, floors and the yield. -/
def State.pulsePlan (s : State) : State :=
  if !s.pulseUp then s else
  let s := s.planTake.planSetpoint.lineReturn.setpointSend.planRelease
  let s := s.regulatorChange.stringInService.stringLeavePlan
  s.cadenceFast.markStale.contestFloor.yieldBoundary

/-- The base die's part: links, the journal's and the slot link's reports, the buffers, resets and updates that wait. -/
def State.basePlan (s : State) : State :=
  if !s.baseUp then s else
  let s := s.holdoffSend.jrjTimeSend.limitShow.chainService
  let s := s.slkAges.patternJournal.evDrain.audDrain
  s.glbBoundary.updateBoundary

/-- PLAN_FRAME_BOUNDARY (R35). -/
def execPlanFrameBoundary (p : PlanIn) (s : State) : Host.Outcome State Fault Refusal :=
  runGrid 1000000 s.grid.plan (fun g n => { g with plan := n }) s fun s =>
    let s := (s.patternFrame p).pulsePlan
    (if s.pulseUp then s.chargeLatch else s).basePlan

/-! ## The admission slot (R157, R314) -/

/-- ADMISSION_SLOT: a pending wiring plan takes effect, Chain lanes that wait are admitted, then at most four ports; the first slot
is the first after the sequencer has reached RUNNING. -/
def execAdmissionSlot (s : State) : Host.Outcome State Fault Refusal :=
  runGrid 10000000 s.grid.admission (fun g n => { g with admission := n }) s fun s =>
    if !s.baseUp then s else
    let s := s.wiringEffect
    if s.seqSeen then s.admitLanes.admitPorts 4 else s

end Sys2Proof.Machine
end

