-- ==== Sys2Proof/Machine/Dispatch.lean ====
section
/-!
DEFINITION. What each command does: one arm per row of the opcode table, each a direct call of its meaning.
-/
namespace Sys2Proof.Machine

/-- The effect of a command on everything but the queue. -/
def exec (i : Instr) (s : State) : Host.Outcome State Fault Refusal :=
  match i with
  | .pulsePeriodBoundary h => Sys2Proof.Machine.execPulsePeriodBoundary h s
  | .stepReaddSecond t => Sys2Proof.Machine.execStepReaddSecond t s
  | .deferredRotation t => Sys2Proof.Machine.execDeferredRotation t s
  | .controlFrameBoundary => Sys2Proof.Machine.execControlFrameBoundary s
  | .planFrameBoundary p => Sys2Proof.Machine.execPlanFrameBoundary p s
  | .epochBoundary => Sys2Proof.Machine.execEpochBoundary s
  | .holdoverEnter t => Sys2Proof.Machine.execHoldoverEnter t s
  | .baseDieLossSignal t => Sys2Proof.Machine.execBaseDieLossSignal t s
  | .holdoverExit t => Sys2Proof.Machine.execHoldoverExit t s
  | .holdoverFloor t => Sys2Proof.Machine.execHoldoverFloor t s
  | .referenceHandoffArrive t g poisoned => Sys2Proof.Machine.execReferenceHandoffArrive t g poisoned s
  | .planBufferArrive t g => Sys2Proof.Machine.execPlanBufferArrive t g s
  | .setpointLineFail t => Sys2Proof.Machine.execSetpointLineFail t s
  | .setpointLineRestore t goodFrames => Sys2Proof.Machine.execSetpointLineRestore t goodFrames s
  | .rectifierAdmission t r holdMs => Sys2Proof.Machine.execRectifierAdmission t r holdMs s
  | .rectAcLoss t lost => Sys2Proof.Machine.execRectAcLoss t lost s
  | .slotIdChange t level => Sys2Proof.Machine.execSlotIdChange t level s
  | .peerOrderMismatch t peer => Sys2Proof.Machine.execPeerOrderMismatch t peer s
  | .ptpMessageRx t m => Sys2Proof.Machine.execPtpMessageRx t m s
  | .timeDisagree t => Sys2Proof.Machine.execTimeDisagree t s
  | .timeSourceLost t => Sys2Proof.Machine.execTimeSourceLost t s
  | .holdoverUncRaise t => Sys2Proof.Machine.execHoldoverUncRaise t s
  | .timeSourceReturn t src => Sys2Proof.Machine.execTimeSourceReturn t src s
  | .timeOffsetLock t offset => Sys2Proof.Machine.execTimeOffsetLock t offset s
  | .clockStepApply t => Sys2Proof.Machine.execClockStepApply t s
  | .ptbStepWrite t w v => Sys2Proof.Machine.execPtbStepWrite t w v s
  | .ptbSlewWrite t w v => Sys2Proof.Machine.execPtbSlewWrite t w v s
  | .pllUnlock t => Sys2Proof.Machine.execPllUnlock t s
  | .pllRelock t heldNs => Sys2Proof.Machine.execPllRelock t heldNs s
  | .stitchFrameEnd t k => Sys2Proof.Machine.execStitchFrameEnd t k s
  | .stitchTrace t k tag => Sys2Proof.Machine.execStitchTrace t k tag s
  | .stitchAwake t mask => Sys2Proof.Machine.execStitchAwake t mask s
  | .catchupBodyStart t => Sys2Proof.Machine.execCatchupBodyStart t s
  | .seqLoadGo t w sig => Sys2Proof.Machine.execSeqLoadGo t w sig s
  | .seqLoadCheckOnly t w sig => Sys2Proof.Machine.execSeqLoadCheckOnly t w sig s
  | .loaderDone t => Sys2Proof.Machine.execLoaderDone t s
  | .seqSwapGo t w bank => Sys2Proof.Machine.execSeqSwapGo t w bank s
  | .swapTakeEffect t => Sys2Proof.Machine.execSwapTakeEffect t s
  | .coldSwapStart t => Sys2Proof.Machine.execColdSwapStart t s
  | .seqSwapRelease t w => Sys2Proof.Machine.execSeqSwapRelease t w s
  | .seqWarmWrite t w v => Sys2Proof.Machine.execSeqWarmWrite t w v s
  | .warmStageDone t => Sys2Proof.Machine.execWarmStageDone t s
  | .residueMismatch t k => Sys2Proof.Machine.execResidueMismatch t k s
  | .vecFault t d ecc => Sys2Proof.Machine.execVecFault t d ecc s
  | .warmVariantSwitch t => Sys2Proof.Machine.execWarmVariantSwitch t s
  | .variantCopyDone t hashOk => Sys2Proof.Machine.execVariantCopyDone t hashOk s
  | .variantRestart t => Sys2Proof.Machine.execVariantRestart t s
  | .seqFailedWrite t w v => Sys2Proof.Machine.execSeqFailedWrite t w v s
  | .coolingVariantSwitch t => Sys2Proof.Machine.execCoolingVariantSwitch t s
  | .clockStretch t cycles => Sys2Proof.Machine.execClockStretch t cycles s
  | .seqRearmRestart t => Sys2Proof.Machine.execSeqRearmRestart t s
  | .mbpPost t slot => Sys2Proof.Machine.execMbpPost t slot s
  | .mbpFetch t slot => Sys2Proof.Machine.execMbpFetch t slot s
  | .mbpAck t slot => Sys2Proof.Machine.execMbpAck t slot s
  | .macWload t c k slot => Sys2Proof.Machine.execMacWload t c k slot s
  | .macStream t c k slot => Sys2Proof.Machine.execMacStream t c k slot s
  | .macDrain t c k slot => Sys2Proof.Machine.execMacDrain t c k slot s
  | .errInjResFlip t w u v => Sys2Proof.Machine.execErrInjResFlip t w u v s
  | .errInjAccFlip t w u v => Sys2Proof.Machine.execErrInjAccFlip t w u v s
  | .errInjRadInf t w u v => Sys2Proof.Machine.execErrInjRadInf t w u v s
  | .vecAdd t d slot => Sys2Proof.Machine.execVecAdd t d slot s
  | .vecSub t d slot => Sys2Proof.Machine.execVecSub t d slot s
  | .vecMul t d slot => Sys2Proof.Machine.execVecMul t d slot s
  | .vecFma t d slot => Sys2Proof.Machine.execVecFma t d slot s
  | .vecMax t d slot => Sys2Proof.Machine.execVecMax t d slot s
  | .vecMin t d slot => Sys2Proof.Machine.execVecMin t d slot s
  | .vecCvt t d slot => Sys2Proof.Machine.execVecCvt t d slot s
  | .vecTab t d slot => Sys2Proof.Machine.execVecTab t d slot s
  | .vecRsum t d slot => Sys2Proof.Machine.execVecRsum t d slot s
  | .vecRmax t d slot => Sys2Proof.Machine.execVecRmax t d slot s
  | .vecScale t d slot => Sys2Proof.Machine.execVecScale t d slot s
  | .vecMove t d slot => Sys2Proof.Machine.execVecMove t d slot s
  | .vecPackMx t d slot => Sys2Proof.Machine.execVecPackMx t d slot s
  | .vecAbs t d slot => Sys2Proof.Machine.execVecAbs t d slot s
  | .fftLoad t c slot => Sys2Proof.Machine.execFftLoad t c slot s
  | .fftXform t c slot => Sys2Proof.Machine.execFftXform t c slot s
  | .fftStore t c slot => Sys2Proof.Machine.execFftStore t c slot s
  | .qpeLoad t c slot => Sys2Proof.Machine.execQpeLoad t c slot s
  | .qpeIter t c slot => Sys2Proof.Machine.execQpeIter t c slot s
  | .qpeStore t c slot => Sys2Proof.Machine.execQpeStore t c slot s
  | .estPredict t c slot => Sys2Proof.Machine.execEstPredict t c slot s
  | .estUpdate t c slot => Sys2Proof.Machine.execEstUpdate t c slot s
  | .mrgMerge t c slot => Sys2Proof.Machine.execMrgMerge t c slot s
  | .intSpans t c slot => Sys2Proof.Machine.execIntSpans t c slot s
  | .intAcc t c slot => Sys2Proof.Machine.execIntAcc t c slot s
  | .intRead t c slot => Sys2Proof.Machine.execIntRead t c slot s
  | .intCoef t c slot => Sys2Proof.Machine.execIntCoef t c slot s
  | .hstAcc t c slot => Sys2Proof.Machine.execHstAcc t c slot s
  | .hstRead t c slot => Sys2Proof.Machine.execHstRead t c slot s
  | .splTable t c slot => Sys2Proof.Machine.execSplTable t c slot s
  | .splEval1 t c slot => Sys2Proof.Machine.execSplEval1 t c slot s
  | .splEval2 t c slot => Sys2Proof.Machine.execSplEval2 t c slot s
  | .selTopk t c slot => Sys2Proof.Machine.execSelTopk t c slot s
  | .selQuant t c slot => Sys2Proof.Machine.execSelQuant t c slot s
  | .hshLeaf t c slot => Sys2Proof.Machine.execHshLeaf t c slot s
  | .hshNode t c slot => Sys2Proof.Machine.execHshNode t c slot s
  | .dmaCopy t c ch slot => Sys2Proof.Machine.execDmaCopy t c ch slot s
  | .dmaGather t c ch slot => Sys2Proof.Machine.execDmaGather t c ch slot s
  | .dmaScatter t c ch slot => Sys2Proof.Machine.execDmaScatter t c ch slot s
  | .dmaTileIn t c ch slot => Sys2Proof.Machine.execDmaTileIn t c ch slot s
  | .dmaTileOut t c ch slot => Sys2Proof.Machine.execDmaTileOut t c ch slot s
  | .dmaMrRead t c ch slot => Sys2Proof.Machine.execDmaMrRead t c ch slot s
  | .dmaMrWrite t c ch slot => Sys2Proof.Machine.execDmaMrWrite t c ch slot s
  | .dmaAsyncDone t ch => Sys2Proof.Machine.execDmaAsyncDone t ch s
  | .ingCopy t c slot => Sys2Proof.Machine.execIngCopy t c slot s
  | .egrRef t c slot => Sys2Proof.Machine.execEgrRef t c slot s
  | .egrPlan t c slot => Sys2Proof.Machine.execEgrPlan t c slot s
  | .egrStrand t c slot => Sys2Proof.Machine.execEgrStrand t c slot s
  | .egrChain t c slot => Sys2Proof.Machine.execEgrChain t c slot s
  | .egrSlot t c slot => Sys2Proof.Machine.execEgrSlot t c slot s
  | .windowAccess t q => Sys2Proof.Machine.execWindowAccess t q s
  | .shmScrubRead t bank err => Sys2Proof.Machine.execShmScrubRead t bank err s
  | .shmScrubWriteback t bank => Sys2Proof.Machine.execShmScrubWriteback t bank s
  | .frMoverPlace t n rail stamp sample => Sys2Proof.Machine.execFrMoverPlace t n rail stamp sample s
  | .frSlotDeadline t f => Sys2Proof.Machine.execFrSlotDeadline t f s
  | .frTrigger t cause page => Sys2Proof.Machine.execFrTrigger t cause page s
  | .frFreeze t => Sys2Proof.Machine.execFrFreeze t s
  | .frCtlTrigger t w => Sys2Proof.Machine.execFrCtlTrigger t w s
  | .frCtlUnfreeze t w => Sys2Proof.Machine.execFrCtlUnfreeze t w s
  | .frCtlEnable t w on => Sys2Proof.Machine.execFrCtlEnable t w on s
  | .frExport t sess f => Sys2Proof.Machine.execFrExport t sess f s
  | .ddcTraining t d => Sys2Proof.Machine.execDdcTraining t d s
  | .ddcPatrolScrub t ch ce ue => Sys2Proof.Machine.execDdcPatrolScrub t ch ce ue s
  | .strandFecLock t p => Sys2Proof.Machine.execStrandFecLock t p s
  | .strandIdent t p f => Sys2Proof.Machine.execStrandIdent t p f s
  | .strandIdentRetry t p => Sys2Proof.Machine.execStrandIdentRetry t p s
  | .strandIdentTimeout t p => Sys2Proof.Machine.execStrandIdentTimeout t p s
  | .admissionSlot => Sys2Proof.Machine.execAdmissionSlot s
  | .strReident t w p => Sys2Proof.Machine.execStrReident t w p s
  | .strBurstGo t w p => Sys2Proof.Machine.execStrBurstGo t w p s
  | .strandFecLoss t p => Sys2Proof.Machine.execStrandFecLoss t p s
  | .endpointLeaseLapse t n => Sys2Proof.Machine.execEndpointLeaseLapse t n s
  | .strandTelem t p f => Sys2Proof.Machine.execStrandTelem t p f s
  | .strandRaildesc t p f => Sys2Proof.Machine.execStrandRaildesc t p f s
  | .strandTimeRpt t p f => Sys2Proof.Machine.execStrandTimeRpt t p f s
  | .strandStatus t p f => Sys2Proof.Machine.execStrandStatus t p f s
  | .strandIntent t p f => Sys2Proof.Machine.execStrandIntent t p f s
  | .intentTreat t => Sys2Proof.Machine.execIntentTreat t s
  | .intentBarExpire t n => Sys2Proof.Machine.execIntentBarExpire t n s
  | .strandSpan t p f => Sys2Proof.Machine.execStrandSpan t p f s
  | .strandBurst t p f => Sys2Proof.Machine.execStrandBurst t p f s
  | .policyRecordEffect t => Sys2Proof.Machine.execPolicyRecordEffect t s
  | .policyLeaseEnd t => Sys2Proof.Machine.execPolicyLeaseEnd t s
  | .trayAlertActive t j => Sys2Proof.Machine.execTrayAlertActive t j s
  | .trayAlertRelease t j => Sys2Proof.Machine.execTrayAlertRelease t j s
  | .plsFloorForceWrite t w v => Sys2Proof.Machine.execPlsFloorForceWrite t w v s
  | .plsFloorAllForce t w v => Sys2Proof.Machine.execPlsFloorAllForce t w v s
  | .brickTurnOn t b => Sys2Proof.Machine.execBrickTurnOn t b s
  | .brickBlankEnd t b => Sys2Proof.Machine.execBrickBlankEnd t b s
  | .brickThresholdCross t b amp ticks => Sys2Proof.Machine.execBrickThresholdCross t b amp ticks s
  | .brickCbcLimit t b amp ticks => Sys2Proof.Machine.execBrickCbcLimit t b amp ticks s
  | .brickMaxOn t b amp ticks => Sys2Proof.Machine.execBrickMaxOn t b amp ticks s
  | .brickHardLimit t b amp => Sys2Proof.Machine.execBrickHardLimit t b amp s
  | .brickPersistentLimit t b => Sys2Proof.Machine.execBrickPersistentLimit t b s
  | .brickAlertFault t b => Sys2Proof.Machine.execBrickAlertFault t b s
  | .pcmEnable t w b v => Sys2Proof.Machine.execPcmEnable t w b v s
  | .pcmExclude t w b v => Sys2Proof.Machine.execPcmExclude t w b v s
  | .pcmClear t w b v => Sys2Proof.Machine.execPcmClear t w b v s
  | .brickStopDone t b => Sys2Proof.Machine.execBrickStopDone t b s
  | .pleatRotation t => Sys2Proof.Machine.execPleatRotation t s
  | .pltMapWrite t w n v => Sys2Proof.Machine.execPltMapWrite t w n v s
  | .shedStart t => Sys2Proof.Machine.execShedStart t s
  | .shedStep t => Sys2Proof.Machine.execShedStep t s
  | .shedHoldoffEnd t => Sys2Proof.Machine.execShedHoldoffEnd t s
  | .cleInstanceSample t n wait => Sys2Proof.Machine.execCleInstanceSample t n wait s
  | .cleDeadlineFault t n => Sys2Proof.Machine.execCleDeadlineFault t n s
  | .cleSwapWrite t w v => Sys2Proof.Machine.execCleSwapWrite t w v s
  | .cleBankSwap t n => Sys2Proof.Machine.execCleBankSwap t n s
  | .cleWdataWrite t w v => Sys2Proof.Machine.execCleWdataWrite t w v s
  | .cleRecordWrite t w n k v => Sys2Proof.Machine.execCleRecordWrite t w n k v s
  | .vmcEnable t w n v => Sys2Proof.Machine.execVmcEnable t w n v s
  | .vmcTargetMode t w n v => Sys2Proof.Machine.execVmcTargetMode t w n v s
  | .vmcClear t w n v => Sys2Proof.Machine.execVmcClear t w n v s
  | .vmcInRegulation t n heldNs => Sys2Proof.Machine.execVmcInRegulation t n heldNs s
  | .vmcTimeout t n => Sys2Proof.Machine.execVmcTimeout t n s
  | .vmcShort t n heldNs => Sys2Proof.Machine.execVmcShort t n heldNs s
  | .vmcHiccupEnd t n => Sys2Proof.Machine.execVmcHiccupEnd t n s
  | .vmcRetryReset t n => Sys2Proof.Machine.execVmcRetryReset t n s
  | .vmcStopDone t n => Sys2Proof.Machine.execVmcStopDone t n s
  | .govRowWrite t w r k v => Sys2Proof.Machine.execGovRowWrite t w r k v s
  | .busOvWarn t x heldNs => Sys2Proof.Machine.execBusOvWarn t x heldNs s
  | .busOvTrip t x heldNs => Sys2Proof.Machine.execBusOvTrip t x heldNs s
  | .busUvWarn t x heldNs => Sys2Proof.Machine.execBusUvWarn t x heldNs s
  | .busUvTrip t x heldNs => Sys2Proof.Machine.execBusUvTrip t x heldNs s
  | .stringOcWarn t str x heldNs => Sys2Proof.Machine.execStringOcWarn t str x heldNs s
  | .stringOcTrip t str x heldNs => Sys2Proof.Machine.execStringOcTrip t str x heldNs s
  | .tripContactorOpen t str x => Sys2Proof.Machine.execTripContactorOpen t str x s
  | .contactorFbMismatch t str pre heldNs => Sys2Proof.Machine.execContactorFbMismatch t str pre heldNs s
  | .protWarnRecover t k x heldNs => Sys2Proof.Machine.execProtWarnRecover t k x heldNs s
  | .prtClr t w v => Sys2Proof.Machine.execPrtClr t w v s
  | .ownerLost t => Sys2Proof.Machine.execOwnerLost t s
  | .beadWake t str => Sys2Proof.Machine.execBeadWake t str s
  | .beadSleep t str => Sys2Proof.Machine.execBeadSleep t str s
  | .beadAddr t str serials => Sys2Proof.Machine.execBeadAddr t str serials s
  | .beadConfig t str a arg => Sys2Proof.Machine.execBeadConfig t str a arg s
  | .beadSettle t str a arg => Sys2Proof.Machine.execBeadSettle t str a arg s
  | .beadMeas t str arg => Sys2Proof.Machine.execBeadMeas t str arg s
  | .beadRead t str arg => Sys2Proof.Machine.execBeadRead t str arg s
  | .beadBal t str j mask => Sys2Proof.Machine.execBeadBal t str j mask s
  | .beadOwt t str j arg => Sys2Proof.Machine.execBeadOwt t str j arg s
  | .beadForce t str j mask => Sys2Proof.Machine.execBeadForce t str j mask s
  | .beadDiag t str j => Sys2Proof.Machine.execBeadDiag t str j s
  | .beadReplyRx t str f => Sys2Proof.Machine.execBeadReplyRx t str f s
  | .stringSumMismatch t str => Sys2Proof.Machine.execStringSumMismatch t str s
  | .hopFail t str h => Sys2Proof.Machine.execHopFail t str h s
  | .hopProbe t str h ok => Sys2Proof.Machine.execHopProbe t str h ok s
  | .loopCloseRestore t str => Sys2Proof.Machine.execLoopCloseRestore t str s
  | .beadLoss t str j => Sys2Proof.Machine.execBeadLoss t str j s
  | .cadenceSlow t str => Sys2Proof.Machine.execCadenceSlow t str s
  | .bdsBalReqWrite t w n v => Sys2Proof.Machine.execBdsBalReqWrite t w n v s
  | .balReqLapse t => Sys2Proof.Machine.execBalReqLapse t s
  | .bdsBalForceWrite t w v => Sys2Proof.Machine.execBdsBalForceWrite t w v s
  | .beadSwitchFault t str j => Sys2Proof.Machine.execBeadSwitchFault t str j s
  | .deviationEval t str j d => Sys2Proof.Machine.execDeviationEval t str j d s
  | .bdsOwtGo t w => Sys2Proof.Machine.execBdsOwtGo t w s
  | .owtResult t str moveUv => Sys2Proof.Machine.execOwtResult t str moveUv s
  | .unresolvedRetest t str => Sys2Proof.Machine.execUnresolvedRetest t str s
  | .bdsClr t w => Sys2Proof.Machine.execBdsClr t w s
  | .cellOvWarn t str c => Sys2Proof.Machine.execCellOvWarn t str c s
  | .cellOvTrip t str c => Sys2Proof.Machine.execCellOvTrip t str c s
  | .cellUvWarn t str c => Sys2Proof.Machine.execCellUvWarn t str c s
  | .cellUvTrip t str c => Sys2Proof.Machine.execCellUvTrip t str c s
  | .pairSumTrip t str c => Sys2Proof.Machine.execPairSumTrip t str c s
  | .tempWarn t str q => Sys2Proof.Machine.execTempWarn t str q s
  | .tempTrip t str q => Sys2Proof.Machine.execTempTrip t str q s
  | .coldCharge t str q => Sys2Proof.Machine.execColdCharge t str q s
  | .tempInputFault t str q => Sys2Proof.Machine.execTempInputFault t str q s
  | .cellWarnRecover t str k n heldNs => Sys2Proof.Machine.execCellWarnRecover t str k n heldNs s
  | .ctcEnable t w str v => Sys2Proof.Machine.execCtcEnable t w str v s
  | .ctcClear t w str v => Sys2Proof.Machine.execCtcClear t w str v s
  | .prechargeFbClosed t str => Sys2Proof.Machine.execPrechargeFbClosed t str s
  | .mainFbClosed t str => Sys2Proof.Machine.execMainFbClosed t str s
  | .prechargeFbOpen t str => Sys2Proof.Machine.execPrechargeFbOpen t str s
  | .closeTimeout t str => Sys2Proof.Machine.execCloseTimeout t str s
  | .closeWaitRelease t str => Sys2Proof.Machine.execCloseWaitRelease t str s
  | .contactorCoilRelease t str x => Sys2Proof.Machine.execContactorCoilRelease t str x s
  | .contactorOpenDone t str => Sys2Proof.Machine.execContactorOpenDone t str s
  | .restWindowEnd t str => Sys2Proof.Machine.execRestWindowEnd t str s
  | .excitationBurst t str => Sys2Proof.Machine.execExcitationBurst t str s
  | .excitationEnd t str => Sys2Proof.Machine.execExcitationEnd t str s
  | .learnedJournal t str => Sys2Proof.Machine.execLearnedJournal t str s
  | .ctcShipEnter t w => Sys2Proof.Machine.execCtcShipEnter t w s
  | .shipStringsOff t => Sys2Proof.Machine.execShipStringsOff t s
  | .ctcShipExit t w => Sys2Proof.Machine.execCtcShipExit t w s
  | .shipExitComplete t => Sys2Proof.Machine.execShipExitComplete t s
  | .epochReconcile t => Sys2Proof.Machine.execEpochReconcile t s
  | .epochRootFormed t => Sys2Proof.Machine.execEpochRootFormed t s
  | .epochHeaderJournal t => Sys2Proof.Machine.execEpochHeaderJournal t s
  | .epochSealDone t => Sys2Proof.Machine.execEpochSealDone t s
  | .epochRelease t => Sys2Proof.Machine.execEpochRelease t s
  | .epochExport t sess => Sys2Proof.Machine.execEpochExport t sess s
  | .hmkAckWrite t w v => Sys2Proof.Machine.execHmkAckWrite t w v s
  | .hmkPolicyWrite t w v => Sys2Proof.Machine.execHmkPolicyWrite t w v s
  | .stageOpen t => Sys2Proof.Machine.execStageOpen t s
  | .stageClose t => Sys2Proof.Machine.execStageClose t s
  | .ringTrained t => Sys2Proof.Machine.execRingTrained t s
  | .cmisPoll t d c => Sys2Proof.Machine.execCmisPoll t d c s
  | .cmisReinit t d => Sys2Proof.Machine.execCmisReinit t d s
  | .jrjIdent t l f => Sys2Proof.Machine.execJrjIdent t l f s
  | .chainQuarantineRelease t => Sys2Proof.Machine.execChainQuarantineRelease t s
  | .jrjEcho t l f => Sys2Proof.Machine.execJrjEcho t l f s
  | .jrjTime t l f => Sys2Proof.Machine.execJrjTime t l f s
  | .rootTakeover t => Sys2Proof.Machine.execRootTakeover t s
  | .rootDisplace t => Sys2Proof.Machine.execRootDisplace t s
  | .jrjReport t l f => Sys2Proof.Machine.execJrjReport t l f s
  | .jrjStep t l f => Sys2Proof.Machine.execJrjStep t l f s
  | .jrjLimit t l f => Sys2Proof.Machine.execJrjLimit t l f s
  | .limitLeaseEnd t => Sys2Proof.Machine.execLimitLeaseEnd t s
  | .chnReident t w l => Sys2Proof.Machine.execChnReident t w l s
  | .jrjStageEnWrite t w v => Sys2Proof.Machine.execJrjStageEnWrite t w v s
  | .claspFrameSend c => Sys2Proof.Machine.execClaspFrameSend c s
  | .claspFrameRx t p f => Sys2Proof.Machine.execClaspFrameRx t p f s
  | .leaseExpire t => Sys2Proof.Machine.execLeaseExpire t s
  | .guardEnd t => Sys2Proof.Machine.execGuardEnd t s
  | .ownerHoldTimerExpire t => Sys2Proof.Machine.execOwnerHoldTimerExpire t s
  | .ownerLineStuck t asserted => Sys2Proof.Machine.execOwnerLineStuck t asserted s
  | .contestDetect t => Sys2Proof.Machine.execContestDetect t s
  | .contestEnd t => Sys2Proof.Machine.execContestEnd t s
  | .clpStuckClr t w => Sys2Proof.Machine.execClpStuckClr t w s
  | .clpHandover t w => Sys2Proof.Machine.execClpHandover t w s
  | .yieldFail t => Sys2Proof.Machine.execYieldFail t s
  | .listenEnd t => Sys2Proof.Machine.execListenEnd t s
  | .slotLinkIdent t p => Sys2Proof.Machine.execSlotLinkIdent t p s
  | .planMirror t g => Sys2Proof.Machine.execPlanMirror t g s
  | .journalMirrorRx t r => Sys2Proof.Machine.execJournalMirrorRx t r s
  | .journalResync t => Sys2Proof.Machine.execJournalResync t s
  | .slkResync t w => Sys2Proof.Machine.execSlkResync t w s
  | .resyncDone t => Sys2Proof.Machine.execResyncDone t s
  | .slkEnableWrite t w v => Sys2Proof.Machine.execSlkEnableWrite t w v s
  | .restorePatternLoaded t sig => Sys2Proof.Machine.execRestorePatternLoaded t sig s
  | .cameoRestore t => Sys2Proof.Machine.execCameoRestore t s
  | .estimatorsWarm t => Sys2Proof.Machine.execEstimatorsWarm t s
  | .peerAbsent t => Sys2Proof.Machine.execPeerAbsent t s
  | .slotLinkDown t => Sys2Proof.Machine.execSlotLinkDown t s
  | .claspWireFault t => Sys2Proof.Machine.execClaspWireFault t s
  | .nugenWatchdogExpire t => Sys2Proof.Machine.execNugenWatchdogExpire t s
  | .nugWdogKick t w v => Sys2Proof.Machine.execNugWdogKick t w v s
  | .nugCtlRestart t w => Sys2Proof.Machine.execNugCtlRestart t w s
  | .nugCtlSleep t w => Sys2Proof.Machine.execNugCtlSleep t w s
  | .standbyServiceTimeout t => Sys2Proof.Machine.execStandbyServiceTimeout t s
  | .tlsHandshake t h => Sys2Proof.Machine.execTlsHandshake t h s
  | .redfishRequest t sess q => Sys2Proof.Machine.execRedfishRequest t sess q s
  | .mbxPost t w n => Sys2Proof.Machine.execMbxPost t w n s
  | .mbxFetch t w n => Sys2Proof.Machine.execMbxFetch t w n s
  | .mbxAck t w n v => Sys2Proof.Machine.execMbxAck t w n v s
  | .mbxWdataWrite t w pg v => Sys2Proof.Machine.execMbxWdataWrite t w pg v s
  | .mbxRdataRead t w pg => Sys2Proof.Machine.execMbxRdataRead t w pg s
  | .doorbellPost t sess n m => Sys2Proof.Machine.execDoorbellPost t sess n m s
  | .doorbellFetch t sess n => Sys2Proof.Machine.execDoorbellFetch t sess n s
  | .doorbellAck t sess n code => Sys2Proof.Machine.execDoorbellAck t sess n code s
  | .cleCoefLoad t n => Sys2Proof.Machine.execCleCoefLoad t n s
  | .patternStage t o tag sig => Sys2Proof.Machine.execPatternStage t o tag sig s
  | .patternSwap t o tag bank => Sys2Proof.Machine.execPatternSwap t o tag bank s
  | .policyCommit t o tag r => Sys2Proof.Machine.execPolicyCommit t o tag r s
  | .standingPolicy t o tag r => Sys2Proof.Machine.execStandingPolicy t o tag r s
  | .limitOverride t o tag l => Sys2Proof.Machine.execLimitOverride t o tag l s
  | .wiringLoad t o tag p sig => Sys2Proof.Machine.execWiringLoad t o tag p sig s
  | .shipEnter t o tag => Sys2Proof.Machine.execShipEnter t o tag s
  | .shipExit t o tag => Sys2Proof.Machine.execShipExit t o tag s
  | .imageStage t o tag img => Sys2Proof.Machine.execImageStage t o tag img s
  | .imageActivate t o tag => Sys2Proof.Machine.execImageActivate t o tag s
  | .attest t o tag nonce => Sys2Proof.Machine.execAttest t o tag nonce s
  | .lcNonce t o tag => Sys2Proof.Machine.execLcNonce t o tag s
  | .lcTransition t o tag toward k => Sys2Proof.Machine.execLcTransition t o tag toward k s
  | .ownerEnroll t o tag k => Sys2Proof.Machine.execOwnerEnroll t o tag k s
  | .hmkKeygen t o tag => Sys2Proof.Machine.execHmkKeygen t o tag s
  | .serviceCmdComplete t => Sys2Proof.Machine.execServiceCmdComplete t s
  | .nonceExpire t => Sys2Proof.Machine.execNonceExpire t s
  | .signetJob t e => Sys2Proof.Machine.execSignetJob t e s
  | .trngHealthFail t => Sys2Proof.Machine.execTrngHealthFail t s
  | .trngRecover t good => Sys2Proof.Machine.execTrngRecover t good s
  | .bootRomVerify t a b => Sys2Proof.Machine.execBootRomVerify t a b s
  | .trialTimeout t => Sys2Proof.Machine.execTrialTimeout t s
  | .nugBootConfirm t w => Sys2Proof.Machine.execNugBootConfirm t w s
  | .nugBootActivate t w => Sys2Proof.Machine.execNugBootActivate t w s
  | .jnlRecordQueue t r => Sys2Proof.Machine.execJnlRecordQueue t r s
  | .pageProgram t => Sys2Proof.Machine.execPageProgram t s
  | .pageProgramDone t us => Sys2Proof.Machine.execPageProgramDone t us s
  | .jnlMount t bad => Sys2Proof.Machine.execJnlMount t bad s
  | .compactionStart t => Sys2Proof.Machine.execCompactionStart t s
  | .compactionCommit t => Sys2Proof.Machine.execCompactionCommit t s
  | .jnlCtlCompact t w => Sys2Proof.Machine.execJnlCtlCompact t w s
  | .jnlCtlEnable t w on => Sys2Proof.Machine.execJnlCtlEnable t w on s
  | .brownout t holdUs => Sys2Proof.Machine.execBrownout t holdUs s
  | .pocketDivert t holdUs => Sys2Proof.Machine.execPocketDivert t holdUs s
  | .auditJournalCopy t => Sys2Proof.Machine.execAuditJournalCopy t s
  | .cameoCapture t complete => Sys2Proof.Machine.execCameoCapture t complete s
  | .recorder1s t => Sys2Proof.Machine.execRecorder1s t s
  | .recorderDerive t => Sys2Proof.Machine.execRecorderDerive t s
  | .keepaliveInRange t v heldNs pocketOk => Sys2Proof.Machine.execKeepaliveInRange t v heldNs pocketOk s
  | .keepaliveLoss t v heldNs => Sys2Proof.Machine.execKeepaliveLoss t v heldNs s
  | .mainInRange t v heldNs => Sys2Proof.Machine.execMainInRange t v heldNs s
  | .mainLoss t v heldNs => Sys2Proof.Machine.execMainLoss t v heldNs s
  | .pulseDiePowerUp t slotId edges => Sys2Proof.Machine.execPulseDiePowerUp t slotId edges s
  | .pulseFwVerified t a b => Sys2Proof.Machine.execPulseFwVerified t a b s
  | .baseDiePowerUp t => Sys2Proof.Machine.execBaseDiePowerUp t s
  | .standbyEntry t => Sys2Proof.Machine.execStandbyEntry t s
  | .crystalFail t => Sys2Proof.Machine.execCrystalFail t s
  | .linPark t w => Sys2Proof.Machine.execLinPark t w s
  | .linUnpark t w => Sys2Proof.Machine.execLinUnpark t w s
  | .uartBreak t => Sys2Proof.Machine.execUartBreak t s
  | .linPdReset t w => Sys2Proof.Machine.execLinPdReset t w s
  | .linBaseWake t w => Sys2Proof.Machine.execLinBaseWake t w s
  | .coolingAirEntry t c => Sys2Proof.Machine.execCoolingAirEntry t c s
  | .coolingLiquidReturn t c heldNs => Sys2Proof.Machine.execCoolingLiquidReturn t c heldNs s
  | .pwrForceAir t w v => Sys2Proof.Machine.execPwrForceAir t w v s
  | .stackWake t d => Sys2Proof.Machine.execStackWake t d s
  | .liningReset t watchdog => Sys2Proof.Machine.execLiningReset t watchdog s
  | .pulseDieWatchdog t quietNs => Sys2Proof.Machine.execPulseDieWatchdog t quietNs s
  | .baseDieReset t cause => Sys2Proof.Machine.execBaseDieReset t cause s
  | .glbReset t w v => Sys2Proof.Machine.execGlbReset t w v s
  | .seamRecoverHandshake t pulseSide => Sys2Proof.Machine.execSeamRecoverHandshake t pulseSide s
  | .seamRecoverIndication t pulseSide level => Sys2Proof.Machine.execSeamRecoverIndication t pulseSide level s
  | .dinEdge t n level widthNs => Sys2Proof.Machine.execDinEdge t n level widthNs s
  | .dinFilteredChange t n level heldNs => Sys2Proof.Machine.execDinFilteredChange t n level heldNs s
  | .dinStuck t n => Sys2Proof.Machine.execDinStuck t n s
  | .pwrGoodChatterClear t => Sys2Proof.Machine.execPwrGoodChatterClear t s
  | .dinClr t w v => Sys2Proof.Machine.execDinClr t w v s
  | .registerWrite t w addr width v => Sys2Proof.Machine.execRegisterWrite t w addr width v s
  | .regWrite64Low t w addr v => Sys2Proof.Machine.execRegWrite64Low t w addr v s
  | .blkCtlEnable t w page v => Sys2Proof.Machine.execBlkCtlEnable t w page v s
  | .blkCtlQuiesce t w page v => Sys2Proof.Machine.execBlkCtlQuiesce t w page v s
  | .blkCtlSoftReset t w page v => Sys2Proof.Machine.execBlkCtlSoftReset t w page v s
  | .irqSetWrite t w page v => Sys2Proof.Machine.execIrqSetWrite t w page v s
  | .lockWrLock t w page v => Sys2Proof.Machine.execLockWrLock t w page v s
  | .eventPost t e => Sys2Proof.Machine.execEventPost t e s
  | .eventCoalesceEnd t => Sys2Proof.Machine.execEventCoalesceEnd t s
  | .evtClrLost t w v => Sys2Proof.Machine.execEvtClrLost t w v s
  | .audClrLost t w v => Sys2Proof.Machine.execAudClrLost t w v s
  | .pluggableOverclass t cage class01W => Sys2Proof.Machine.execPluggableOverclass t cage class01W s
  | .leverSwitchOpen t heldNs => Sys2Proof.Machine.execLeverSwitchOpen t heldNs s
  | .stitchStoreEccError t => Sys2Proof.Machine.execStitchStoreEccError t s
  | .chainLaneFecLock t l => Sys2Proof.Machine.execChainLaneFecLock t l s
  | .chainLaneFecLoss t l => Sys2Proof.Machine.execChainLaneFecLoss t l s
  | .rectAcReturn t back => Sys2Proof.Machine.execRectAcReturn t back s
  | .rectifierTelemetryRead t r q => Sys2Proof.Machine.execRectifierTelemetryRead t r q s
  | .burstCaptureEnd t p => Sys2Proof.Machine.execBurstCaptureEnd t p s
  | .journalMirrorAck t seq => Sys2Proof.Machine.execJournalMirrorAck t seq s
  | .peerJournalRecordRx t r => Sys2Proof.Machine.execPeerJournalRecordRx t r s
  | .vmChannelCycle t n => Sys2Proof.Machine.execVmChannelCycle t n s
  | .sessionClose t sess => Sys2Proof.Machine.execSessionClose t sess s
  | .computeDieOvertemp t d => Sys2Proof.Machine.execComputeDieOvertemp t d s

end Sys2Proof.Machine
end

