-- ==== Sys2Proof/Machine/Flags.lean ====
section
/-!
DEFINITION. What a read of a register returns (R427 to R440): the header, the status words that the spec composes from other state,
the windows onto the rings, and the access rules of reads. Only MBX_RDATA has a row of its own in the opcode table for its read;
`State.read32` and `State.read64` say what a read answers and what it leaves behind.
-/
namespace Sys2Proof.Machine

/-! ## Status words -/

/-- GLB_STS (R446). -/
def State.glbSts (s : State) : Nat :=
  s.powerState + 4 * b2n s.isOwner + 8 * b2n s.pw.air + 16 * b2n (s.blk seqPg = stRunning) + 32 * b2n (s.bit Reg.PLS_STS 3) +
    64 * lcCode s.lc

/-- TIM_STS (R447). -/
def State.timSts (s : State) : Nat :=
  s.time.tstate.code + 8 * s.time.unc.toNat + 32 * sourceCode s.time.source + 128 * b2n (s.bit Reg.JRJ_STS 2) +
    256 * b2n s.time.disagree + 512 * b2n s.time.fault

/-- PTB_STS (R193). -/
def State.ptbSts (s : State) : Nat :=
  b2n s.prt.pll + 2 * s.time.tstate.code + 16 * s.time.unc.toNat + 64 * b2n s.time.slewing + 128 * b2n (s.reg Reg.PTB_STEP ≠ 0)

/-- PLS_STS (R236): OWNER, PEER_OWNER, BASE_UP and the strings in service beside the bits that the register holds. -/
def State.plsSts (s : State) : Nat :=
  (s.reg Reg.PLS_STS &&& 0xF8) + b2n s.isOwner + 2 * b2n s.clp.peerLine + 4 * b2n s.baseUp + 256 * b2n (s.strSvc 0) +
    512 * b2n (s.strSvc 1)

/-- LCS_OPEN (R378, R380). -/
def State.lcsOpen (s : State) : Nat :=
  b2n (lcJtag s.lc) + 2 * b2n (lcUartFull s.lc) + 4 * b2n (lcRwl s.lc) + 8 * b2n (lcErrInj s.lc) + 16 * b2n (lcOwn s.lc) +
    256 * lcSigners s.lc

/-- EVT_STS and AUD_STS (R445, R448): the pulse-die buffer is not empty; records were lost. -/
def State.evtSts (s : State) : Nat := b2n (!s.evt.pd.isEmpty) + 2 * b2n (s.reg Reg.EVT_LOST ≠ 0)
def State.audSts (s : State) : Nat := b2n (!s.aud.pd.isEmpty) + 2 * b2n (s.reg Reg.AUD_LOST ≠ 0)

/-- A word of EVT_IRQ_SUM (R445): bit n while page n asserts its interrupt. -/
def State.irqSum (s : State) (word : Nat) : Nat :=
  ((List.range 32).filter (fun i => pageAllocated (32 * word + i) && s.irqAsserted (32 * word + i))).foldl (fun a i => a + 2 ^ i) 0

/-! ## The rings' windows (R445, R448) -/

/-- The entry at a ring index: the ring's newest entry lies at (HEAD - 1) mod the ring's size. -/
def ringAt {α : Type} (ring : List α) (size head sel : Nat) : Option α :=
  let age := (head + size - 1 - sel % size) % size
  if age < ring.length then ring[ring.length - 1 - age]? else none

/-- A word of EVT_DATA. -/
def State.evtData (s : State) (word : Nat) : Nat :=
  match ringAt s.evt.ring 4096 (s.reg Reg.EVT_HEAD) (s.fld Reg.EVT_SEL 0 12) with
  | some e => ofLe (((evBytes e).drop (4 * word)).take 4)
  | none => 0

/-- A word of AUD_DATA. -/
def State.audData (s : State) (word : Nat) : Nat :=
  match ringAt s.aud.ring 8192 (s.reg Reg.AUD_HEAD) (s.fld Reg.AUD_SEL 0 13) with
  | some e => ofLe (((audBytes e).drop (4 * word)).take 4)
  | none => 0

/-! ## The header (R433, R434) -/

/-- BLK_ID of a page. -/
def blkId (page : Nat) : Nat := 65536 * (blockOf page).1 + 256 * (blockOf page).2 + 1

/-- BLK_CAP of a page: five bits of IRQ_STS are implemented on every page (R439, log 47). -/
def State.blkCap (s : State) (page : Nat) : Nat :=
  if pagePresent s.fx page then 5 + 64 * b2n (hasErrInj page) + 128 + 256 else 0

/-! ## Reads -/

/-- Registers that show a measurement which no event of the table brings (log 48). -/
def isMeasured (a : Nat) : Bool :=
  a = Reg.PWR_ICORE || a = Reg.PWR_ICORE_MAX || a = Reg.PWR_INPUT || a = Reg.LIN_RET_V || a = Reg.LIN_RTC ||
  (0x58 ≤ a / 4096 && a / 4096 < 0x5C && a % 4096 = 0x114)

/-- The coefficient at CLE_WADDR (R215). -/
def State.cleWdata (s : State) : Nat := s.coef (s.fld Reg.CLE_WADDR 0 6) (s.bit Reg.CLE_WADDR 6) (s.fld Reg.CLE_WADDR 7 7)

/-- The value of a fitted page's register, by its row. -/
def State.regView (s : State) (p : Path) (a : Nat) (r : RegRow) : Nat :=
  let page := a / 4096
  let off := a % 4096
  if off = 0 then blkId page
  else if off = 4 then s.blkCap page
  else if off = 0x28 then s.fld (Reg.LOCK page) 0 1 + 2 * b2n (lcRwl s.lc)
  else if a = Reg.GLB_STS then s.glbSts
  else if a = Reg.GLB_UPTIME then (s.now - s.reg Reg.NUG_BOOT_STAMP) / 1000000
  else if a = Reg.TIM_STS then s.timSts
  else if a = Reg.TIM_NOW || a = Reg.PTB_TIME then s.now
  else if a = Reg.PTB_PULSE then s.now / 4000
  else if a = Reg.EVT_STS then s.evtSts
  else if page = 2 && 0x120 ≤ off && off < 0x140 then s.evtData ((off - 0x120) / 4)
  else if page = 2 && 0x180 ≤ off && off < 0x1A4 then s.irqSum ((off - 0x180) / 4)
  else if a = Reg.AUD_STS then s.audSts
  else if a = Reg.AUD_PD_FILL then s.aud.pd.length
  else if page = 3 && 0x120 ≤ off && off < 0x140 then s.audData ((off - 0x120) / 4)
  else if a = Reg.LCS_STATE then lcCode s.lc
  else if a = Reg.LCS_OPEN then s.lcsOpen
  else if a = Reg.PTB_STS then s.ptbSts
  else if a = Reg.PLS_STS then s.plsSts
  else if a = Reg.CLE_WDATA then s.cleWdata
  else if a = Reg.BDS_BAL_REQ_AGE then min ((s.now - (s.loop[0]).balWritten) / 1000000) (2 ^ 32 - 1)
  else if h : 0x90 ≤ page ∧ page < 0x94 ∧ (off = 0x800 ∨ off = 0x808) then
    let pg : Fin 4 := ⟨page - 0x90, by omega⟩
    if off = 0x800 then (s.mbx.dsel[dselIdx pg p]).toNat else s.rdata p pg
  else if isMeasured a then Config.measured a s.now
  else s.reg a &&& ((2 ^ 64 - 1) ^^^ (r.w1s ||| r.wo))

/-- May a path read a page (R429)? -/
def pathReads (s : State) (p : Path) (page : Nat) : Bool :=
  match p with
  | .nugen => s.baseUp
  | .mgmt => s.baseUp
  | .slot => s.basePowered
  | .uart => s.lc != .void
  | .jtag => lcJtag s.lc
  | .mbp => isMbxPage page
  | .lining => onPulseDie page

/-- Is a page there to be read: allocated, its die up (R428, R432)? -/
def State.pageReadable (s : State) (page : Nat) : Bool :=
  pageAllocated page && (if onPulseDie page then s.pulseUp else s.basePowered)

/-- A read of 32 or 64 bits at a window address: none is an error response (R428, R430, R432); a reserved offset and an absent unit
read 0. -/
def State.readReg (s : State) (p : Path) (a width : Nat) : Option Nat :=
  let page := a / 4096
  let off := a % 4096
  if !s.pageReadable page || !pathReads s p page then none
  else if width = 64 then
    match findRow page off with
    | some r => if r.wide && off % 8 = 0 then some (if pagePresent s.fx page || off < 0x100 then s.regView p a r else 0) else none
    | none => none
  else if width = 32 && off % 4 = 0 then
    match findRow page off with
    | some r => some (if pagePresent s.fx page || off < 0x100 then s.regView p a r % 2 ^ 32 else 0)
    | none =>
      match findHigh page off with
      | some r => some (if pagePresent s.fx page || off < 0x108 then s.regView p (a - 4) r / 2 ^ 32 else 0)
      | none => some 0
  else none

/-- The high word that a path's read of the low word latched, if it is that of this register (R430). -/
def State.latchedHigh (s : State) (p : Path) (a : Nat) : Option Nat :=
  match sparseFind s.aud.latched (pathCode p) with
  | some (k, x) => if k = a then some x.toNat else none
  | none => none

/-- A 32-bit read with what it leaves behind: the low word of a 64-bit register latches its high word for the path, whose read
answers it (R430); CLE_WDATA advances CLE_WADDR (R215); MBX_RDATA advances MBX_DSEL (R380). -/
def State.read32 (s : State) (p : Path) (a : Nat) : State × Option Nat :=
  match s.readReg p a 32 with
  | none => (s, none)
  | some v =>
    match s.latchedHigh p (a - 4), findHigh (a / 4096) (a % 4096) with
    | some x, some _ => (s, some x)
    | _, _ =>
      let wide := match findRow (a / 4096) (a % 4096) with
        | some r => r.wide
        | none => false
      let s := if wide then
          let hi := BitVec.ofNat 32 (((s.readReg p a 64).getD 0) / 2 ^ 32)
          { s with aud := { s.aud with latched := sparseIns (sparseErase s.aud.latched (pathCode p)) (pathCode p) (a, hi) } }
        else s
      let s := if a = Reg.CLE_WDATA then s.setFld Reg.CLE_WADDR 7 7 ((s.fld Reg.CLE_WADDR 7 7 + 1) % 128) else s
      if h : 0x90 ≤ a / 4096 ∧ a / 4096 < 0x94 ∧ a % 4096 = 0x808 then (s.dselAdvance ⟨a / 4096 - 0x90, by omega⟩ p, some v)
      else (s, some v)

/-- A 64-bit read. -/
def State.read64 (s : State) (p : Path) (a : Nat) : Option Nat := s.readReg p a 64

end Sys2Proof.Machine
end

