-- ==== Sys2Proof/WellFormed.lean ====
section
/-!
DEFINITION. Which command terms stand for a command that can arrive: operands of the length and range that the spec gives the
thing they carry. `step` asks for none of these: a command that is not well formed cannot arrive, and its meaning is what its
definition makes of it.
-/
namespace Sys2Proof

/-- A flit of Strand or a frame of Chain has 256 bytes (R152, R316). -/
def wfFlit (f : FlitIn) : Bool := f.bytes.length == 256

/-- The sense of a pulse period covers the four voltage-mode channels and the 48 bricks (R192, R216, R277). -/
def wfSense (h : Sense) : Bool := h.vout.length == 4 && h.iout.length == 4 && h.m2.length == 48 && h.mean.length == 48

/-- A plan frame's input covers both strings, and no endpoint twice (R176, R180). -/
def wfPlan (p : PlanIn) : Bool := p.strs.length == 2 && decide ((p.eps.map (fun e => e.ep)).Nodup)

/-- A window access touches one granule or a part of it (R110). -/
def wfWindow (q : WinReq) : Bool :=
  let n := match q.data with
    | some l => l.length
    | none => q.len
  decide (1 ≤ n) && decide (q.addr % 64 + n ≤ 64)

/-- Temperatures cover the four compute dies and at most four DIMMs (R412). -/
def wfTemp (c : TempIn) : Bool := c.compute.length == 4 && decide (c.dimm.length ≤ 4)

/-- A cable's poll covers both its lanes (R311). -/
def wfCmis (c : CmisIn) : Bool := c.rxPwr.length == 2 && c.flags.length == 2 && c.asym.length == 2

/-- A journal payload has at most 16,352 bytes (R382). -/
def wfPayload (n : Nat) : Bool := decide (n ≤ 16352)

/-- A journal record's payload and stamp fit their fields (R382). -/
def wfRec (r : JRec) : Bool := wfPayload r.payload.length && decide (r.ty < 2 ^ 16) && decide (r.seq < 2 ^ 64) && decide (r.stamp < 2 ^ 64)

/-- A record to be journalled. -/
def wfNew (r : JNew) : Bool := wfPayload r.payload.length && decide (r.ty < 2 ^ 16)

/-- An event's code is one that R443 names or a Pattern's (R441, R443). -/
def wfEvent (e : EventIn) : Bool := e.code != 0#16

/-- A Redfish write carries a payload that a record can hold (R355). -/
def wfRedfish (q : RedfishReq) : Bool :=
  match q.ask with
  | .write _ (.policyCommit r) => wfPayload r.length
  | .write _ (.standingPolicy r) => wfPayload r.length
  | .write _ (.wiringLoad p _) => wfPayload p.length
  | _ => true

/-- A physical address has 40 bits (R427). -/
def wfAddr (a : Nat) : Bool := decide (a < 2 ^ 40)

/-- An access has a width of 8 to 64 bits and a value that it can carry (R430). -/
def wfWidth (width v : Nat) : Bool := [8, 16, 32, 64].contains width && decide (v < 2 ^ width)

/-- Is a command well formed? -/
def WellFormed (i : Instr) : Bool :=
  match i with
  | .pulsePeriodBoundary h => wfSense h
  | .stepReaddSecond .. => true
  | .deferredRotation .. => true
  | .controlFrameBoundary => true
  | .planFrameBoundary p => wfPlan p
  | .epochBoundary => true
  | .holdoverEnter .. => true
  | .baseDieLossSignal .. => true
  | .holdoverExit .. => true
  | .holdoverFloor .. => true
  | .referenceHandoffArrive _ g _ => g.length == 64
  | .planBufferArrive _ g => g.length == 576
  | .setpointLineFail .. => true
  | .setpointLineRestore .. => true
  | .rectifierAdmission .. => true
  | .rectAcLoss .. => true
  | .slotIdChange .. => true
  | .peerOrderMismatch .. => true
  | .ptpMessageRx .. => true
  | .timeDisagree .. => true
  | .timeSourceLost .. => true
  | .holdoverUncRaise .. => true
  | .timeSourceReturn .. => true
  | .timeOffsetLock .. => true
  | .clockStepApply .. => true
  | .ptbStepWrite .. => true
  | .ptbSlewWrite .. => true
  | .pllUnlock .. => true
  | .pllRelock .. => true
  | .stitchFrameEnd .. => true
  | .stitchTrace .. => true
  | .stitchAwake .. => true
  | .catchupBodyStart .. => true
  | .seqLoadGo .. => true
  | .seqLoadCheckOnly .. => true
  | .loaderDone .. => true
  | .seqSwapGo .. => true
  | .swapTakeEffect .. => true
  | .coldSwapStart .. => true
  | .seqSwapRelease .. => true
  | .seqWarmWrite .. => true
  | .warmStageDone .. => true
  | .residueMismatch .. => true
  | .vecFault .. => true
  | .warmVariantSwitch .. => true
  | .variantCopyDone .. => true
  | .variantRestart .. => true
  | .seqFailedWrite .. => true
  | .coolingVariantSwitch .. => true
  | .clockStretch _ cycles => decide (cycles ≤ 256)
  | .seqRearmRestart .. => true
  | .mbpPost .. => true
  | .mbpFetch .. => true
  | .mbpAck .. => true
  | .macWload .. => true
  | .macStream .. => true
  | .macDrain .. => true
  | .errInjResFlip .. => true
  | .errInjAccFlip .. => true
  | .errInjRadInf .. => true
  | .vecAdd .. => true
  | .vecSub .. => true
  | .vecMul .. => true
  | .vecFma .. => true
  | .vecMax .. => true
  | .vecMin .. => true
  | .vecCvt .. => true
  | .vecTab .. => true
  | .vecRsum .. => true
  | .vecRmax .. => true
  | .vecScale .. => true
  | .vecMove .. => true
  | .vecPackMx .. => true
  | .vecAbs .. => true
  | .fftLoad .. => true
  | .fftXform .. => true
  | .fftStore .. => true
  | .qpeLoad .. => true
  | .qpeIter .. => true
  | .qpeStore .. => true
  | .estPredict .. => true
  | .estUpdate .. => true
  | .mrgMerge .. => true
  | .intSpans .. => true
  | .intAcc .. => true
  | .intRead .. => true
  | .intCoef .. => true
  | .hstAcc .. => true
  | .hstRead .. => true
  | .splTable .. => true
  | .splEval1 .. => true
  | .splEval2 .. => true
  | .selTopk .. => true
  | .selQuant .. => true
  | .hshLeaf .. => true
  | .hshNode .. => true
  | .dmaCopy .. => true
  | .dmaGather .. => true
  | .dmaScatter .. => true
  | .dmaTileIn .. => true
  | .dmaTileOut .. => true
  | .dmaMrRead .. => true
  | .dmaMrWrite .. => true
  | .dmaAsyncDone .. => true
  | .ingCopy .. => true
  | .egrRef .. => true
  | .egrPlan .. => true
  | .egrStrand .. => true
  | .egrChain .. => true
  | .egrSlot .. => true
  | .windowAccess _ q => wfWindow q
  | .shmScrubRead .. => true
  | .shmScrubWriteback .. => true
  | .frMoverPlace .. => true
  | .frSlotDeadline .. => true
  | .frTrigger .. => true
  | .frFreeze .. => true
  | .frCtlTrigger .. => true
  | .frCtlUnfreeze .. => true
  | .frCtlEnable .. => true
  | .frExport .. => true
  | .ddcTraining _ d => d.length == 4
  | .ddcPatrolScrub .. => true
  | .strandFecLock .. => true
  | .strandIdent _ _ f => wfFlit f
  | .strandIdentRetry .. => true
  | .strandIdentTimeout .. => true
  | .admissionSlot => true
  | .strReident .. => true
  | .strBurstGo .. => true
  | .strandFecLoss .. => true
  | .endpointLeaseLapse .. => true
  | .strandTelem _ _ f => wfFlit f
  | .strandRaildesc _ _ f => wfFlit f
  | .strandTimeRpt _ _ f => wfFlit f
  | .strandStatus _ _ f => wfFlit f
  | .strandIntent _ _ f => wfFlit f
  | .intentTreat .. => true
  | .intentBarExpire .. => true
  | .strandSpan _ _ f => wfFlit f
  | .strandBurst _ _ f => wfFlit f
  | .policyRecordEffect .. => true
  | .policyLeaseEnd .. => true
  | .trayAlertActive .. => true
  | .trayAlertRelease .. => true
  | .plsFloorForceWrite .. => true
  | .plsFloorAllForce .. => true
  | .brickTurnOn .. => true
  | .brickBlankEnd .. => true
  | .brickThresholdCross .. => true
  | .brickCbcLimit .. => true
  | .brickMaxOn .. => true
  | .brickHardLimit .. => true
  | .brickPersistentLimit .. => true
  | .brickAlertFault .. => true
  | .pcmEnable .. => true
  | .pcmExclude .. => true
  | .pcmClear .. => true
  | .brickStopDone .. => true
  | .pleatRotation .. => true
  | .pltMapWrite .. => true
  | .shedStart .. => true
  | .shedStep .. => true
  | .shedHoldoffEnd .. => true
  | .cleInstanceSample .. => true
  | .cleDeadlineFault .. => true
  | .cleSwapWrite .. => true
  | .cleBankSwap .. => true
  | .cleWdataWrite .. => true
  | .cleRecordWrite .. => true
  | .vmcEnable .. => true
  | .vmcTargetMode .. => true
  | .vmcClear .. => true
  | .vmcInRegulation .. => true
  | .vmcTimeout .. => true
  | .vmcShort .. => true
  | .vmcHiccupEnd .. => true
  | .vmcRetryReset .. => true
  | .vmcStopDone .. => true
  | .govRowWrite .. => true
  | .busOvWarn .. => true
  | .busOvTrip .. => true
  | .busUvWarn .. => true
  | .busUvTrip .. => true
  | .stringOcWarn .. => true
  | .stringOcTrip .. => true
  | .tripContactorOpen .. => true
  | .contactorFbMismatch .. => true
  | .protWarnRecover .. => true
  | .prtClr .. => true
  | .ownerLost .. => true
  | .beadWake .. => true
  | .beadSleep .. => true
  | .beadAddr _ _ serials => serials.length == 15
  | .beadConfig .. => true
  | .beadSettle .. => true
  | .beadMeas .. => true
  | .beadRead .. => true
  | .beadBal .. => true
  | .beadOwt .. => true
  | .beadForce .. => true
  | .beadDiag .. => true
  | .beadReplyRx .. => true
  | .stringSumMismatch .. => true
  | .hopFail .. => true
  | .hopProbe .. => true
  | .loopCloseRestore .. => true
  | .beadLoss .. => true
  | .cadenceSlow .. => true
  | .bdsBalReqWrite .. => true
  | .balReqLapse .. => true
  | .bdsBalForceWrite .. => true
  | .beadSwitchFault .. => true
  | .deviationEval _ _ _ d => d.length == 16
  | .bdsOwtGo .. => true
  | .owtResult .. => true
  | .unresolvedRetest .. => true
  | .bdsClr .. => true
  | .cellOvWarn .. => true
  | .cellOvTrip .. => true
  | .cellUvWarn .. => true
  | .cellUvTrip .. => true
  | .pairSumTrip .. => true
  | .tempWarn .. => true
  | .tempTrip .. => true
  | .coldCharge .. => true
  | .tempInputFault .. => true
  | .cellWarnRecover .. => true
  | .ctcEnable .. => true
  | .ctcClear .. => true
  | .prechargeFbClosed .. => true
  | .mainFbClosed .. => true
  | .prechargeFbOpen .. => true
  | .closeTimeout .. => true
  | .closeWaitRelease .. => true
  | .contactorCoilRelease .. => true
  | .contactorOpenDone .. => true
  | .restWindowEnd .. => true
  | .excitationBurst .. => true
  | .excitationEnd .. => true
  | .learnedJournal .. => true
  | .ctcShipEnter .. => true
  | .shipStringsOff .. => true
  | .ctcShipExit .. => true
  | .shipExitComplete .. => true
  | .epochReconcile .. => true
  | .epochRootFormed .. => true
  | .epochHeaderJournal .. => true
  | .epochSealDone .. => true
  | .epochRelease .. => true
  | .epochExport .. => true
  | .hmkAckWrite .. => true
  | .hmkPolicyWrite .. => true
  | .stageOpen .. => true
  | .stageClose .. => true
  | .ringTrained .. => true
  | .cmisPoll _ _ c => wfCmis c
  | .cmisReinit .. => true
  | .jrjIdent _ _ f => wfFlit f
  | .chainQuarantineRelease .. => true
  | .jrjEcho _ _ f => wfFlit f
  | .jrjTime _ _ f => wfFlit f
  | .rootTakeover .. => true
  | .rootDisplace .. => true
  | .jrjReport _ _ f => wfFlit f
  | .jrjStep _ _ f => wfFlit f
  | .jrjLimit _ _ f => wfFlit f
  | .limitLeaseEnd .. => true
  | .chnReident .. => true
  | .jrjStageEnWrite .. => true
  | .claspFrameSend .. => true
  | .claspFrameRx .. => true
  | .leaseExpire .. => true
  | .guardEnd .. => true
  | .ownerHoldTimerExpire .. => true
  | .ownerLineStuck .. => true
  | .contestDetect .. => true
  | .contestEnd .. => true
  | .clpStuckClr .. => true
  | .clpHandover .. => true
  | .yieldFail .. => true
  | .listenEnd .. => true
  | .slotLinkIdent .. => true
  | .planMirror _ g => g.length == 576
  | .journalMirrorRx _ r => wfRec r
  | .journalResync .. => true
  | .slkResync .. => true
  | .resyncDone .. => true
  | .slkEnableWrite .. => true
  | .restorePatternLoaded .. => true
  | .cameoRestore .. => true
  | .estimatorsWarm .. => true
  | .peerAbsent .. => true
  | .slotLinkDown .. => true
  | .claspWireFault .. => true
  | .nugenWatchdogExpire .. => true
  | .nugWdogKick .. => true
  | .nugCtlRestart .. => true
  | .nugCtlSleep .. => true
  | .standbyServiceTimeout .. => true
  | .tlsHandshake .. => true
  | .redfishRequest _ _ q => wfRedfish q
  | .mbxPost .. => true
  | .mbxFetch .. => true
  | .mbxAck .. => true
  | .mbxWdataWrite .. => true
  | .mbxRdataRead .. => true
  | .doorbellPost .. => true
  | .doorbellFetch .. => true
  | .doorbellAck .. => true
  | .cleCoefLoad .. => true
  | .patternStage .. => true
  | .patternSwap .. => true
  | .policyCommit _ _ _ r => wfPayload r.length
  | .standingPolicy _ _ _ r => wfPayload r.length
  | .limitOverride .. => true
  | .wiringLoad _ _ _ p _ => wfPayload p.length
  | .shipEnter .. => true
  | .shipExit .. => true
  | .imageStage .. => true
  | .imageActivate .. => true
  | .attest .. => true
  | .lcNonce .. => true
  | .lcTransition .. => true
  | .ownerEnroll .. => true
  | .hmkKeygen .. => true
  | .serviceCmdComplete .. => true
  | .nonceExpire .. => true
  | .signetJob .. => true
  | .trngHealthFail .. => true
  | .trngRecover .. => true
  | .bootRomVerify .. => true
  | .trialTimeout .. => true
  | .nugBootConfirm .. => true
  | .nugBootActivate .. => true
  | .jnlRecordQueue _ r => wfNew r
  | .pageProgram .. => true
  | .pageProgramDone .. => true
  | .jnlMount .. => true
  | .compactionStart .. => true
  | .compactionCommit .. => true
  | .jnlCtlCompact .. => true
  | .jnlCtlEnable .. => true
  | .brownout .. => true
  | .pocketDivert .. => true
  | .auditJournalCopy .. => true
  | .cameoCapture .. => true
  | .recorder1s .. => true
  | .recorderDerive .. => true
  | .keepaliveInRange .. => true
  | .keepaliveLoss .. => true
  | .mainInRange .. => true
  | .mainLoss .. => true
  | .pulseDiePowerUp .. => true
  | .pulseFwVerified .. => true
  | .baseDiePowerUp .. => true
  | .standbyEntry .. => true
  | .crystalFail .. => true
  | .linPark .. => true
  | .linUnpark .. => true
  | .uartBreak .. => true
  | .linPdReset .. => true
  | .linBaseWake .. => true
  | .coolingAirEntry _ c => wfTemp c
  | .coolingLiquidReturn _ c _ => wfTemp c
  | .pwrForceAir .. => true
  | .stackWake .. => true
  | .liningReset .. => true
  | .pulseDieWatchdog .. => true
  | .baseDieReset .. => true
  | .glbReset .. => true
  | .seamRecoverHandshake .. => true
  | .seamRecoverIndication .. => true
  | .dinEdge .. => true
  | .dinFilteredChange .. => true
  | .dinStuck .. => true
  | .pwrGoodChatterClear .. => true
  | .dinClr .. => true
  | .registerWrite _ _ addr width v => wfAddr addr && wfWidth width v.toNat
  | .regWrite64Low _ _ addr _ => wfAddr addr
  | .blkCtlEnable .. => true
  | .blkCtlQuiesce .. => true
  | .blkCtlSoftReset .. => true
  | .irqSetWrite .. => true
  | .lockWrLock .. => true
  | .eventPost _ e => wfEvent e
  | .eventCoalesceEnd .. => true
  | .evtClrLost .. => true
  | .audClrLost .. => true
  | .pluggableOverclass .. => true
  | .leverSwitchOpen .. => true
  | .stitchStoreEccError .. => true
  | .chainLaneFecLock .. => true
  | .chainLaneFecLoss .. => true
  | .rectAcReturn .. => true
  | .rectifierTelemetryRead .. => true
  | .burstCaptureEnd .. => true
  | .journalMirrorAck .. => true
  | .peerJournalRecordRx _ r => wfNew r
  | .vmChannelCycle .. => true
  | .sessionClose .. => true
  | .computeDieOvertemp .. => true

end Sys2Proof
end

