-- ==== Sys2Proof/Safety.lean ====
section
/-!
DEFINITION. What counts as a safe state and a safe step: the canonical forms that make equal contents equal data, the registers that
the spec hard-wires, and the time that never runs back.
-/
namespace Sys2Proof.Machine

/-- The register table is in its canonical form: addresses strictly rising, no entry equal to the register's reset value. -/
abbrev State.regsWf (s : State) : Prop := sparseWf (regDefault s.fx) s.regs = true

/-- The memory is in its canonical form. -/
abbrev State.memWf (s : State) : Prop := Memory.wf s.mem

/-- The rings and buffers hold no more than the spec gives them (R39, R442). -/
abbrev State.ringsWf (s : State) : Prop :=
  s.evt.ring.length ≤ 4096 ∧ s.evt.pd.length ≤ 128 ∧ s.aud.ring.length ≤ 8192 ∧ s.aud.pd.length ≤ 256

/-! ## Answers and frames -/

/-- The outcome is a next state of which `P` holds. -/
def answers (o : Host.Outcome State Fault Refusal) (P : State → Prop) : Prop := ∃ t, o = .next t ∧ P t

/-- The registers that an event posted by a page, or a rise of its interrupt, may move besides its own effect: the page's IRQ_STS and
LAST_EVT_STAMP, the ring's HEAD and LOST with their page's IRQ_STS, the journal's SEQ for the Pocket, and the registers of
mailbox 40 with Nugen's wake for a notice (R439, R442, R444). -/
def eventReg (page a : Nat) : Bool :=
  a == Reg.IRQ_STS page || a == Reg.LAST_EVT_STAMP page || a == Reg.EVT_HEAD || a == Reg.EVT_LOST || a == Reg.IRQ_STS 2 ||
  a == Reg.JNL_SEQ || a == Reg.NUG_STS || (decide (0x92300 ≤ a) && decide (a < 0x92340))

/-- Every register keeps its value but those listed and those that an event of the page moves. -/
def regsKept (page : Nat) (l : List Nat) (s t : State) : Prop :=
  ∀ a, a ∉ l → eventReg page a = false → t.reg a = s.reg a

/-- The same where several pages post events or raise interrupts. -/
def regsKeptP (pages l : List Nat) (s t : State) : Prop :=
  ∀ a, a ∉ l → (∀ p ∈ pages, eventReg p a = false) → t.reg a = s.reg a

/-- Every register keeps its value but those listed. -/
def regsKeptOnly (l : List Nat) (s t : State) : Prop := ∀ a, a ∉ l → t.reg a = s.reg a

/-- Every byte of memory reads as before. -/
def memKept (s t : State) : Prop := ∀ a, t.byte a = s.byte a

/-- The registers that the judgement of a register write on a page may move besides the write's own effect: the page's WR_SEQ and
IRQ_STS, the audit ring's HEAD and LOST, GLB_WR_REJ and GLB_DECODE_ERR, the IRQ_STS of those pages, and what a notice moves
(R37 to R39, R440, R446). -/
def writeReg (page a : Nat) : Bool :=
  a == Reg.WR_SEQ page || a == Reg.IRQ_STS page || a == Reg.AUD_HEAD || a == Reg.AUD_LOST || a == Reg.IRQ_STS 3 ||
  a == Reg.GLB_WR_REJ || a == Reg.GLB_DECODE_ERR || a == Reg.IRQ_STS 0 || a == Reg.NUG_STS ||
  (decide (0x92300 ≤ a) && decide (a < 0x92340))

/-- Every register keeps its value but those listed, those that the judgement of a write on the page moves, and those that an event
of the page moves. -/
def regsKeptW (page : Nat) (l : List Nat) (s t : State) : Prop :=
  ∀ a, a ∉ l → writeReg page a = false → eventReg page a = false → t.reg a = s.reg a

/-- The access rules of R428 to R440 admit a write of `width` bits of `v` at address `a`: it reaches the register and no page, path,
lock, width or reserved bit turns it away. The register's own range rule is judged after it. -/
def admits (s : State) (w : Writer) (a width v : Nat) : Bool :=
  match judge s w a width v with
  | .take b x _ _ => b == a && x == v
  | _ => false

/-- A writer's path reaches the registers of a page: the path arrives, the page is allocated and its unit fitted, the path may write
it, and a pulse-die page is up (R428, R429, R432, R433). -/
def reaches (s : State) (w : Writer) (page : Nat) : Bool :=
  pathArrives s w page && pageAllocated page && pathWrites s w page && pagePresent s.fx page &&
  (!onPulseDie page || pulsePageUp s w page)

/-- The newest entry of one of the audit's rings is that of this write (R38). -/
def audited (s u : State) (w : Writer) (a v : Nat) (wide rejected : Bool) (wrSeq : Nat) : Prop :=
  ∃ e : AudRec, (if onPulseDie (a / 4096) then u.aud.pd.getLast? = some e else u.aud.ring.getLast? = some e) ∧
    e.stamp.toNat = u.now % 2 ^ 64 ∧ e.src.toNat = writerSrc w % 2 ^ 16 ∧ e.path.toNat = pathCode w.path ∧
    e.qual = s.qual ∧ e.addr.toNat = a % 2 ^ 32 ∧ e.value.toNat = v % 2 ^ 64 ∧ e.wide = wide ∧ e.rejected = rejected ∧
    e.wrSeq.toNat = wrSeq % 2 ^ 32

/-- The page has posted an event now (R438). -/
def posted (page : Nat) (t : State) : Prop := t.reg (Reg.LAST_EVT_STAMP page) = t.now % 2 ^ 64

end Sys2Proof.Machine
end

