-- ==== Sys2Proof/Certificates/Slice0/Obligations.lean ====
section
/-!
DEFINITION. The statements about the module for the provers. `answers o P` says that the outcome `o` is a next state of which `P` holds;
`posted p u` that page p has posted an event now; the frames `regsKept`, `regsKeptW`, `regsKeptOnly` and `memKept` name the registers that
may move, and no byte of memory moves but where a statement says so.
-/

open Sys2Proof Sys2Proof.Machine

/-! ## The queue, the outcome and the state at reset -/

/-- One step takes the command at the front of the queue and does it on the state with the queue's rest.
With no command waiting the module idles (DESIGN CHOICE, log 11). -/
def Obligations.StepTakesTheFrontOfTheQueue : Prop :=
  (∀ (c : Instr) (rest : List Instr) (s : State), s.pending = c :: rest → step s = exec c { s with pending := rest }) ∧
  (∀ s : State, s.pending = [] → step s = .next s) ∧
  (∀ (s : State) (nbits w : Nat), s.withFetchWord nbits w = s)

/-- Every command, in every state and with every operand, answers a next state: nothing faults and nothing is refused. It leaves the
queue and the factory values alone, and time runs back only by CLOCK_STEP_APPLY (log 1). -/
def Obligations.EveryCommandAnswersANextState : Prop :=
  ∀ (c : Instr) (s : State), answers (exec c s) fun u =>
    u.pending = s.pending ∧ u.fx = s.fx ∧ ((∀ t, c ≠ .clockStepApply t) → s.now ≤ u.now)

/-- What the spec says of the module right after reset: no command, no time source and time not set (R25), no event and no audit entry
(R39, R442), the events and the audit on (R445, R448), the sequencer OFF with both banks empty (R79), no Hallmark chain and no
wiring plan, and every register at the value that its table gives. -/
def Obligations.ResetLeavesWhatTheSpecGives : Prop :=
  State.reset.pending = [] ∧ State.reset.time.tstate = .unset ∧ State.reset.time.source = .none ∧
  State.reset.evt.ring = [] ∧ State.reset.evt.pd = [] ∧ State.reset.aud.ring = [] ∧ State.reset.aud.pd = [] ∧
  State.reset.seq.bank0.kind = .empty ∧ State.reset.seq.bank1.kind = .empty ∧ State.reset.blk seqPg = stOff ∧
  State.reset.wiring = none ∧ State.reset.hmk.tip = none ∧ State.reset.isOwner = false ∧
  (∀ a, State.reset.reg a = regReset State.reset.fx a % 2 ^ 64) ∧ (∀ a, State.reset.byte a = 0)

/-! ## Invariants -/

/-- The canonical form of the register table and of the memory, and the sizes of the rings, hold at reset. -/
def Obligations.ResetIsCanonical : Prop := State.reset.regsWf ∧ State.reset.memWf ∧ State.reset.ringsWf

/-- Every step keeps the register table in its canonical form: addresses rising, no entry equal to its register's reset value.
Every step keeps the memory in its canonical form, so that equal memories are equal data. -/
def Obligations.StepKeepsTheTablesCanonical : Prop :=
  (∀ s u : State, s.regsWf → step s = .next u → u.regsWf) ∧
  (∀ s u : State, s.memWf → step s = .next u → u.memWf)

/-- Every step keeps the event ring within 4,096 records, the pulse-die buffer within 128, the audit ring within 8,192 entries and its
buffer within 256 (R39, R442). -/
def Obligations.StepKeepsTheRingsWithinTheirSizes : Prop :=
  ∀ s u : State, s.ringsWf → step s = .next u → u.ringsWf

/-- A write of a register reads back, leaves every other register alone and keeps the table canonical; a write of memory bytes reads
back, leaves every byte outside them alone and keeps the memory canonical. -/
def Obligations.WritesReadBackAndStayApart : Prop :=
  (∀ (s : State) (a v b : Nat), (s.setReg a v).reg b = if b = a then v % 2 ^ 64 else s.reg b) ∧
  (∀ (s : State) (a v : Nat), s.regsWf → (s.setReg a v).regsWf) ∧
  (∀ (s : State) (a c : Nat) (l : List Byte),
    (s.setBytes a l).byte c = if h : a ≤ c ∧ c < a + l.length then l[c - a]'(by omega) else s.byte c) ∧
  (∀ (s : State) (a : Nat) (l : List Byte), s.memWf → (s.setBytes a l).memWf)

/-! ## Register access (R37, R38, R428 to R440) -/

/-- R37, R38, R440: an admitted write of a register without a rule of its own stores its RW bits, keeps its other bits and clears
those of a W1C write; WR_SEQ of the page advances by one; one entry is appended to the audit; no other register and no memory
moves. TIM_CTL that clears DISCIPLINE_EN also puts PTB_STEP and PTB_SLEW to 0 (R447); IRQ_EN may bring a notice (R444).
R440: a write that reaches a page and would change an RW field at 0x100 or above while LOCK.WR_LOCK is set, an RWL field while
RWL_WRITABLE is 0, a reserved bit, or any bit of a read-only register, is rejected: the register and WR_SEQ stay, IRQ_STS.REJECT
is set, GLB_WR_REJ counts, and the audit's entry says REJECTED. -/
def Obligations.WritesAreAcceptedOrRejectedWhole : Prop :=
  (∀ (t : Nat) (w : Writer) (a : Nat) (v : Word) (r : RegRow) (s : State),
    admits s w a 32 v.toNat = true → findRow (a / 4096) (a % 4096) = some r →
    regHook w a = plain → a ≠ Reg.TIM_CTL → a % 4096 ≠ 0x14 → s.basePowered = true → s.reg Reg.AUD_LOST + 1 < 2 ^ 32 - 1 →
    answers (exec (.registerWrite t w (0x4000000000 + a) 32 (v.setWidth 64)) s) fun u =>
      u.reg a = storedValue r (s.reg a) v.toNat % 2 ^ 64 ∧
      u.reg (Reg.WR_SEQ (a / 4096)) = (s.reg (Reg.WR_SEQ (a / 4096)) + 1) % 2 ^ 32 ∧
      audited s u w a v.toNat false false ((s.reg (Reg.WR_SEQ (a / 4096)) + 1) % 2 ^ 32) ∧
      regsKeptW (a / 4096) [a] s u ∧ memKept s u) ∧
  (∀ (t : Nat) (w : Writer) (v : Word) (s : State),
    admits s w Reg.TIM_CTL 32 v.toNat = true → s.disciplineEn = true → v.toNat.testBit 0 = false →
    answers (exec (.registerWrite t w (0x4000000000 + Reg.TIM_CTL) 32 (v.setWidth 64)) s) fun u =>
      u.disciplineEn = false ∧ u.reg Reg.PTB_STEP = 0 ∧ u.reg Reg.PTB_SLEW = 0 ∧ memKept s u) ∧
  (∀ (t : Nat) (w : Writer) (page : Fin 0x115) (v : Word) (s : State),
    admits s w (Reg.IRQ_EN page) 32 v.toNat = true →
    answers (exec (.registerWrite t w (0x4000000000 + Reg.IRQ_EN page) 32 (v.setWidth 64)) s) fun u =>
      u.reg (Reg.IRQ_EN page) % 32 = v.toNat ∧ u.reg (Reg.IRQ_STS page) % 8 = s.reg (Reg.IRQ_STS page) % 8 ∧ memKept s u) ∧
  (∀ (t : Nat) (w : Writer) (a : Nat) (v : Word) (r : RegRow) (s : State),
    reaches s w (a / 4096) = true → a % 4 = 0 → findRow (a / 4096) (a % 4096) = some r → findHigh (a / 4096) (a % 4096) = none →
    r.wide = false → s.basePowered = true →
    ((s.bit (Reg.LOCK (a / 4096)) 0 = true ∧ 0x100 ≤ a % 4096 ∧ (v.toNat ^^^ s.reg a) &&& (r.rw ||| r.rwl) ≠ 0) ∨
     (lcRwl s.lc = false ∧ (v.toNat ^^^ s.reg a) &&& r.rwl ≠ 0) ∨
     v.toNat ||| knownMask r ≠ knownMask r ∨ whollyRO r = true) →
    answers (exec (.registerWrite t w (0x4000000000 + a) 32 (v.setWidth 64)) s) fun u =>
      (writeReg (a / 4096) a = false → u.reg a = s.reg a) ∧
      u.reg (Reg.WR_SEQ (a / 4096)) = s.reg (Reg.WR_SEQ (a / 4096)) ∧ u.bit (Reg.IRQ_STS (a / 4096)) 4 = true ∧
      u.reg Reg.GLB_WR_REJ = min (s.reg Reg.GLB_WR_REJ + 1) (2 ^ 32 - 1) ∧
      audited s u w a v.toNat false true (s.reg (Reg.WR_SEQ (a / 4096))) ∧ regsKeptW (a / 4096) [] s u ∧ memKept s u)

/-- R428, R432: a write to a page that is not allocated is a decode error, counted and recorded; a write on a path that does not
arrive changes nothing.
R430: a 32-bit write of the low word of a 64-bit register changes no register and is held for its path; the write of the high word
that follows on the path takes both words as one write of the register. -/
def Obligations.DecodeErrorsAndHeldWords : Prop :=
  (∀ (t : Nat) (w : Writer) (a : Nat) (v : Word) (s : State),
    pathArrives s w (a / 4096) = true → pageAllocated (a / 4096) = false → s.basePowered = true → a < 0x1000000 →
    answers (exec (.registerWrite t w (0x4000000000 + a) 32 (v.setWidth 64)) s) fun u =>
      u.reg Reg.GLB_DECODE_ERR = min (s.reg Reg.GLB_DECODE_ERR + 1) (2 ^ 32 - 1) ∧ regsKeptW 0 [] s u ∧ memKept s u) ∧
  (∀ (t : Nat) (w : Writer) (a : Nat) (v : Word) (s : State),
    pathArrives s w (a / 4096) = false → a < 0x1000000 →
    answers (exec (.registerWrite t w (0x4000000000 + a) 32 (v.setWidth 64)) s) fun u =>
      u.aud = s.aud ∧ regsKeptOnly [] s u ∧ memKept s u) ∧
  (∀ (t : Nat) (w : Writer) (a : Nat) (v : Word) (r : RegRow) (s : State),
    reaches s w (a / 4096) = true → a % 4 = 0 → findHigh (a / 4096) (a % 4096) = none →
    findRow (a / 4096) (a % 4096) = some r → r.wide = true →
    answers (exec (.regWrite64Low t w (0x4000000000 + a) v) s) fun u =>
      u.heldLow w a = some v.toNat ∧ regsKeptOnly [] s u ∧ memKept s u) ∧
  (∀ (t : Nat) (w : Writer) (a : Nat) (v low : Word) (r : RegRow) (s : State),
    reaches s w (a / 4096) = true → a % 8 = 0 → findHigh (a / 4096) ((a + 4) % 4096) = some r →
    findRow (a / 4096) (a % 4096) = some r → (a + 4) / 4096 = a / 4096 →
    s.heldLow w a = some low.toNat → regHook w a = plain → a ≠ Reg.TIM_CTL → s.basePowered = true →
    s.reg Reg.AUD_LOST + 1 < 2 ^ 32 - 1 →
    fieldsAdmit s (a / 4096) (a % 4096) r (low.toNat + v.toNat * 2 ^ 32) = true →
    answers (exec (.registerWrite t w (0x4000000000 + a + 4) 32 (v.setWidth 64)) s) fun u =>
      u.reg a = storedValue r (s.reg a) (low.toNat + v.toNat * 2 ^ 32) % 2 ^ 64 ∧
      u.reg (Reg.WR_SEQ (a / 4096)) = (s.reg (Reg.WR_SEQ (a / 4096)) + 1) % 2 ^ 32 ∧ u.heldLow w a = none ∧
      regsKeptW (a / 4096) [a] s u ∧ memKept s u)

/-- A register write by its own row of the table does exactly what the same write does by REGISTER_WRITE (R440). -/
def Obligations.OwnRowsAgreeWithTheGenericWrite : Prop :=
  ∀ (t : Nat) (w : Writer) (s : State),
    (∀ v : DWord, exec (.ptbStepWrite t w v) s = exec (.registerWrite t w (0x4000000000 + Reg.PTB_STEP) 64 v) s) ∧
    (∀ v : Word, exec (.ptbSlewWrite t w v) s = exec (.registerWrite t w (0x4000000000 + Reg.PTB_SLEW) 32 (v.setWidth 64)) s) ∧
    (∀ v : Word, exec (.seqWarmWrite t w v) s = exec (.registerWrite t w (0x4000000000 + Reg.SEQ_WARM) 32 (v.setWidth 64)) s) ∧
    (∀ v : Word, exec (.seqFailedWrite t w v) s =
      exec (.registerWrite t w (0x4000000000 + Reg.SEQ_FAILED) 32 (v.setWidth 64)) s) ∧
    (∀ v : Word, exec (.evtClrLost t w v) s = exec (.registerWrite t w (0x4000000000 + Reg.EVT_CTL) 32 (v.setWidth 64)) s) ∧
    (∀ v : Word, exec (.audClrLost t w v) s = exec (.registerWrite t w (0x4000000000 + Reg.AUD_CTL) 32 (v.setWidth 64)) s) ∧
    (∀ v : Word, exec (.hmkPolicyWrite t w v) s =
      exec (.registerWrite t w (0x4000000000 + Reg.HMK_POLICY) 32 (v.setWidth 64)) s) ∧
    (∀ (n : Fin 64) (k : Fin 4) (v : Word), exec (.cleRecordWrite t w n k v) s =
      exec (.registerWrite t w (0x4000000000 + (Reg.CLE_REC0 n + 4 * k)) 32 (v.setWidth 64)) s) ∧
    (∀ (r k : Fin 4) (v : Word), exec (.govRowWrite t w r k v) s =
      exec (.registerWrite t w (0x4000000000 + (Reg.GOV_ROW0_SMIN + 16 * r + 4 * k)) 32 (v.setWidth 64)) s) ∧
    (∀ v : Word, exec (.dinClr t w v) s = exec (.registerWrite t w (0x4000000000 + Reg.DIN_CLR) 32 (v.setWidth 64)) s)

/-! ## Time (R25 to R32, R193) -/

/-- R31, the state machine of time: the loss of a source enters holdover with the clock and UNC as they are; UNC rises with the time
spent there and never falls; a source that is there again is acquired; an offset below 20 ns while acquiring locks to it, ends the
slew and clears UNC. -/
def Obligations.TimeStatesFollowTheSource : Prop :=
  (∀ (t : Nat) (s : State),
    s.time.tstate = .lockedPtp ∨ s.time.tstate = .lockedChain ∨ s.time.tstate = .acquiring →
    answers (exec (.timeSourceLost t) s) fun u =>
      u.time.tstate = .holdover ∧ u.time.source = .none ∧ u.time.slewing = false ∧ u.time.unc = s.time.unc ∧
      u.time.holdSince = max s.now t ∧ u.reg Reg.TIM_HOLD_STAMP = max s.now t % 2 ^ 64 ∧ u.reg Reg.PTB_SLEW = 0 ∧
      posted 1 u ∧ regsKept 1 [Reg.TIM_HOLD_STAMP, Reg.PTB_SLEW] s u ∧ memKept s u) ∧
  (∀ (t : Nat) (s : State), s.time.tstate = .holdover →
    answers (exec (.holdoverUncRaise t) s) fun u =>
      u.time.unc.toNat = max s.time.unc.toNat (holdUnc (max s.now t - s.time.holdSince)) ∧ u.time.tstate = .holdover ∧
      regsKeptOnly [] s u ∧ memKept s u) ∧
  (∀ (t : Nat) (src : TimeSource) (s : State),
    src ≠ .none → s.time.tstate ≠ .lockedPtp → s.time.tstate ≠ .lockedChain →
    answers (exec (.timeSourceReturn t src) s) fun u =>
      u.time.tstate = .acquiring ∧ u.time.source = src ∧ u.time.unc = s.time.unc ∧ regsKeptOnly [] s u ∧ memKept s u) ∧
  (∀ (t : Nat) (offset : Int) (s : State),
    s.time.tstate = .acquiring → offset.natAbs < 20 → s.time.source ≠ .none →
    answers (exec (.timeOffsetLock t offset) s) fun u =>
      u.time.tstate = (if s.time.source = .ptp then TState.lockedPtp else TState.lockedChain) ∧ u.time.unc = 0 ∧
      u.time.slewing = false ∧ u.reg Reg.PTB_SLEW = 0 ∧ u.reg Reg.PTB_OFFSET = ofInt 32 offset ∧
      regsKeptOnly [Reg.PTB_SLEW, Reg.PTB_OFFSET, Reg.TIM_PTP_OFFSET, Reg.TIM_CHAIN_OFFSET] s u ∧ memKept s u)

/-- R28, R29, R32: while PTP is the source its offset disciplines the clock: with no Pattern running the whole offset is queued as
one step; a forward offset under a running Pattern is queued in whole plan frames; while Chain is the source PTP only cross-checks,
and a disagreement of 10 plan frames is counted and posted and leaves the source as it is.
R32, R193: a pending step moves the counter and every boundary grid with it, and is counted; while a Pattern runs only a forward
step of whole plan frames at a plan-frame boundary may. A write of PTB_STEP or PTB_SLEW that the access rules admit is taken
while TIM does not discipline, the slew cut to 20,000 ppb either way; a step back while a Pattern runs is rejected. -/
def Obligations.PtpAndStepsMoveTheClock : Prop :=
  (∀ (t : Nat) (m : PtpMsg) (off : Int) (s : State),
    s.baseUp = true → s.ptpOn = true → m.tai = true → m.domain.toNat = s.fld Reg.TIM_PTP_CFG 0 7 → m.offset = some off →
    s.time.source = .ptp → s.disciplineEn = true → s.patternRunning = false →
    answers (exec (.ptpMessageRx t m) s) fun u =>
      u.reg Reg.TIM_PTP_OFFSET = satI32 off ∧ u.reg Reg.PTB_STEP = ofInt 64 off ∧ u.reg Reg.PTB_SLEW = s.reg Reg.PTB_SLEW ∧
      (∀ v, m.utcOffset = some v → u.reg Reg.TIM_UTC_OFFSET = ofInt 32 v) ∧
      regsKeptOnly [Reg.TIM_UTC_OFFSET, Reg.TIM_PTP_OFFSET, Reg.PTB_OFFSET, Reg.PTB_STEP] s u ∧ memKept s u) ∧
  (∀ (t : Nat) (m : PtpMsg) (off : Nat) (s : State),
    s.baseUp = true → s.ptpOn = true → m.tai = true → m.domain.toNat = s.fld Reg.TIM_PTP_CFG 0 7 → m.offset = some (off : Int) →
    s.time.source = .ptp → s.disciplineEn = true → s.patternRunning = true → off < 2 ^ 63 →
    answers (exec (.ptpMessageRx t m) s) fun u =>
      u.reg Reg.PTB_STEP = off / 1000000 * 1000000 ∧ memKept s u) ∧
  (∀ (t : Nat) (m : PtpMsg) (off : Int) (s : State),
    s.baseUp = true → s.ptpOn = true → m.tai = true → m.domain.toNat = s.fld Reg.TIM_PTP_CFG 0 7 → m.offset = some off →
    s.time.source = .chain →
    answers (exec (.ptpMessageRx t m) s) fun u =>
      u.reg Reg.TIM_PTP_OFFSET = satI32 off ∧ u.time.source = .chain ∧
      regsKeptOnly [Reg.TIM_UTC_OFFSET, Reg.TIM_PTP_OFFSET] s u ∧ memKept s u) ∧
  (∀ (t : Nat) (s : State), s.time.source = .chain → 10 ≤ s.time.disagreeRun →
    answers (exec (.timeDisagree t) s) fun u =>
      u.time.disagree = true ∧ u.time.source = .chain ∧
      u.reg Reg.TIM_DISAGREE_CNT = min (s.reg Reg.TIM_DISAGREE_CNT + 1) (2 ^ 32 - 1) ∧ posted 1 u ∧
      regsKept 1 [Reg.TIM_DISAGREE_CNT] s u ∧ memKept s u) ∧
  (∀ (t : Nat) (s : State), stepMayApply (s.at t) = true → (s.patternRunning && s.epochOpen) = false →
    answers (exec (.clockStepApply t) s) fun u =>
      (u.now : Int) = (max s.now t : Nat) + s.pendingStep ∧ u.grid = ⟨u.now, u.now, u.now, u.now, u.now, u.now⟩ ∧
      u.reg Reg.PTB_STEP = 0 ∧ u.reg Reg.TIM_STEP_CNT = min (s.reg Reg.TIM_STEP_CNT + 1) (2 ^ 32 - 1) ∧
      regsKept 1 [Reg.PTB_STEP, Reg.TIM_STEP_CNT] s u ∧ memKept s u) ∧
  (∀ (t : Nat) (s : State), s.patternRunning = true → (s.pendingStep ≤ 0 ∨ (s.at t).now % 1000000 ≠ 0) →
    answers (exec (.clockStepApply t) s) fun u => u.now = max s.now t ∧ regsKeptOnly [] s u ∧ memKept s u) ∧
  (∀ (t : Nat) (w : Writer) (v : DWord) (s : State), admits s w Reg.PTB_STEP 64 v.toNat = true → s.disciplineEn = false →
    ((s.patternRunning && decide (sext 64 v.toNat < 0)) = false) →
    answers (exec (.ptbStepWrite t w v) s) fun u => u.reg Reg.PTB_STEP = v.toNat ∧ memKept s u) ∧
  (∀ (t : Nat) (w : Writer) (v : DWord) (s : State), admits s w Reg.PTB_STEP 64 v.toNat = true →
    s.patternRunning = true → sext 64 v.toNat < 0 →
    answers (exec (.ptbStepWrite t w v) s) fun u => u.reg Reg.PTB_STEP = s.reg Reg.PTB_STEP ∧ u.bit (Reg.IRQ_STS 0x101) 4 = true) ∧
  (∀ (t : Nat) (w : Writer) (v : Word) (s : State), admits s w Reg.PTB_SLEW 32 v.toNat = true → s.disciplineEn = false →
    answers (exec (.ptbSlewWrite t w v) s) fun u =>
      u.reg Reg.PTB_SLEW = ofInt 32 (clampInt (-20000) 20000 (sext 32 v.toNat)) ∧ memKept s u)
/-! ## The sequencer (R45, R46, R54 to R79) -/

/-- R45, R46, R73, R79: FRAME_END ends the body at its cycle; TRACE appends index and TAG to the ring of 1,024; AWAKE sets the stacks
that run; a droop stretches the body by at most 256 cycles and is counted; an uncorrectable Stitch-store error is FAULT 0x02. -/
def Obligations.StitchesEndTraceAndStretchTheBody : Prop :=
  (∀ (t k : Nat) (s : State), s.seq.body.active = true →
    answers (exec (.stitchFrameEnd t k) s) fun u =>
      u.seq.body.active = false ∧ u.seq.body.ended = some (s.seq.body.late + k + s.seq.body.stretch) ∧
      (s.blk seqPg = stStopping → u.blk seqPg = stOff) ∧ regsKept seqPg [Reg.BLK_STS seqPg] s u ∧ memKept s u) ∧
  (∀ (t k : Nat) (tag : Byte) (s : State),
    answers (exec (.stitchTrace t k tag) s) fun u =>
      u.seq.trace = lastN 1024 (s.seq.trace ++ [(k, tag)]) ∧ regsKeptOnly [] s u ∧ memKept s u) ∧
  (∀ (t : Nat) (mask : BitVec 4) (s : State),
    answers (exec (.stitchAwake t mask) s) fun u => u.seq.awake = mask ∧ regsKeptOnly [] s u ∧ memKept s u) ∧
  (∀ (t cycles : Nat) (s : State),
    answers (exec (.clockStretch t cycles) s) fun u =>
      u.reg Reg.SEQ_STRETCH_CNT = min (s.reg Reg.SEQ_STRETCH_CNT + min cycles 256) (2 ^ 32 - 1) ∧
      u.reg Reg.PWR_DROOP_CNT = min (s.reg Reg.PWR_DROOP_CNT + 1) (2 ^ 32 - 1) ∧
      (s.seq.body.active = true → u.seq.body.stretch = s.seq.body.stretch + min cycles 256) ∧ memKept s u) ∧
  (∀ (t : Nat) (s : State), s.blk seqPg ≠ stOff →
    answers (exec (.stitchStoreEccError t) s) fun u =>
      u.blk seqPg = stFault ∧ u.fld (Reg.BLK_STS seqPg) 8 8 = 2 ∧ u.seq.body.active = false ∧ u.seq.swapDue = none ∧ memKept s u)

/-- R61 to R65, R71: a load starts the loader, or is answered BUSY (0x14) in HOLD or while a bank is loading; when the loader is done a
container that failed a check leaves the banks alone and reports reason and detail; a check only reports PASSED; else the
Pattern is staged in the inactive bank. -/
def Obligations.LoadsAreCheckedBeforeTheyAreStaged : Prop :=
  (∀ (t : Nat) (w : Writer) (sig : SigVerdict) (s : State),
    admits s w Reg.SEQ_LOAD 32 1 = true → s.seqBusy = false → s.seq.loadBusy = false →
    answers (exec (.seqLoadGo t w sig) s) fun u =>
      u.reg Reg.SEQ_LOAD_STS = 1 ∧ u.seq.loadBusy = true ∧ u.seq.loadCheckOnly = false ∧ u.seq.loadSig = sig ∧ memKept s u) ∧
  (∀ (t : Nat) (w : Writer) (sig : SigVerdict) (s : State),
    admits s w Reg.SEQ_LOAD 32 3 = true → s.seqBusy = false → s.seq.loadBusy = false →
    answers (exec (.seqLoadCheckOnly t w sig) s) fun u =>
      u.reg Reg.SEQ_LOAD_STS = 1 ∧ u.seq.loadBusy = true ∧ u.seq.loadCheckOnly = true ∧ u.seq.loadSig = sig ∧ memKept s u) ∧
  (∀ (t : Nat) (w : Writer) (sig : SigVerdict) (s : State),
    admits s w Reg.SEQ_LOAD 32 1 = true → s.seqBusy = true →
    answers (exec (.seqLoadGo t w sig) s) fun u =>
      u.reg Reg.SEQ_LOAD_STS = 0x1403 ∧ u.seq = s.seq ∧ memKept s u) ∧
  (∀ (t : Nat) (s : State), s.seq.loadBusy = true →
    let src := memSrc (s.at t) (s.reg Reg.SEQ_LOAD_ADDR)
    let found := checkContainer { s.at t with seq := { s.seq with loadBusy := false } } src (s.reg Reg.SEQ_LOAD_LEN) s.seq.loadSig
      s.runningRegions
    answers (exec (.loaderDone t) s) fun u =>
      u.seq.loadBusy = false ∧ u.actBank = s.actBank ∧ memKept s u ∧
      (∀ r d, found = .error (r, d) → u.reg Reg.SEQ_LOAD_STS = (3 + 0x100 * r + 0x10000 * (d % 65536)) % 2 ^ 64 ∧
        u.seq = { s.seq with loadBusy := false } ∧ regsKeptOnly [Reg.SEQ_LOAD_STS] s u) ∧
      (found = .ok () → s.seq.loadCheckOnly = true → u.reg Reg.SEQ_LOAD_STS = 2 ∧ u.seq = { s.seq with loadBusy := false } ∧
        regsKeptOnly [Reg.SEQ_LOAD_STS] s u) ∧
      (found = .ok () → s.seq.loadCheckOnly = false → s.seqBusy = false → u.reg Reg.SEQ_LOAD_STS = 2 ∧
        u.inactBank.kind = .staged ∧ u.inactBank.pat = some (describePattern src)))

/-- The variant asked for stands in the active bank, and no switch is under way. -/
def switchedTo (s u : State) : Prop :=
  u.actNo = 1 - s.actNo ∧ u.actBank.kind = .active ∧ u.actBank.variant = s.seq.swVariant ∧ u.actBank.steer = s.seq.swSteer ∧
  u.seq.sw = .none

/-- R66, R78: GO for the inactive bank makes a swap due at the first plan-frame boundary at least 20 microseconds later; at it a HOT
Pattern takes the active bank and the old one stays as previous; a COLD one first enters HOLD and starts at a plan-frame
boundary; RELEASE empties the bank of the previous Pattern and cancels the swap.
R68 to R70, R72, R74, R79: the warm variant is staged in an empty bank and takes over at a control-frame boundary; a copied variant
starts after its copy; a cooling switch needs no HOLD; a caught-up body follows FRAME_END by 9 cycles; a rearmed sequencer starts
at a plan-frame boundary. -/
def Obligations.SwapsAndVariantsTakeOverAtTheirBoundaries : Prop :=
  (∀ (t : Nat) (w : Writer) (bank : Bool) (s : State),
    admits s w Reg.SEQ_SWAP 32 (b2n bank + 2) = true → swapGoOk bank s = true → s.seqBusy = false →
    answers (exec (.seqSwapGo t w bank) s) fun u =>
      u.seq.swapDue = some (alignUp 1000000 (max s.now t + 20000)) ∧ u.bit Reg.SEQ_STS 3 = true ∧ u.actBank = s.actBank ∧
      memKept s u) ∧
  (∀ (t d : Nat) (p : PatDesc) (s : State),
    s.seq.swapDue = some d → d ≤ max s.now t → s.seq.sw = .none → s.seq.body.active = false →
    s.inactBank.pat = some p → p.hot = true →
    answers (exec (.swapTakeEffect t) s) fun u =>
      u.actNo = 1 - s.actNo ∧ u.actBank.kind = .active ∧ u.actBank.pat = some p ∧ u.seq.swapDue = none ∧
      u.seq.storePrev = s.seq.store ∧ u.bit Reg.SEQ_STS 3 = false) ∧
  (∀ (t d : Nat) (p : PatDesc) (s : State),
    s.seq.swapDue = some d → d ≤ max s.now t → s.seq.sw = .none → s.seq.body.active = false →
    s.inactBank.pat = some p → p.hot = false → s.blk seqPg = stRunning →
    answers (exec (.swapTakeEffect t) s) fun u =>
      u.blk seqPg = stHold ∧ u.seq.coldHold = true ∧ u.seq.swapDue = none ∧ u.actBank = s.actBank ∧ memKept s u) ∧
  (∀ (t : Nat) (s : State), s.seq.coldHold = true → max s.now t % 1000000 = 0 → s.blk seqPg = stHold →
    s.seq.body.active = false →
    answers (exec (.coldSwapStart t) s) fun u =>
      u.actNo = 1 - s.actNo ∧ u.blk seqPg = stRunning ∧ u.seq.coldHold = false ∧ u.seq.body.active = true ∧
      u.seq.body.frame = max s.now t / 10000) ∧
  (∀ (t : Nat) (w : Writer) (s : State),
    admits s w Reg.SEQ_SWAP 32 (0x10 + s.fld Reg.SEQ_SWAP 0 1) = true → s.inactBank.kind = .previous →
    answers (exec (.seqSwapRelease t w) s) fun u =>
      u.inactBank = emptyBank ∧ u.seq.swapDue = none ∧ u.actBank = s.actBank ∧ memKept s u) ∧
  (∀ (t : Nat) (p : PatDesc) (s : State), s.runningPat = some p → s.inactBank.kind = .empty → s.seq.sw = .none →
    p.variants.any (fun v => v.code = s.fld Reg.SEQ_WARM 0 8) = true →
    answers (exec (.warmStageDone t) s) fun u =>
      u.inactBank.kind = .warm ∧ u.inactBank.variant = s.fld Reg.SEQ_WARM 0 8 ∧ u.inactBank.pat = some p ∧
      u.actBank = s.actBank ∧ regsKeptOnly [Reg.SEQ_STS] s u ∧ memKept s u) ∧
  (∀ (t : Nat) (w : Writer) (v : Word) (s : State), admits s w Reg.SEQ_WARM 32 v.toNat = true →
    answers (exec (.seqWarmWrite t w v) s) fun u =>
      u.fld Reg.SEQ_WARM 0 8 = v.toNat % 256 ∧ u.actBank = s.actBank ∧ memKept s u) ∧
  (∀ (t : Nat) (s : State), s.seq.sw = .warm → s.seq.body.active = false → s.isWarm s.seq.swVariant = true →
    s.seq.swapDue = none → answers (exec (.warmVariantSwitch t) s) (switchedTo s)) ∧
  (∀ (t : Nat) (s : State), s.seq.sw = .copy → s.blk seqPg = stHold →
    answers (exec (.variantCopyDone t true) s) fun u =>
      u.seq.swReadyAt = some (max s.now t + s.cycNs 256) ∧ u.seq.awake = 0xF ∧ u.actBank = s.actBank ∧
      regsKeptOnly [] s u ∧ memKept s u) ∧
  (∀ (t : Nat) (s : State),
    answers (exec (.variantCopyDone t false) s) fun u => u.seq = s.seq ∧ regsKeptOnly [] s u ∧ memKept s u) ∧
  (∀ (t r : Nat) (s : State), s.seq.sw = .copy → s.seq.swReadyAt = some r → r ≤ max s.now t → max s.now t % 10000 = 0 →
    s.blk seqPg = stHold → s.seq.swapDue = none → s.seq.body.active = false →
    answers (exec (.variantRestart t) s) fun u =>
      switchedTo s u ∧ u.blk seqPg = stRunning ∧ u.seq.body.active = true ∧ u.seq.body.frame = max s.now t / 10000) ∧
  (∀ (t c r : Nat) (s : State), s.seq.sw = .noHold c → s.seq.swReadyAt = some r → r ≤ max s.now t →
    max s.now t % 10000 = 0 → s.seq.body.active = false → s.seq.swapDue = none →
    answers (exec (.coolingVariantSwitch t) s) (switchedTo s)) ∧
  (∀ (t e : Nat) (s : State), s.seq.body.ended = some e → s.seq.body.active = false → s.seq.body.missed = 1 →
    s.blk seqPg = stRunning → s.seq.lastFrame = some s.seq.body.frame → max s.now t < (s.seq.body.frame + 2) * 10000 →
    s.seq.sw = .none → s.seq.swapDue = none →
    answers (exec (.catchupBodyStart t) s) fun u =>
      u.seq.body.active = true ∧ u.seq.body.frame = s.seq.body.frame + 1 ∧ u.seq.body.late = e + 9 - s.frameCyc) ∧
  (∀ (t v d : Nat) (p : PatDesc) (s : State), max s.now t % 1000000 = 0 → s.blk seqPg = stOff →
    s.bit (Reg.BLK_STS seqPg) 4 = true → s.bit (Reg.BLK_CTL seqPg) 0 = true → s.actBank.pat = some p →
    s.selectFor (some p) = some (v, d) → s.seq.body.active = false →
    answers (exec (.seqRearmRestart t) s) fun u =>
      u.blk seqPg = stRunning ∧ u.bit (Reg.BLK_STS seqPg) 4 = false ∧ u.actBank.variant = v ∧ u.actBank.steer = d ∧
      u.seq.body.active = true ∧ u.seq.body.frame = max s.now t / 10000)

/-- R102: a write of ERR_INJ with an injection's bit, which only FAB, PROVISION and RETURN admit, arms it on its unit.
R68, R72, R98, R99, R105: a residue mismatch fails its array, a vector fault its stack: status, counter and SEQ_FAILED; handoffs
are withheld. Ones written to SEQ_FAILED return their units. -/
def Obligations.InjectionsAndFailuresMarkTheirUnits : Prop :=
  (∀ (t : Nat) (w : Writer) (x : Fin 20) (v : Word) (s : State),
    (admits s w (Reg.ERR_INJ (injPage x)) 32 (v.toNat ||| 1) = true →
      answers (exec (.errInjResFlip t w x v) s) fun u => u.bit (Reg.ERR_INJ (injPage x)) 0 = true ∧ memKept s u) ∧
    (admits s w (Reg.ERR_INJ (injPage x)) 32 (v.toNat ||| 2) = true →
      answers (exec (.errInjAccFlip t w x v) s) fun u => u.bit (Reg.ERR_INJ (injPage x)) 1 = true ∧ memKept s u) ∧
    (admits s w (Reg.ERR_INJ (injPage x)) 32 (v.toNat ||| 4) = true →
      answers (exec (.errInjRadInf t w x v) s) fun u => u.bit (Reg.ERR_INJ (injPage x)) 2 = true ∧ memKept s u)) ∧
  (∀ (w : Writer) (x : Fin 20) (v : Nat) (s : State), lcErrInj s.lc = false →
    admits s w (Reg.ERR_INJ (injPage x)) 32 v = false) ∧
  (∀ (t : Nat) (k : Fin 16) (s : State), pagePresent s.fx (0x20 + k) = true → s.bit Reg.SEQ_FAILED k = false →
    answers (exec (.residueMismatch t k) s) fun u =>
      u.bit (Reg.MAC_STS k) 0 = true ∧ u.reg (Reg.MAC_RES_CNT k) = min (s.reg (Reg.MAC_RES_CNT k) + 1) (2 ^ 32 - 1) ∧
      u.reg (Reg.MAC_FAIL_STAMP k) = max s.now t % 2 ^ 64 ∧ u.bit Reg.SEQ_FAILED k = true ∧ u.seq.withheld = true ∧ memKept s u) ∧
  (∀ (t : Nat) (d : Fin 4) (ecc : Bool) (s : State), pagePresent s.fx (0x30 + d) = true → s.stackFailed d = false →
    answers (exec (.vecFault t d ecc) s) fun u =>
      u.bit (Reg.VEC_STS d) 0 = true ∧ u.bit Reg.SEQ_FAILED (16 + d) = true ∧ u.seq.withheld = true ∧
      (let c := if ecc then Reg.VEC_ECC_UE d else Reg.VEC_RES_CNT d; u.reg c = min (s.reg c + 1) (2 ^ 32 - 1)) ∧ memKept s u) ∧
  (∀ (t : Nat) (w : Writer) (v : Word) (k : Fin 20) (s : State), admits s w Reg.SEQ_FAILED 32 v.toNat = true →
    answers (exec (.seqFailedWrite t w v) s) fun u =>
      u.bit Reg.SEQ_FAILED k = (s.bit Reg.SEQ_FAILED k && !v.toNat.testBit k) ∧ memKept s u)
/-! ## MAC arrays and vector units (R82 to R102) -/

/-- Memory reads as before at every address outside the ranges given as (start, length). -/
def memKeptOutside (l : List (Nat × Nat)) (s u : State) : Prop :=
  ∀ a, (∀ r ∈ l, a < r.1 ∨ r.1 + r.2 ≤ a) → u.byte a = s.byte a

/-- The elementwise vector rows with the exact midpoint and the radius of R95, the latter before its last rounding; `e` is the term for
the midpoint's rounding. -/
def vecElementRows : List ((Nat → Fin 4 → BitVec 96 → Instr) × (Int → Fv → Fv → Fv → Fv) × (Int → Lane → Lane → Lane → Fv → Fv) × Bool) :=
  [(Instr.vecAdd, fun _ a b _ => a.add b, fun _ a b _ e => (a.r.add b.r).add e, true),
   (Instr.vecSub, fun _ a b _ => a.sub b, fun _ a b _ e => (a.r.add b.r).add e, true),
   (Instr.vecMul, fun _ a b _ => a.mul b, fun _ a b _ e => (radMul a b).add e, true),
   (Instr.vecMax, fun _ a b _ => a.max b, fun _ a b _ _ => a.r.max b.r, true),
   (Instr.vecMin, fun _ a b _ => a.min b, fun _ a b _ _ => a.r.max b.r, true),
   (Instr.vecScale, fun k a _ _ => a.scale k, fun k a _ _ _ => a.r.scale k, false),
   (Instr.vecMove, fun _ a _ _ => a, fun _ a _ _ _ => a.r, false),
   (Instr.vecAbs, fun _ a _ _ => a.abs, fun _ a _ _ _ => a.r, false)]

/-- What a vector op leaves at DST: its midpoints, then with balls its radii, and no other byte of memory; the registers of its unit
and those of SAT alone may move. -/
def vecResult (d : Nat) (o : VecOp) (w : Nat) (l : List OutLane) (s u : State) : Prop :=
  u.bytes (dieAddr d o.dst) ((packCodes w (l.map (·.m))).length) = packCodes w (l.map (·.m)) ∧
  (o.ball = true → (packCodes w (l.map (·.m))).length = l.length * w / 8 →
    u.bytes (dieAddr d o.dst + l.length * w / 8) (packCodes 32 (l.map (·.r))).length = packCodes 32 (l.map (·.r))) ∧
  (o.ball = false → memKeptOutside [(dieAddr d o.dst, (packCodes w (l.map (·.m))).length)] s u) ∧
  memKeptOutside [(dieAddr d o.dst, max (packCodes w (l.map (·.m))).length (l.length * w / 8 + (packCodes 32 (l.map (·.r))).length))] s u ∧
  regsKept (0x30 + d) [Reg.VEC_STS d, Reg.VEC_INF_CNT d, Reg.ERR_INJ (0x30 + d)] s u

/-- R83, R89, R91, R98, R106: a WLOAD counts its serial and fills its buffer; each of the LEN vectors of a STREAM is in flight to its
entry and lands 132 cycles after it enters; a DRAIN stores midpoints and radii of LEN entries (384 bytes an entry with balls,
512 without) and nothing else; a slot whose array or stack is failed changes nothing.
R94, R95: ADD, SUB, MUL, MAX, MIN, SCALE, MOVE, ABS and FMA compute, lane by lane, the midpoint rounded to nearest even and, with
balls, the radius rounded up: +Inf where an operand is no ball or the midpoint is not finite. -/
def Obligations.MacSlotsAndVectorElements : Prop :=
  (∀ (t c : Nat) (k : Fin 16) (slot : BitVec 64) (s : State), s.arrayRuns (s.steerArray k) = true → s.steerArray k < 16 →
    answers (exec (.macWload t c k slot) s) fun u =>
      let k' := s.steerArray k
      u.fld (Reg.MAC_STS k') 8 2 = 1 ∧ (u.macSt k').serial = (s.macSt k').serial + 1 ∧
      (∀ j, j ≠ k' → u.macSt j = s.macSt j) ∧ regsKeptOnly [Reg.MAC_STS k'] s u ∧ memKept s u) ∧
  (∀ (t c : Nat) (k : Fin 16) (slot : BitVec 64) (s : State), s.arrayRuns (s.steerArray k) = true → s.steerArray k < 16 →
    s.reg (Reg.ERR_INJ (0x20 + s.steerArray k)) % 4 = 0 →
    answers (exec (.macStream t c k slot) s) fun u =>
      let k' := s.steerArray k
      let o := { MacOp.ofBits slot.toNat with op := 2 }
      u.fld (Reg.MAC_STS k') 8 2 = 2 ∧
      (∀ v < o.len, ∃ f ∈ (u.macSt k').flight, f.set = o.asel ∧ f.entry = v ∧
        f.lands = s.absCyc c + v * o.vecCycles + 132) ∧
      (∀ j, j ≠ k' → u.macSt j = s.macSt j) ∧
      regsKept (0x20 + k') [Reg.MAC_STS k', Reg.MAC_CLASH_CNT k'] s u ∧ memKept s u) ∧
  (∀ (t c : Nat) (k : Fin 16) (slot : BitVec 64) (s : State), s.arrayRuns (s.steerArray k) = true → s.steerArray k < 16 →
    s.reg (Reg.ERR_INJ (0x20 + s.steerArray k)) % 4 ≠ 0 →
    answers (exec (.macStream t c k slot) s) fun u =>
      u.bit Reg.SEQ_FAILED (s.steerArray k) = true ∧ u.reg (Reg.ERR_INJ (0x20 + s.steerArray k)) % 4 = 0 ∧ memKept s u) ∧
  (∀ (t c : Nat) (k : Fin 16) (slot : BitVec 64) (s : State), s.arrayRuns (s.steerArray k) = true → s.steerArray k < 16 →
    answers (exec (.macDrain t c k slot) s) fun u =>
      let k' := s.steerArray k
      let o := { MacOp.ofBits slot.toNat with op := 3 }
      u.fld (Reg.MAC_STS k') 8 2 = 3 ∧ (∀ j, j ≠ k' → u.macSt j = s.macSt j) ∧
      regsKept (0x20 + k') [Reg.MAC_STS k', Reg.MAC_EARLY_CNT k', Reg.MAC_INF_CNT k', Reg.MAC_DEPTH_CNT k', Reg.MAC_NAN_CNT k',
        Reg.ERR_INJ (0x20 + k')] s u ∧
      memKeptOutside ((List.range o.len).map (fun v =>
        (quadAddr k' (o.addr + v * (if o.ball then o.step 6 else o.step 8)), if o.ball then 384 else 512))) s u) ∧
  (∀ (t c : Nat) (k : Fin 16) (slot : BitVec 64) (s : State), s.arrayRuns (s.steerArray k) = false →
    ∀ i ∈ [Instr.macWload t c k slot, .macStream t c k slot, .macDrain t c k slot],
      answers (exec i s) fun u => u.mac = s.mac ∧ regsKeptOnly [] s u ∧ memKept s u) ∧
  (∀ p ∈ vecElementRows, ∀ (t : Nat) (d : Fin 4) (slot : BitVec 96) (s : State),
    s.vecRuns (s.steerStack d) = true → s.steerStack d < 4 → s.reg (Reg.ERR_INJ (0x30 + s.steerStack d)) % 8 = 0 →
    answers (exec (p.1 t d slot) s) fun u =>
      let d' := s.steerStack d
      let o := VecOp.ofBits slot.toNat
      let f := vecFmt o.type
      let z : Lane := ⟨Fv.zero, Fv.zero⟩
      let a := s.readLanes d' o.srcA o.type (o.len * 512) o.ball
      let b := if p.2.2.2 then s.readLanes d' o.srcB o.type (o.len * 512) o.ball else []
      vecResult d' o f.width ((List.range (o.len * 512)).map (fun i =>
        let x := a.getD i z
        let y := b.getD i z
        let m := f.enc2 .rne (p.2.1 o.imm x.m y.m z.m)
        closeLane f m.1 (p.2.2.1 o.imm x y z (delta o.type m)) (x.lost || y.lost))) s u) ∧
  (∀ (t : Nat) (d : Fin 4) (slot : BitVec 96) (s : State),
    s.vecRuns (s.steerStack d) = true → s.steerStack d < 4 → s.reg (Reg.ERR_INJ (0x30 + s.steerStack d)) % 8 = 0 →
    answers (exec (.vecFma t d slot) s) fun u =>
      let d' := s.steerStack d
      let o := VecOp.ofBits slot.toNat
      let f := vecFmt o.type
      let z : Lane := ⟨Fv.zero, Fv.zero⟩
      let a := s.readLanes d' o.srcA o.type (o.len * 512) o.ball
      let b := s.readLanes d' o.srcB o.type (o.len * 512) o.ball
      let c := s.readLanes d' o.dst o.type (o.len * 512) o.ball
      vecResult d' o f.width ((List.range (o.len * 512)).map (fun i =>
        let x := a.getD i z
        let y := b.getD i z
        let v := c.getD i z
        let m := f.enc2 .rne ((x.m.mul y.m).add v.m)
        closeLane f m.1 (((radMul x y).add v.r).add (delta o.type m)) (x.lost || y.lost || v.lost))) s u)

/-- R87, R95, R96: RSUM and RMAX give one result per group of 2^IMM lanes, summed in ascending lane order or the greatest; TAB gives
its function on every lane; CVT and PACK_MX round each lane into the target's codes, where the target holds it (log 25). A slot on a failed or absent stack changes nothing, and an armed residue or accumulator injection
fails the stack. -/
def Obligations.VectorReductionsTablesAndConversions : Prop :=
  (∀ p ∈ [(Instr.vecRsum, rsumLane), (Instr.vecRmax, rmaxLane)], ∀ (t : Nat) (d : Fin 4) (slot : BitVec 96) (s : State),
    s.vecRuns (s.steerStack d) = true → s.steerStack d < 4 → s.reg (Reg.ERR_INJ (0x30 + s.steerStack d)) % 8 = 0 →
    answers (exec (p.1 t d slot) s) fun u =>
      let d' := s.steerStack d
      let o := VecOp.ofBits slot.toNat
      vecResult d' o (vecFmt o.type).width ((groupsOf (2 ^ o.imm.toNat) (o.len * 512)
        (s.readLanes d' o.srcA o.type (o.len * 512) o.ball)).map (p.2 o.type)) s u) ∧
  (∀ (t : Nat) (d : Fin 4) (slot : BitVec 96) (s : State),
    s.vecRuns (s.steerStack d) = true → s.steerStack d < 4 → s.reg (Reg.ERR_INJ (0x30 + s.steerStack d)) % 8 = 0 →
    answers (exec (.vecTab t d slot) s) fun u =>
      let d' := s.steerStack d
      let o := VecOp.ofBits slot.toNat
      vecResult d' o (vecFmt o.type).width
        ((s.readLanes d' o.srcA o.type (o.len * 512) o.ball).map (tabLane o.func o.type o.ball)) s u) ∧
  (∀ p ∈ [Instr.vecCvt, Instr.vecPackMx], ∀ (t : Nat) (d : Fin 4) (slot : BitVec 96) (s : State),
    let d' := s.steerStack d
    let o := VecOp.ofBits slot.toNat
    let l := s.readLanes d' o.srcA o.type (o.len * 512) o.ball
    s.vecRuns d' = true → d' < 4 → s.reg (Reg.ERR_INJ (0x30 + d')) % 8 = 0 → o.func ≠ 2 →
    answers (exec (p t d slot) s) fun u =>
      let codes := if fmtMx o.func then (((blocks32 (o.len * 512) (l.map (·.m))).map (packBlock o.func)).map (·.2)).flatten.map (·.1)
        else l.map (fun x => (fmtOf o.func).enc .rne x.m)
      u.bytes (dieAddr d' o.dst) (packCodes (fmtBits o.func) codes).length = packCodes (fmtBits o.func) codes ∧
      regsKept (0x30 + d') [Reg.VEC_STS d', Reg.VEC_INF_CNT d', Reg.ERR_INJ (0x30 + d')] s u) ∧
  (∀ p ∈ [Instr.vecCvt, Instr.vecPackMx], ∀ (t : Nat) (d : Fin 4) (slot : BitVec 96) (s : State),
    let d' := s.steerStack d
    let o := VecOp.ofBits slot.toNat
    let l := s.readLanes d' o.srcA o.type (o.len * 512) o.ball
    s.vecRuns d' = true → d' < 4 → s.reg (Reg.ERR_INJ (0x30 + d')) % 8 = 0 → o.func = 2 →
    answers (exec (p t d slot) s) fun u =>
      (∀ (i : Nat) (x : Lane), l[i]? = some x → x.m.isFin = true → -128 ≤ x.m.nearest → x.m.nearest ≤ 127 →
        u.byte (dieAddr d' o.dst + i) = BitVec.ofInt 8 x.m.nearest) ∧
      regsKept (0x30 + d') [Reg.VEC_STS d', Reg.VEC_INF_CNT d', Reg.ERR_INJ (0x30 + d')] s u) ∧
  (∀ i ∈ [Instr.vecAdd, Instr.vecSub, Instr.vecMul, Instr.vecFma, Instr.vecMax, Instr.vecMin, Instr.vecCvt, Instr.vecTab,
      Instr.vecRsum, Instr.vecRmax, Instr.vecScale, Instr.vecMove, Instr.vecPackMx, Instr.vecAbs],
    ∀ (t : Nat) (d : Fin 4) (slot : BitVec 96) (s : State),
    (s.vecRuns (s.steerStack d) = false → answers (exec (i t d slot) s) fun u => regsKeptOnly [] s u ∧ memKept s u) ∧
    (s.vecRuns (s.steerStack d) = true → s.steerStack d < 4 → s.reg (Reg.ERR_INJ (0x30 + s.steerStack d)) % 4 ≠ 0 →
      answers (exec (i t d slot) s) fun u => u.stackFailed (s.steerStack d) = true))

/-! ## Engines, data movement and the memories (R107 to R150) -/

/-- The engine slots: the command, its engine, its op code and its slot's bits. -/
def engineRows (t c : Nat) (ch : Fin 4) (w : BitVec 48) : List (Instr × Nat × Nat × Nat) :=
  [(.fftLoad t c w, 0, 1, w.toNat), (.fftXform t c w, 0, 2, w.toNat), (.fftStore t c w, 0, 3, w.toNat),
   (.qpeLoad t c w, 1, 1, w.toNat), (.qpeIter t c w, 1, 2, w.toNat), (.qpeStore t c w, 1, 3, w.toNat),
   (.estPredict t c w, 2, 1, w.toNat), (.estUpdate t c w, 2, 2, w.toNat),
   (.mrgMerge t c (w.setWidth 32), 3, 1, w.toNat % 2 ^ 32),
   (.intSpans t c w, 4, 1, w.toNat), (.intAcc t c w, 4, 2, w.toNat), (.intRead t c w, 4, 3, w.toNat), (.intCoef t c w, 4, 4, w.toNat),
   (.hstAcc t c (w.setWidth 32), 5, 1, w.toNat % 2 ^ 32), (.hstRead t c (w.setWidth 32), 5, 2, w.toNat % 2 ^ 32),
   (.splTable t c (w.setWidth 32), 6, 1, w.toNat % 2 ^ 32), (.splEval1 t c (w.setWidth 32), 6, 2, w.toNat % 2 ^ 32),
   (.splEval2 t c (w.setWidth 32), 6, 3, w.toNat % 2 ^ 32),
   (.selTopk t c (w.setWidth 32), 7, 1, w.toNat % 2 ^ 32), (.selQuant t c (w.setWidth 32), 7, 2, w.toNat % 2 ^ 32),
   (.hshLeaf t c (w.setWidth 32), 8, 1, w.toNat % 2 ^ 32), (.hshNode t c (w.setWidth 32), 8, 2, w.toNat % 2 ^ 32),
   (.dmaCopy t c ch (w.setWidth 40), 9 + ch.val, 1, w.toNat % 2 ^ 40), (.dmaGather t c ch (w.setWidth 40), 9 + ch.val, 2, w.toNat % 2 ^ 40),
   (.dmaScatter t c ch (w.setWidth 40), 9 + ch.val, 3, w.toNat % 2 ^ 40), (.dmaTileIn t c ch (w.setWidth 40), 9 + ch.val, 4, w.toNat % 2 ^ 40),
   (.dmaTileOut t c ch (w.setWidth 40), 9 + ch.val, 5, w.toNat % 2 ^ 40),
   (.ingCopy t c (w.setWidth 32), 13, 1, w.toNat % 2 ^ 32),
   (.egrRef t c (w.setWidth 32), 14, 1, w.toNat % 2 ^ 32), (.egrPlan t c (w.setWidth 32), 14, 2, w.toNat % 2 ^ 32),
   (.egrStrand t c (w.setWidth 32), 14, 3, w.toNat % 2 ^ 32), (.egrChain t c (w.setWidth 32), 14, 4, w.toNat % 2 ^ 32),
   (.egrSlot t c (w.setWidth 32), 14, 5, w.toNat % 2 ^ 32)]

/-- The descriptor that a slot of engine `e` names. -/
def descNamed (s : State) (e x : Nat) : Desc := s.descOf e (EngOp.ofBits e x).desc

/-- Byte addresses of a slot's input and output. -/
def inAt (s : State) (e x : Nat) : Nat := ((descNamed s e x).inAddr + (EngOp.ofBits e x).arg) * 64
def outAt (s : State) (e x : Nat) : Nat := ((descNamed s e x).outAddr + (EngOp.ofBits e x).arg) * 64

/-- The status granule of a slot lies outside `n` bytes at `a`, or there is none. -/
def statusApart (s : State) (e x a n : Nat) : Prop :=
  (descNamed s e x).stsAddr = 2 ^ 32 - 1 ∨ (descNamed s e x).stsAddr * 64 + 64 ≤ a ∨ a + n ≤ (descNamed s e x).stsAddr * 64

/-- No byte of memory moves but the slot's status granule and the ranges given as (start, length). -/
def memKeptButStatus (s u : State) (e x : Nat) (l : List (Nat × Nat)) : Prop :=
  memKeptOutside (((descNamed s e x).stsAddr * 64, 64) :: l) s u

/-- R117, R118, R148: a slot that meets its engine busy is dropped and counted in ENG_DROP, and changes nothing else. A slot that
meets it free runs: OPS rises by one, ENG_STS names the op and its descriptor, the engine is busy to the end of its plan, and the
status granule holds the frame, the op, the descriptor and DONE; of the registers only the engine's counters and those of
what it met move. -/
def Obligations.EngineSlotsRunOrAreDropped : Prop :=
  (∀ (t c : Nat) (ch : Fin 4) (w : BitVec 48) (s : State), ∀ p ∈ engineRows t c ch w, s.absCyc c < s.freeCyc p.2.1 →
    answers (exec p.1 s) fun u =>
      u.reg (engReg p.2.1 0x108) = min (s.reg (engReg p.2.1 0x108) + 1) (2 ^ 32 - 1) ∧ u.eng = s.eng ∧
      regsKept (engReg p.2.1 0 / 4096) [engReg p.2.1 0x108] s u ∧ memKept s u) ∧
  (∀ (t c : Nat) (ch : Fin 4) (w : BitVec 48) (s : State), ∀ p ∈ engineRows t c ch w, ¬ s.absCyc c < s.freeCyc p.2.1 →
    answers (exec p.1 s) fun u =>
      let e := p.2.1
      let o := { EngOp.ofBits e p.2.2.2 with op := p.2.2.1 }
      let d := s.descOf e o.desc
      u.reg (engReg e 0x104) = min (s.reg (engReg e 0x104) + 1) (2 ^ 32 - 1) ∧
      u.fld (engReg e 0x100) 8 8 = p.2.2.1 ∧ u.fld (engReg e 0x100) 16 8 = o.desc ∧
      u.freeCyc e = s.absCyc (opPlan e c (fun k => srcLe s.descSrc (indexOff (e - 9) k) 4) o d).free ∧
      (opStatus e p.2.2.1 d = true →
        u.bytes (d.stsAddr * 64) 10 = leBytes 8 s.seq.body.frame ++ leBytes 1 p.2.2.1 ++ leBytes 1 o.desc ∧
        (u.byte (d.stsAddr * 64 + 10)).getLsbD 0 = true) ∧
      regsKeptP [engReg e 0 / 4096, 0x10, 0x50, 0x53] [engReg e 0x100, engReg e 0x104, engReg e 0x10C, engReg e 0x110, engReg e 0x114, engReg e 0x120, Reg.SHM_POISON_RD,
        Reg.SEQ_WITHHELD, Reg.EGR_DROP, Reg.ING_CARRY] s u)

/-- R119, R120, R124, R125: what the arithmetic engines hold and write. FFT takes its points, transforms them and stores them; QPE takes
its problem, iterates it exactly ARG2 times (not at all where it is infeasible) and stores its iterates; EST works every
model in its place; after poison the outputs are NaN. -/
def Obligations.FftQpeAndEstGiveTheirResults : Prop :=
  (∀ (t c : Nat) (w : BitVec 48) (s : State), ¬ s.absCyc c < s.freeCyc 0 →
    let d := descNamed s 0 w.toNat
    let pts := (pairUp (words32 (s.bytes (inAt s 0 w.toNat) (d.p 1 * d.p 0 / 8 * 64)))).take (d.p 0 * d.p 1)
    answers (exec (.fftLoad t c w) s) fun u =>
      u.eng.fft.n = d.p 0 ∧ u.eng.fft.b = d.p 1 ∧ u.eng.fft.inverse = bitOf d.flags 0 ∧
      (bitOf d.flags 1 = false → u.eng.fft.data = pts ∧
        u.eng.fft.poison = decide (0 < s.poisonWords (inAt s 0 w.toNat) (d.p 1 * d.p 0 / 8 * 64))) ∧
      (bitOf d.flags 1 = true → u.eng.fft.data = (List.range pts.length).zipWith (fun i x =>
        let k := (words32 (s.bytes (d.auxAddr * 64) (d.p 0 / 16 * 64))).getD (i % d.p 0) 0
        (mul32 x.1 k, mul32 x.2 k)) pts) ∧ memKept s u) ∧
  (∀ (t c : Nat) (w : BitVec 48) (s : State), ¬ s.absCyc c < s.freeCyc 0 →
    let d := descNamed s 0 w.toNat
    answers (exec (.fftXform t c w) s) fun u =>
      u.eng.fft = { s.eng.fft with
        data := ((pieces (d.p 0) (d.p 1) s.eng.fft.data).map (fftOne (d.p 0) (bitOf d.flags 0))).flatten } ∧ memKept s u) ∧
  (∀ (t c : Nat) (w : BitVec 48) (s : State), ¬ s.absCyc c < s.freeCyc 0 →
    let d := descNamed s 0 w.toNat
    let n := d.p 0 * d.p 1
    statusApart s 0 w.toNat (outAt s 0 w.toNat) (8 * n) →
    answers (exec (.fftStore t c w) s) fun u =>
      (∀ i < n, u.bytes (outAt s 0 w.toNat + 8 * i) 8 =
        let x := if s.eng.fft.poison then (nan32, nan32) else s.eng.fft.data.getD i (0, 0)
        leBytes 4 x.1 ++ leBytes 4 x.2) ∧
      u.eng.fft = s.eng.fft ∧ memKeptButStatus s u 0 w.toNat [(outAt s 0 w.toNat, 8 * n)]) ∧
  (∀ (t c : Nat) (w : BitVec 48) (s : State), ¬ s.absCyc c < s.freeCyc 1 →
    let d := descNamed s 1 w.toNat
    answers (exec (.qpeLoad t c w) s) fun u =>
      let q := u.eng.qp
      q.n = qpN d ∧ q.w = qpW d ∧ q.mD = qpMD d ∧ q.mG = qpMG d ∧ q.cg = qpCg d ∧ q.iters = 0 ∧
      q.infeasible = (vmap2 (fun l u => b2n (lt32 u l)) q.lo q.hi).any (· = 1) ∧
      (bitOf d.flags 0 = true → q.x = s.eng.qp.x ∧ q.z = s.eng.qp.z ∧ q.y = s.eng.qp.y) ∧
      (bitOf d.flags 0 = false → q.x = List.replicate q.n 0 ∧ q.z = vmap2 (fun l u => clamp32 0 l u) q.lo q.hi ∧
        q.y = List.replicate q.lo.length 0) ∧ memKeptButStatus s u 1 w.toNat []) ∧
  (∀ (t c : Nat) (w : BitVec 48) (s : State), ¬ s.absCyc c < s.freeCyc 1 →
    answers (exec (.qpeIter t c w) s) fun u =>
      let k := (EngOp.ofBits 1 w.toNat).arg2
      (s.eng.qp.infeasible = false → u.eng.qp = QpSt.iterN k s.eng.qp) ∧
      (s.eng.qp.infeasible = true → u.eng.qp = { s.eng.qp with iters := s.eng.qp.iters + k }) ∧ memKept s u) ∧
  (∀ (t c : Nat) (w : BitVec 48) (s : State), ¬ s.absCyc c < s.freeCyc 1 →
    let q := s.eng.qp
    let f (l : List Nat) : List Nat := if q.poison then l.map (fun _ => nan32) else l.map canon32
    let out := granVals (f q.x) ++ granVals (f q.y) ++ granVals (f q.z)
    statusApart s 1 w.toNat (outAt s 1 w.toNat) out.length →
    answers (exec (.qpeStore t c w) s) fun u =>
      u.bytes (outAt s 1 w.toNat) out.length = out ∧ u.eng.qp = q ∧
      memKeptButStatus s u 1 w.toNat [(outAt s 1 w.toNat, out.length)]) ∧
  (∀ (t c : Nat) (w : BitVec 48) (s : State), ¬ s.absCyc c < s.freeCyc 2 → (descNamed s 2 w.toNat).p 2 = 1 →
    let d := descNamed s 2 w.toNat
    let a := inAt s 2 w.toNat
    let b := s.estRead a
    statusApart s 2 w.toNat (outAt s 2 w.toNat) 256 →
    (s.poisonedIn a 256 || s.poisonedIn (d.auxAddr * 64) 512) = false →
    answers (exec (.estPredict t c w) s) fun u =>
      (∀ i < 8, u.le (outAt s 2 w.toNat + 4 * i) 4 = canon32 (fe (estPredict s (d.p 0) (d.auxAddr * 64) b).1.x i) % 2 ^ 32) ∧
      memKeptButStatus s u 2 w.toNat [(outAt s 2 w.toNat, 256)]) ∧
  (∀ (t c : Nat) (w : BitVec 48) (s : State), ¬ s.absCyc c < s.freeCyc 2 → (descNamed s 2 w.toNat).p 2 = 1 →
    let d := descNamed s 2 w.toNat
    let a := inAt s 2 w.toNat
    let b := s.estRead a
    statusApart s 2 w.toNat (outAt s 2 w.toNat) 256 →
    (s.poisonedIn a 256 || s.poisonedIn (d.auxAddr * 64) 192) = false →
    answers (exec (.estUpdate t c w) s) fun u =>
      (∀ i < 8, u.le (outAt s 2 w.toNat + 4 * i) 4 =
        canon32 (fe (estUpdate s (d.p 0) (d.p 1) (d.p 3) (d.p 4) (d.auxAddr * 64) b).1.x i) % 2 ^ 32) ∧
      memKeptButStatus s u 2 w.toNat [(outAt s 2 w.toNat, 256)])

/-- R127 to R133: the engines that sort, sum, count, interpolate, select and hash. MERGE writes the number merged, the records in key
order and all-ones places after them; INT credits spans and reads them out, closed spans freed; HST counts and clears;
SPL keeps its table and writes values and radii; SEL writes its k values and indices; HSH writes digests. -/
def Obligations.MergeToHashGiveTheirResults : Prop :=
  (∀ (t c : Nat) (w : Word) (s : State), ¬ s.absCyc c < s.freeCyc 3 →
    let d := descNamed s 3 w.toNat
    let o := { EngOp.ofBits 3 w.toNat with op := 1 }
    let raised := ((List.range (d.p 1)).map (mrgInput s o d)).map (fun x => raiseKeys x.1 (0, 0, 0) 0)
    let merged := raised.foldl (fun acc x => mergeTwo (acc.length + x.1.length) acc x.1) []
    let out := fitBytes 64 (leBytes 4 merged.length) ++ (merged.map (·.data)).flatten ++
      List.replicate ((d.p 1 * d.p 3 - merged.length) * d.p 0) 0xFF#8
    statusApart s 3 w.toNat (outAt s 3 w.toNat) out.length →
    answers (exec (.mrgMerge t c w) s) fun u =>
      u.bytes (outAt s 3 w.toNat) out.length = out ∧ memKeptButStatus s u 3 w.toNat [(outAt s 3 w.toNat, out.length)]) ∧
  (∀ (t c : Nat) (w : BitVec 48) (s : State), ¬ s.absCyc c < s.freeCyc 4 →
    let d := descNamed s 4 w.toNat
    let a := d.auxAddr * 64 + 64
    d.auxLen = 2 → s.le (d.auxAddr * 64) 4 = 1 → s.le (a + 2) 2 < 4096 →
    answers (exec (.intSpans t c w) s) fun u =>
      let i := s.le (a + 2) 2
      let wt := min (s.le (a + 6) 2) 0x8000
      (s.byte a = 0#8 → s.span i = none →
        u.span i = some ⟨(s.byte (a + 4)).toNat, s.le (a + 8) 8, none, wt, 0, 0, 0, 0⟩) ∧
      (∀ x, s.byte a = 1#8 → s.span i = some x → u.span i = some { x with stop := some (s.le (a + 8) 8) }) ∧
      (∀ x, s.byte a = 2#8 → s.span i = some x → u.span i = some { x with w := wt }) ∧
      (∀ j, j ≠ i → u.span j = s.span j) ∧ memKeptButStatus s u 4 w.toNat []) ∧
  (∀ (t c : Nat) (w : BitVec 48) (s : State), ¬ s.absCyc c < s.freeCyc 4 →
    answers (exec (.intAcc t c w) s) fun u =>
      let a := inAt s 4 w.toNat
      let r := s.accFrame (a + 64) (s.le a 8) ((descNamed s 4 w.toNat).p 0)
      u.eng.spans = r.1.eng.spans ∧
      (0 < r.2 → u.reg (engReg 4 0x114) = min (s.reg (engReg 4 0x114) + r.2) (2 ^ 32 - 1)) ∧ memKeptButStatus s u 4 w.toNat []) ∧
  (∀ (t c : Nat) (w : BitVec 48) (s : State), ¬ s.absCyc c < s.freeCyc 4 →
    let d := descNamed s 4 w.toNat
    let all := bitOf d.flags 0
    let out := (s.eng.spans.filter (fun x => if all then x.2.energy ≠ 0 || x.2.unc ≠ 0 else x.2.stop.isSome)).take d.outLen
    let b := (out.map (fun x => spanRecord x.1 x.2)).flatten
    statusApart s 4 w.toNat (outAt s 4 w.toNat) b.length →
    answers (exec (.intRead t c w) s) fun u =>
      u.bytes (outAt s 4 w.toNat) b.length = b ∧
      (∀ i, (∀ x ∈ out, x.1 ≠ i) → u.span i = s.span i) ∧
      (∀ x, out.getLast? = some x → u.span x.1 = spanAfterRead x.2) ∧
      memKeptButStatus s u 4 w.toNat [(outAt s 4 w.toNat, b.length)]) ∧
  (∀ (t c : Nat) (w : BitVec 48) (s : State), ¬ s.absCyc c < s.freeCyc 4 →
    let d := descNamed s 4 w.toNat
    let a := d.auxAddr * 64
    answers (exec (.intCoef t c w) s) fun u =>
      (∀ i, sparseGet (fun _ => (0, 0)) u.eng.coef i =
        if i < min (128 * 48) (d.auxLen * 4) then (s.le (a + 16 * i) 8, s.le (a + 16 * i + 8) 2)
        else sparseGet (fun _ => (0, 0)) s.eng.coef i) ∧ memKeptButStatus s u 4 w.toNat []) ∧
  (∀ (t c : Nat) (w : Word) (s : State), ¬ s.absCyc c < s.freeCyc 5 →
    let d := descNamed s 5 w.toNat
    let a := inAt s 5 w.toNat
    let short := bitOf d.flags 1
    let per := if short then 2 else 4
    answers (exec (.hstAcc t c w) s) fun u =>
      u.hstSet (d.p 0) = (List.range (min (s.le (a + 8) 4) ((d.inLen - 1) * 64 / per))).foldl (fun h k =>
        let b := a + 64 + per * k
        let x := if s.poisoned b then nan32 else if short then rn32 (Fv.ofInt (sext 16 (s.le b 2))) else s.le b 4
        hstAdd (d.p 1) (d.p 2) (d.p 3) h x (s.le a 8 + k * d.p 4)) (s.hstSet (d.p 0)) ∧
      (∀ j, j ≠ d.p 0 → u.hstSet j = s.hstSet j) ∧ memKeptButStatus s u 5 w.toNat []) ∧
  (∀ (t c : Nat) (w : Word) (s : State), ¬ s.absCyc c < s.freeCyc 5 →
    let d := descNamed s 5 w.toNat
    let h := s.hstSet (d.p 0)
    statusApart s 5 w.toNat (outAt s 5 w.toNat) (4 * d.p 1 + 64) →
    answers (exec (.hstRead t c w) s) fun u =>
      (∀ k < d.p 1, u.le (outAt s 5 w.toNat + 4 * k) 4 = sparseGet (fun _ => 0) h.bins k % 2 ^ 32) ∧
      u.le (outAt s 5 w.toNat + 4 * d.p 1) 4 = h.under % 2 ^ 32 ∧ u.le (outAt s 5 w.toNat + 4 * d.p 1 + 4) 4 = h.ovr % 2 ^ 32 ∧
      u.le (outAt s 5 w.toNat + 4 * d.p 1 + 8) 4 = h.nan % 2 ^ 32 ∧ u.le (outAt s 5 w.toNat + 4 * d.p 1 + 12) 4 = h.count % 2 ^ 32 ∧
      u.hstSet (d.p 0) = HstSet.empty ∧ (∀ j, j ≠ d.p 0 → u.hstSet j = s.hstSet j) ∧
      memKeptButStatus s u 5 w.toNat [(outAt s 5 w.toNat, 4 * d.p 1 + 64)]) ∧
  (∀ (t c : Nat) (w : Word) (s : State), ¬ s.absCyc c < s.freeCyc 6 →
    let d := descNamed s 6 w.toNat
    answers (exec (.splTable t c w) s) fun u =>
      u.splTab (d.p 0) = s.readSpline (d.auxAddr * 64) ∧ (∀ j, j ≠ d.p 0 → u.splTab j = s.splTab j) ∧
      memKeptButStatus s u 6 w.toNat []) ∧
  (∀ (t c : Nat) (w : Word) (s : State), ¬ s.absCyc c < s.freeCyc 6 →
    let d := descNamed s 6 w.toNat
    bitOf d.flags 0 = false → statusApart s 6 w.toNat (outAt s 6 w.toNat) (4 * d.p 1) →
    answers (exec (.splEval1 t c w) s) fun u =>
      (∀ i < d.p 1, u.le (outAt s 6 w.toNat + 4 * i) 4 =
        (eval1 (s.splTab (d.p 0)) (s.f32At (inAt s 6 w.toNat + 4 * i)) 0).y % 2 ^ 32) ∧
      u.eng.spl = s.eng.spl ∧ memKeptButStatus s u 6 w.toNat [(outAt s 6 w.toNat, 4 * d.p 1)]) ∧
  (∀ (t c : Nat) (w : Word) (s : State), ¬ s.absCyc c < s.freeCyc 6 →
    let d := descNamed s 6 w.toNat
    let pl := cdiv (d.p 1 * 4) 64 * 64
    bitOf d.flags 0 = true → statusApart s 6 w.toNat (outAt s 6 w.toNat) (2 * pl) →
    answers (exec (.splEval1 t c w) s) fun u =>
      (∀ i < d.p 1, u.le (outAt s 6 w.toNat + pl + 4 * i) 4 =
        (eval1 (s.splTab (d.p 0)) (s.f32At (inAt s 6 w.toNat + 4 * i)) (s.f32At (inAt s 6 w.toNat + pl + 4 * i))).r % 2 ^ 32) ∧
      memKeptButStatus s u 6 w.toNat [(outAt s 6 w.toNat, 2 * pl)]) ∧
  (∀ (t c : Nat) (w : Word) (s : State), ¬ s.absCyc c < s.freeCyc 6 →
    let d := descNamed s 6 w.toNat
    let pl := cdiv (d.p 1 * 4) 64 * 64
    let a := inAt s 6 w.toNat
    bitOf d.flags 0 = false → statusApart s 6 w.toNat (outAt s 6 w.toNat) (4 * d.p 1) →
    answers (exec (.splEval2 t c w) s) fun u =>
      (∀ i < d.p 1, u.le (outAt s 6 w.toNat + 4 * i) 4 =
        (eval2 (s.splTab (d.p 0)) (s.f32At (a + 4 * i)) (s.f32At (a + (pl + 4 * i))) 0 0).y % 2 ^ 32) ∧
      memKeptButStatus s u 6 w.toNat [(outAt s 6 w.toNat, 4 * d.p 1)]) ∧
  (∀ (t c : Nat) (w : Word) (s : State), ¬ s.absCyc c < s.freeCyc 7 →
    let d := descNamed s 7 w.toNat
    let a := inAt s 7 w.toNat
    let l := selSort (bitOf d.flags 0) ((words32 (s.bytes a (d.inLen * 64))).take (d.p 1))
    statusApart s 7 w.toNat (outAt s 7 w.toNat) (8 * d.p 0) → s.poisonWords a (d.inLen * 64) = 0 →
    answers (exec (.selTopk t c w) s) fun u =>
      (∀ (i : Nat) (m : Nat × Nat), i < d.p 0 → l[i]? = some m → u.le (outAt s 7 w.toNat + 4 * i) 4 = m.1 % 2 ^ 32 ∧
        u.le (outAt s 7 w.toNat + 4 * d.p 0 + 4 * i) 4 = m.2 % 2 ^ 32) ∧
      memKeptButStatus s u 7 w.toNat [(outAt s 7 w.toNat, 8 * d.p 0)]) ∧
  (∀ (t c : Nat) (w : Word) (s : State), ¬ s.absCyc c < s.freeCyc 7 →
    let d := descNamed s 7 w.toNat
    let a := inAt s 7 w.toNat
    let l := selSort true ((words32 (s.bytes a (d.inLen * 64))).take (d.p 1))
    let ps := (words32 (s.bytes (d.auxAddr * 64) (d.auxLen * 64))).take (d.p 0)
    statusApart s 7 w.toNat (outAt s 7 w.toNat) (8 * ps.length) → s.poisonWords a (d.inLen * 64) = 0 →
    s.poisonWords (d.auxAddr * 64) (d.auxLen * 64) = 0 →
    answers (exec (.selQuant t c w) s) fun u =>
      (∀ (i p : Nat), ps[i]? = some p → p = 0 → ∀ m, l.head? = some m →
        u.le (outAt s 7 w.toNat + 4 * i) 4 = m.1 % 2 ^ 32 ∧ u.le (outAt s 7 w.toNat + 4 * ps.length + 4 * i) 4 = m.2 % 2 ^ 32) ∧
      memKeptButStatus s u 7 w.toNat [(outAt s 7 w.toNat, 8 * ps.length)]) ∧
  (∀ (t c : Nat) (w : Word) (s : State), ¬ s.absCyc c < s.freeCyc 8 →
    let d := descNamed s 8 w.toNat
    let g := cdiv (d.p 1) 64
    let out := ((List.range (d.p 0)).map (fun i => sha256 (0#8 :: s.bytes (inAt s 8 w.toNat + i * g * 64) (d.p 1)))).flatten
    statusApart s 8 w.toNat (outAt s 8 w.toNat) out.length →
    answers (exec (.hshLeaf t c w) s) fun u =>
      u.bytes (outAt s 8 w.toNat) out.length = out ∧ memKeptButStatus s u 8 w.toNat [(outAt s 8 w.toNat, out.length)]) ∧
  (∀ (t c : Nat) (w : Word) (s : State), ¬ s.absCyc c < s.freeCyc 8 →
    let d := descNamed s 8 w.toNat
    let out := (merkleLevel (pieces 32 (d.p 0) (s.bytes (inAt s 8 w.toNat) (cdiv (d.p 0) 2 * 64)))).flatten
    statusApart s 8 w.toNat (outAt s 8 w.toNat) out.length →
    answers (exec (.hshNode t c w) s) fun u =>
      u.bytes (outAt s 8 w.toNat) out.length = out ∧ memKeptButStatus s u 8 w.toNat [(outAt s 8 w.toNat, out.length)])

/-- A move of a list whose destination no other move of the list writes and whose source none of them writes; `src` and `dst` give the
byte addresses of its two granule numbers. -/
def movesAlone (mv : List (Nat × Nat)) (src dst : Nat → Nat) (m : Nat × Nat) : Prop :=
  m ∈ mv ∧ ∀ n ∈ mv, (dst n.2 = dst m.2 → n = m) ∧ dst n.2 ≠ src m.1

/-- R119, R134 to R136, R138: DMA moves its granules in order, poison with the data; an asynchronous transfer is queued, or answered with
TRUNC where 16 wait, and completes from the head of its queue; COPY takes the flits of its ring up to its quota; the egress
ops queue whole messages or drop and count them. -/
def Obligations.DmaIngressAndEgressMoveTheirData : Prop :=
  (∀ (t c : Nat) (ch : Fin 4) (w : BitVec 40) (s : State), ¬ s.absCyc c < s.freeCyc (9 + ch) →
    ∀ p ∈ [(Instr.dmaCopy t c ch w, 1), (.dmaGather t c ch w, 2), (.dmaScatter t c ch w, 3)],
    let d := descNamed s (9 + ch) w.toNat
    let mv := dmaMoves (fun k => srcLe s.descSrc (indexOff ch k) 4) { EngOp.ofBits (9 + ch) w.toNat with op := p.2 } d
    answers (exec p.1 s) fun u =>
      (∀ m ∈ mv, movesAlone mv (· * 64) (· * 64) m → (d.stsAddr = 2 ^ 32 - 1 ∨ d.stsAddr ≠ m.2) →
        u.bytes (m.2 * 64) 64 = s.bytes (m.1 * 64) 64 ∧
        ∀ k < 8, u.poisoned (m.2 * 64 + 8 * k) = s.poisoned (m.1 * 64 + 8 * k)) ∧
      memKeptButStatus s u (9 + ch) w.toNat (mv.map (fun m => (m.2 * 64, 64)))) ∧
  (∀ (t c : Nat) (ch : Fin 4) (w : BitVec 40) (s : State), ¬ s.absCyc c < s.freeCyc (9 + ch) →
    let o := { EngOp.ofBits (9 + ch) w.toNat with op := 4 }
    let d := descNamed s (9 + ch) w.toNat
    let mv := dmaMoves (fun k => srcLe s.descSrc (indexOff ch k) 4) o d
    let die := s.steerStack (o.arg2 % 4)
    answers (exec (.dmaTileIn t c ch w) s) fun u =>
      (∀ m ∈ mv, movesAlone mv (· * 64) (dieAddr die) m → (d.stsAddr = 2 ^ 32 - 1 ∨ d.stsAddr * 64 ≠ dieAddr die m.2) →
        u.bytes (dieAddr die m.2) 64 =
        if s.poisonedIn (m.1 * 64) 64 then unwords (List.replicate 16 nan32) else s.bytes (m.1 * 64) 64) ∧
      memKeptButStatus s u (9 + ch) w.toNat (mv.map (fun m => (dieAddr die m.2, 64)))) ∧
  (∀ (t c : Nat) (ch : Fin 4) (w : BitVec 40) (s : State), ¬ s.absCyc c < s.freeCyc (9 + ch) →
    let o := { EngOp.ofBits (9 + ch) w.toNat with op := 5 }
    let d := descNamed s (9 + ch) w.toNat
    let mv := dmaMoves (fun k => srcLe s.descSrc (indexOff ch k) 4) o d
    let die := s.steerStack (o.arg2 % 4)
    answers (exec (.dmaTileOut t c ch w) s) fun u =>
      (∀ m ∈ mv, movesAlone mv (dieAddr die) (· * 64) m → (d.stsAddr = 2 ^ 32 - 1 ∨ d.stsAddr ≠ m.2) →
        u.bytes (m.2 * 64) 64 = s.bytes (dieAddr die m.1) 64) ∧
      memKeptButStatus s u (9 + ch) w.toNat (mv.map (fun m => (m.2 * 64, 64)))) ∧
  (∀ (t c : Nat) (ch : Fin 4) (w : BitVec 40) (s : State), ¬ s.absCyc c < s.freeCyc (9 + ch) → s.eng.async[ch].length < 16 →
    ∀ p ∈ [(Instr.dmaMrRead t c ch w, true), (.dmaMrWrite t c ch w, false)],
    answers (exec p.1 s) fun u =>
      let d := descNamed s (9 + ch) w.toNat
      u.eng.async[ch] = s.eng.async[ch] ++ [⟨p.2, if p.2 then outAt s (9 + ch) w.toNat else inAt s (9 + ch) w.toNat,
        d.p 5 * 2 ^ 32 + d.p 4, (if p.2 then d.outLen else d.inLen) * 64, d.stsAddr, (EngOp.ofBits (9 + ch) w.toNat).desc,
        s.seq.body.frame⟩] ∧
      regsKeptOnly [Reg.DMA_ASYNC_DEPTH ch] s u ∧ memKept s u) ∧
  (∀ (t c : Nat) (ch : Fin 4) (w : BitVec 40) (s : State),
    (s.absCyc c < s.freeCyc (9 + ch) → ∀ i ∈ [Instr.dmaMrRead t c ch w, .dmaMrWrite t c ch w], answers (exec i s) fun u =>
      u.reg (engReg (9 + ch) 0x108) = min (s.reg (engReg (9 + ch) 0x108) + 1) (2 ^ 32 - 1) ∧ u.eng = s.eng ∧ memKept s u) ∧
    (¬ s.absCyc c < s.freeCyc (9 + ch) → 16 ≤ s.eng.async[ch].length → ∀ i ∈ [Instr.dmaMrRead t c ch w, .dmaMrWrite t c ch w],
      answers (exec i s) fun u =>
        u.eng.async = s.eng.async ∧ u.reg (engReg (9 + ch) 0x104) = min (s.reg (engReg (9 + ch) 0x104) + 1) (2 ^ 32 - 1) ∧
        u.bit (engReg (9 + ch) 0x100) 3 = true ∧ memKeptButStatus s u (9 + ch) w.toNat [])) ∧
  (∀ (t : Nat) (ch : Fin 4) (x : AsyncX) (rest : List AsyncX) (s : State), s.eng.async[ch] = x :: rest →
    answers (exec (.dmaAsyncDone t ch) s) fun u =>
      u.eng.async[ch] = rest ∧ u.eng.asyncSeq[ch] = s.eng.asyncSeq[ch] + 1 ∧
      u.reg (Reg.DMA_ASYNC_DONE ch) = min (s.reg (Reg.DMA_ASYNC_DONE ch) + 1) (2 ^ 32 - 1) ∧
      (x.len = 64 → s.mrOk x.mr = true → s.mrOk (x.mr + 63) = true → x.sts = 2 ^ 32 - 1 →
        (x.read = true → u.bytes x.shm 64 = s.bytes x.mr 64) ∧ (x.read = false → u.bytes x.mr 64 = s.bytes x.shm 64)) ∧
      (x.sts ≠ 2 ^ 32 - 1 → u.le (x.sts * 64 + 12) 4 = (s.eng.asyncSeq[ch] + 1) % 2 ^ 32)) ∧
  (∀ (t c : Nat) (w : Word) (s : State), ¬ s.absCyc c < s.freeCyc 13 →
    let d := descNamed s 13 w.toNat
    let p := if 0x40 ≤ d.p 0 then 32 + d.p 0 % 2 else d.p 0 % 32
    let n := min (at32 s.eng.ringPublished p - at32 s.eng.ringCopied p) (d.p 1)
    answers (exec (.ingCopy t c w) s) fun u =>
      at32 u.eng.ringCopied p = at32 s.eng.ringCopied p + n ∧
      (∀ j, j ≠ p → at32 u.eng.ringCopied j = at32 s.eng.ringCopied j) ∧
      (n < at32 s.eng.ringPublished p - at32 s.eng.ringCopied p → u.reg Reg.ING_CARRY =
        min (s.reg Reg.ING_CARRY + (at32 s.eng.ringPublished p - at32 s.eng.ringCopied p - n)) (2 ^ 32 - 1)) ∧
      (statusApart s 13 w.toNat (outAt s 13 w.toNat) (256 * n) →
        (outAt s 13 w.toNat + 256 * n ≤ ringAddr p 0 ∨ ringAddr p 0 + 0x40000 ≤ outAt s 13 w.toNat) →
        ∀ i < n, u.bytes (outAt s 13 w.toNat + 256 * i) 256 = s.bytes (ringAddr p (at32 s.eng.ringCopied p + i)) 256) ∧
      (statusApart s 13 w.toNat (outAt s 13 w.toNat + 256 * n) (256 * (d.p 1 - n)) →
        ∀ i < 256 * (d.p 1 - n), u.byte (outAt s 13 w.toNat + 256 * n + i) = 0#8) ∧
      memKeptButStatus s u 13 w.toNat [(outAt s 13 w.toNat, 256 * d.p 1)]) ∧
  (∀ (t c : Nat) (w : Word) (s : State), ¬ s.absCyc c < s.freeCyc 14 →
    let d := descNamed s 14 w.toNat
    let g := inAt s 14 w.toNat
    (s.seq.withheld = false → answers (exec (.egrRef t c w) s) fun u =>
      u.eng.refOut = some (s.bytes g 64, decide (0 < s.poisonWords g 64)) ∧ memKeptButStatus s u 14 w.toNat []) ∧
    (s.seq.withheld = true → answers (exec (.egrRef t c w) s) fun u =>
      u.eng.refOut = s.eng.refOut ∧ u.reg Reg.SEQ_WITHHELD = min (s.reg Reg.SEQ_WITHHELD + 1) (2 ^ 32 - 1) ∧
      memKeptButStatus s u 14 w.toNat []) ∧
    (answers (exec (.egrPlan t c w) s) fun u =>
      u.eng.planOut = pieces 64 (d.p 0) (s.bytes g (d.p 0 * 64)) ∧ memKeptButStatus s u 14 w.toNat [])) ∧
  (∀ (t c : Nat) (w : Word) (s : State), ¬ s.absCyc c < s.freeCyc 14 →
    let d := descNamed s 14 w.toNat
    let g := inAt s 14 w.toNat / 64
    let l := s.egrInput g 256 (min (d.inLen / 4) 16)
    let m := s.egrInput g 64 (min d.inLen 64)
    (∀ q : Fin 32, d.p 0 = q.val →
      (s.eng.strandQ[q].length + l.length ≤ 64 → answers (exec (.egrStrand t c w) s) fun u =>
        u.eng.strandQ[q] = s.eng.strandQ[q] ++ l ∧ memKeptButStatus s u 14 w.toNat []) ∧
      (64 < s.eng.strandQ[q].length + l.length → answers (exec (.egrStrand t c w) s) fun u =>
        u.eng.strandQ = s.eng.strandQ ∧ u.reg Reg.EGR_DROP = min (s.reg Reg.EGR_DROP + 1) (2 ^ 32 - 1))) ∧
    (d.p 0 = 0 → s.eng.chainQ[0].length + l.length ≤ 64 → answers (exec (.egrChain t c w) s) fun u =>
      u.eng.chainQ[0] = s.eng.chainQ[0] ++ l ∧ u.eng.chainQ[1] = s.eng.chainQ[1] ∧ memKeptButStatus s u 14 w.toNat []) ∧
    (d.p 0 = 1 → s.eng.chainQ[1].length + l.length ≤ 64 → answers (exec (.egrChain t c w) s) fun u =>
      u.eng.chainQ[0] = s.eng.chainQ[0] ∧ u.eng.chainQ[1] = s.eng.chainQ[1] ++ l ∧ memKeptButStatus s u 14 w.toNat []) ∧
    (d.p 0 = 2 → s.eng.chainQ[0].length + l.length ≤ 64 → s.eng.chainQ[1].length + l.length ≤ 64 →
      answers (exec (.egrChain t c w) s) fun u =>
      u.eng.chainQ[0] = s.eng.chainQ[0] ++ l ∧ u.eng.chainQ[1] = s.eng.chainQ[1] ++ l) ∧
    (s.eng.slotQ.length + m.length ≤ 256 → answers (exec (.egrSlot t c w) s) fun u =>
      u.eng.slotQ = s.eng.slotQ ++ m ∧ memKeptButStatus s u 14 w.toNat []) ∧
    (256 < s.eng.slotQ.length + m.length → answers (exec (.egrSlot t c w) s) fun u =>
      u.eng.slotQ = s.eng.slotQ ∧ u.reg Reg.EGR_DROP = min (s.reg Reg.EGR_DROP + 1) (2 ^ 32 - 1)))

/-- R107, R109 to R113, R139: a window access outside bank group 15 is refused and counted, unless it is Nugen's while the sequencer
does not run; a write stores its bytes and cancels a pending write-back of its line; a parity error, and an uncorrectable
error on a read, are counted, captured and posted. Scrubbing reads each bank's lines in order, corrects, poisons and writes
back.
R140 to R142, R144: training marks each channel present, trained and used, gives every used channel the smallest capacity and the
common rate, and sets FR_SLOTS; the patrol scrub counts what it corrects and captures the address of what it cannot. -/
def Obligations.SharedMemoryAndMrdimmAreGuarded : Prop :=
  (∀ (t : Nat) (q : WinReq) (s : State), s.winAllowed q.agent q.addr = false →
    answers (exec (.windowAccess t q) s) fun u =>
      u.reg Reg.SHM_WIN_REJ = min (s.reg Reg.SHM_WIN_REJ + 1) (2 ^ 32 - 1) ∧ u.bit Reg.SHM_STS 2 = true ∧
      regsKept 0x50 [Reg.SHM_WIN_REJ, Reg.SHM_STS] s u ∧ memKept s u ∧ u.poison = s.poison) ∧
  (∀ (t : Nat) (q : WinReq) (l : List Byte) (s : State), s.winAllowed q.agent q.addr = true → q.parity = false → q.data = some l →
    answers (exec (.windowAccess t q) s) fun u =>
      u.bytes q.addr (l.take 64).length = l.take 64 ∧ memKeptOutside [(q.addr, (l.take 64).length)] s u ∧
      (∀ b ∈ u.scrub.back, b.1 ≠ bankOf (q.addr / 64) ∨ b.2 ≠ rowOf (q.addr / 64)) ∧
      u.reg (Reg.WIN_GRANT (winNum q.agent)) = min (s.reg (Reg.WIN_GRANT (winNum q.agent)) + 1) (2 ^ 32 - 1) ∧
      regsKept 0x53 [Reg.WIN_GRANT (winNum q.agent)] s u) ∧
  (∀ (t : Nat) (q : WinReq) (s : State), s.winAllowed q.agent q.addr = true → q.parity = true →
    answers (exec (.windowAccess t q) s) fun u =>
      u.reg Reg.SHM_APAR_CNT = min (s.reg Reg.SHM_APAR_CNT + 1) (2 ^ 32 - 1) ∧ u.bit Reg.SHM_STS 1 = true ∧
      u.reg Reg.SHM_ERR_ADDR = q.addr % 2 ^ 64 ∧ u.reg Reg.SHM_ERR_STAMP = u.now % 2 ^ 64 ∧ posted 0x50 u ∧ memKept s u) ∧
  (∀ (t : Nat) (q : WinReq) (s : State), s.winAllowed q.agent q.addr = true → q.parity = false → q.data = none →
    answers (exec (.windowAccess t q) s) fun u =>
      memKept s u ∧ (q.err = .none → regsKeptP [0x53, 0x50] [Reg.WIN_GRANT (winNum q.agent), Reg.SHM_POISON_RD] s u) ∧
      (q.err = .ce → u.reg Reg.SHM_ECC_CE = min (s.reg Reg.SHM_ECC_CE + 1) (2 ^ 32 - 1)) ∧
      (q.err = .ue → u.reg Reg.SHM_ECC_UE = min (s.reg Reg.SHM_ECC_UE + 1) (2 ^ 32 - 1) ∧ u.bit Reg.SHM_STS 0 = true ∧
        u.reg Reg.SHM_ERR_ADDR = q.addr % 2 ^ 64 ∧ posted 0x50 u)) ∧
  (∀ (t : Nat) (bank : Fin 512) (err : ReadErr) (s : State), s.bit Reg.SHM_SCRUB_CTL 0 = true →
    answers (exec (.shmScrubRead t bank err) s) fun u =>
      let row := s.scrubLines bank % 32768
      u.scrubLines bank = s.scrubLines bank + 1 ∧ memKept s u ∧
      (err = .none → u.poison = s.poison ∧ regsKept 0x51 [Reg.SHM_SCRUB_PASS_CNT, Reg.SHM_SCRUB_MAX_MS] s u) ∧
      (err = .ce → (bank.val, row) ∈ u.scrub.back ∧ u.reg Reg.SHM_ECC_CE = min (s.reg Reg.SHM_ECC_CE + 1) (2 ^ 32 - 1)) ∧
      (err = .ue → (∀ k < 8, u.poisoned (granOf bank row * 64 + 8 * k) = true) ∧
        u.reg Reg.SHM_ECC_UE = min (s.reg Reg.SHM_ECC_UE + 1) (2 ^ 32 - 1) ∧ u.reg Reg.SHM_ERR_ADDR = granOf bank row * 64 % 2 ^ 64)) ∧
  (∀ (t : Nat) (bank : Fin 512) (s : State),
    answers (exec (.shmScrubWriteback t bank) s) fun u =>
      (∀ b ∈ u.scrub.back, b.1 ≠ bank.val) ∧ u.scrub.lines = s.scrub.lines ∧ u.poison = s.poison ∧ regsKeptOnly [] s u ∧ memKept s u) ∧
  (∀ (t : Nat) (d : List (Option Dimm)) (s : State),
    answers (exec (.ddcTraining t d) s) fun u =>
      let dm (c : Nat) : Option Dimm := d.getD c none
      let use := (List.range 4).filter (ddcUsed s.fx.full (fun c => trained (dm c)))
      let caps := use.filterMap (fun c => (dm c).map (·.gib))
      (∀ c < 4, u.bit (Reg.DDC_STS c) 0 = (dm c).isSome ∧ u.bit (Reg.DDC_STS c) 1 = trained (dm c) ∧
        u.bit (Reg.DDC_STS c) 2 = use.contains c ∧ u.bit (Reg.DDC_STS c) 3 = false ∧
        u.reg (Reg.DDC_CAP c) = if use.contains c then caps.foldl min (caps.headD 0) % 2 ^ 64 else 0) ∧
      u.reg Reg.FR_SLOTS = u.ringSlots % 2 ^ 64 ∧ memKept s u ∧
      regsKept 0x58 [Reg.DDC_STS 0, Reg.DDC_STS 1, Reg.DDC_STS 2, Reg.DDC_STS 3, Reg.DDC_CAP 0, Reg.DDC_CAP 1, Reg.DDC_CAP 2,
        Reg.DDC_CAP 3, Reg.FR_SLOTS] s u) ∧
  (∀ (t : Nat) (ch : Fin 4) (ce : Nat) (s : State),
    answers (exec (.ddcPatrolScrub t ch ce none) s) fun u =>
      u.reg (Reg.DDC_ECC_CE ch) = min (s.reg (Reg.DDC_ECC_CE ch) + ce) (2 ^ 32 - 1) ∧
      regsKept (0x58 + ch) [Reg.DDC_ECC_CE ch] s u ∧ memKept s u) ∧
  (∀ (t : Nat) (ch : Fin 4) (ce a : Nat) (s : State),
    answers (exec (.ddcPatrolScrub t ch ce (some a)) s) fun u =>
      u.reg (Reg.DDC_ECC_UE ch) = min (s.reg (Reg.DDC_ECC_UE ch) + 1) (2 ^ 32 - 1) ∧ u.reg (Reg.DDC_ERR_ADDR ch) = a % 2 ^ 64 ∧
      regsKept (0x58 + ch) [Reg.DDC_ECC_CE ch, Reg.DDC_ECC_UE ch, Reg.DDC_ERR_ADDR ch] s u ∧ memKept s u)

/-- R143, R145 to R147, R150: the recorder places a sample in its frame's slot by the source stamp, a late one in the late log; it
completes frames at their deadlines; a trigger while RECORDING notes its frame and cause and takes FR_POST frames more, then
the ring freezes; UNFREEZE releases it; AIR entry freezes at once and opens the AIR ring. -/
def Obligations.RecorderPlacesTriggersAndFreezes : Prop :=
  (∀ (t : Nat) (n : Fin 128) (rail : Fin 48) (stamp : Nat) (x : Word) (s : State),
    s.frRecords (stamp / 10000) = true → n.val < s.endpoints → max s.now t / 10000 < stamp / 10000 + 32 →
    answers (exec (.frMoverPlace t n rail stamp x) s) fun u =>
      (∃ y, sparseFind u.fr.slots (s.frIndex (stamp / 10000)) = some y ∧ y.frame = stamp / 10000 ∧
        sparseFind y.samples (480 * n.val + 10 * rail.val + stamp % 10000 / 1000) = some x) ∧
      (∀ k, k ≠ s.frIndex (stamp / 10000) → sparseFind u.fr.slots k = sparseFind s.fr.slots k) ∧
      regsKept 0x58 [Reg.FR_DUP_CNT] s u ∧ memKept s u) ∧
  (∀ (t : Nat) (n : Fin 128) (rail : Fin 48) (stamp : Nat) (x : Word) (s : State),
    s.frRecords (stamp / 10000) = true → n.val < s.endpoints → stamp / 10000 + 32 ≤ max s.now t / 10000 →
    answers (exec (.frMoverPlace t n rail stamp x) s) fun u =>
      u.fr.lateLog = s.fr.lateLog ++ [⟨stamp, n.val, rail.val, x⟩] ∧
      u.reg Reg.FR_LATE_CNT = min (s.reg Reg.FR_LATE_CNT + 1) (2 ^ 32 - 1) ∧ regsKept 0x58 [Reg.FR_LATE_CNT] s u ∧ memKept s u) ∧
  (∀ (t f : Nat) (s : State), s.bit Reg.FR_CTL 0 = true → f + 32 ≤ max s.now t / 10000 →
    (s.frRecords f = true → answers (exec (.frSlotDeadline t f) s) fun u =>
      (∃ y, sparseFind u.fr.slots (s.frIndex f) = some y ∧ y.frame = f ∧ y.done = true) ∧
      u.reg Reg.FR_HELD_LAST = f % 2 ^ 64 ∧ regsKeptOnly [Reg.FR_HELD_FIRST, Reg.FR_HELD_LAST] s u ∧ memKept s u) ∧
    (s.frRecords f = false → answers (exec (.frSlotDeadline t f) s) fun u =>
      u.reg Reg.FR_MISS_CNT = min (s.reg Reg.FR_MISS_CNT + 1) (2 ^ 32 - 1) ∧ u.fr = s.fr ∧
      regsKept 0x58 [Reg.FR_MISS_CNT] s u ∧ memKept s u)) ∧
  (∀ (t : Nat) (page : BitVec 12) (s : State), s.frMode = 0 → s.bit Reg.FR_CTL 0 = true → 0 < s.reg Reg.FR_POST →
    answers (exec (.frTrigger t .blockFault page) s) fun u =>
      u.reg Reg.FR_TRIG_CNT = min (s.reg Reg.FR_TRIG_CNT + 1) (2 ^ 32 - 1) ∧
      u.reg Reg.FR_TRIG_FRAME = max s.now t / 10000 % 2 ^ 64 ∧ u.fld Reg.FR_STS 8 8 = 1 ∧ u.fld Reg.FR_STS 16 12 = page.toNat ∧
      u.frMode = 1 ∧ u.fr.left = s.reg Reg.FR_POST ∧
      regsKept 0x58 [Reg.FR_TRIG_CNT, Reg.FR_TRIG_FRAME, Reg.FR_STS] s u ∧ memKept s u) ∧
  (∀ (t : Nat) (page : BitVec 12) (s : State), s.frMode ≠ 0 →
    answers (exec (.frTrigger t .blockFault page) s) fun u =>
      u.reg Reg.FR_TRIG_CNT = min (s.reg Reg.FR_TRIG_CNT + 1) (2 ^ 32 - 1) ∧ u.fr = s.fr ∧ regsKept 0x58 [Reg.FR_TRIG_CNT] s u) ∧
  (∀ (t : Nat) (page : BitVec 12) (s : State), s.pw.air = true → s.frAir = false → s.bit Reg.FR_CTL 0 = true → s.frMode = 0 →
    answers (exec (.frTrigger t .airFallback page) s) fun u =>
      u.frMode = 2 ∧ u.frAir = true ∧ u.fr.slots = [] ∧ u.reg Reg.FR_TRIG_FRAME = max s.now t / 10000 % 2 ^ 64 ∧
      (∀ c ∈ [2, 3], s.bit (Reg.DDC_STS c) 2 = true → u.bit (Reg.DDC_STS c) 3 = true) ∧ memKept s u) ∧
  (∀ (t : Nat) (s : State), s.frMode = 1 → s.frLast < max s.now t / 10000 →
    answers (exec (.frFreeze t) s) fun u => u.frMode = 2 ∧ u.fr.left = 0 ∧ u.fr.slots = s.fr.slots ∧ regsKeptOnly [Reg.FR_STS] s u ∧
      memKept s u) ∧
  (∀ (t : Nat) (w : Writer) (s : State), admits s w Reg.FR_CTL 32 (s.fld Reg.FR_CTL 0 1 + 2) = true →
    s.frMode = 0 → s.bit Reg.FR_CTL 0 = true → 0 < s.reg Reg.FR_POST →
    answers (exec (.frCtlTrigger t w) s) fun u =>
      u.frMode = 1 ∧ u.fld Reg.FR_STS 8 8 = 0 ∧ u.reg Reg.FR_TRIG_FRAME = max s.now t / 10000 % 2 ^ 64 ∧
      u.fr.left = s.reg Reg.FR_POST ∧ memKept s u) ∧
  (∀ (t : Nat) (w : Writer) (s : State), admits s w Reg.FR_CTL 32 (s.fld Reg.FR_CTL 0 1 + 4) = true → s.frMode = 2 →
    answers (exec (.frCtlUnfreeze t w) s) fun u =>
      u.frMode = 0 ∧ u.frAir = false ∧ (s.frAir = true → u.fr.slots = s.fr.frozen ∧ u.fr.frozen = []) ∧
      (s.frAir = false → u.fr = s.fr) ∧ memKept s u) ∧
  (∀ (t : Nat) (w : Writer) (on : Bool) (s : State), admits s w Reg.FR_CTL 32 (b2n on) = true →
    answers (exec (.frCtlEnable t w on) s) fun u =>
      u.bit Reg.FR_CTL 0 = on ∧ u.fr = s.fr ∧ regsKeptW (Reg.FR_CTL / 4096) [Reg.FR_CTL] s u ∧ memKept s u) ∧
  (∀ (t : Nat) (sess : Fin 64) (f : Nat) (x : FrSlot) (s : State), s.baseUp = true → s.frHeld f = some x →
    answers (exec (.frExport t sess f) s) fun u =>
      u.fr.exported.getLast? = some (sess.val, f) ∧ u.fr.exports = s.fr.exports + 1 ∧ u.fr.slots = s.fr.slots ∧
      regsKeptOnly [] s u ∧ memKept s u)

/-! ## Strand (R151 to R171) -/

/-- A flit that the port takes as one of type `ty` (R153, R154, R158): the port is up with FEC lock, the flit is corrected, its header
holds, and the type is one that this link state lets in. -/
def flitTaken (s : State) (p : Fin 32) (f : FlitIn) (ty : Nat) : Prop :=
  let b := fitBytes 256 f.bytes
  s.portUp p = true ∧ s.bit (Reg.STR_STS p) 3 = true ∧ f.ue = false ∧ crc8 (b.take 7) = b.getD 7 0#8 ∧ flitType b = ty ∧
  1 ≤ ty ∧ ty ≤ 8 ∧ (s.link p = lkAdmitted ∨ s.link p = lkQuarantined ∨ ty = 5 ∨ ty = 6 ∨ ty = 7)

/-- The receive ring of the port has a free slot (R136). -/
def ringFree (s : State) (p : Nat) : Prop :=
  at32 s.eng.ringWritten p - min (at32 s.eng.ringCopied p) (at32 s.eng.ringMoved p) < 1024

/-- What taking a flit into the ring may touch besides its own effect: no byte of memory but the ring's slot, and of the registers the
port's and ING_DROP. -/
def landFrame (s u : State) (p : Fin 32) : Prop :=
  memKeptOutside [(ringAddr p (at32 s.eng.ringWritten p), 256)] s u ∧
  (∀ a, a / 4096 ≠ 0x60 + p.val → a / 4096 ≠ 0x53 → eventReg (0x60 + p.val) a = false → eventReg 0x53 a = false → u.reg a = s.reg a)

/-- Another port's record and link state, and another tray's endpoints, are left alone. -/
def otherPorts (s u : State) (p : Fin 32) : Prop :=
  ∀ q : Fin 32, q ≠ p → u.port[q] = s.port[q] ∧ u.link q = s.link q

/-- R153, R154, R158: a flit that fails FEC or its header check, or whose type is unknown, is counted and discarded; one that comes before
admission is counted in STR_PRE_ADMIT; a taken one lands in the port's ring in its landed form. -/
def Obligations.FlitsAreCheckedAndLanded : Prop :=
  (∀ (t : Nat) (p : Fin 32) (f : FlitIn) (s : State), s.portUp p = true → s.bit (Reg.STR_STS p) 3 = true → f.ce = 0 →
    let b := fitBytes 256 f.bytes
    ∀ i ∈ [Instr.strandTelem t p f, .strandIntent t p f, .strandSpan t p f, .strandStatus t p f, .strandIdent t p f,
      .strandRaildesc t p f, .strandTimeRpt t p f, .strandBurst t p f],
    (f.ue = true → answers (exec i s) fun u =>
      u.reg (Reg.STR_FEC_UE p) = min (s.reg (Reg.STR_FEC_UE p) + 1) (2 ^ 32 - 1) ∧ u.ep = s.ep ∧ u.port = s.port ∧
      regsKept (0x60 + p.val) [Reg.STR_FEC_UE p] s u ∧ memKept s u) ∧
    (f.ue = false → crc8 (b.take 7) ≠ b.getD 7 0#8 → answers (exec i s) fun u =>
      u.reg (Reg.STR_HCRC_ERR p) = min (s.reg (Reg.STR_HCRC_ERR p) + 1) (2 ^ 32 - 1) ∧ u.ep = s.ep ∧ u.port = s.port ∧
      regsKept (0x60 + p.val) [Reg.STR_HCRC_ERR p] s u ∧ memKept s u) ∧
    (f.ue = false → crc8 (b.take 7) = b.getD 7 0#8 → (flitType b = 0 ∨ 8 < flitType b) → answers (exec i s) fun u =>
      u.reg (Reg.STR_BAD_TYPE p) = min (s.reg (Reg.STR_BAD_TYPE p) + 1) (2 ^ 32 - 1) ∧ u.ep = s.ep ∧ u.port = s.port ∧
      regsKept (0x60 + p.val) [Reg.STR_BAD_TYPE p] s u ∧ memKept s u)) ∧
  (∀ (t : Nat) (p : Fin 32) (f : FlitIn) (s : State), s.portUp p = true → s.bit (Reg.STR_STS p) 3 = true → f.ce = 0 → f.ue = false →
    let b := fitBytes 256 f.bytes
    crc8 (b.take 7) = b.getD 7 0#8 → s.link p ≠ lkAdmitted → s.link p ≠ lkQuarantined →
    ∀ x ∈ [(Instr.strandTelem t p f, 1), (.strandIntent t p f, 2), (.strandSpan t p f, 3), (.strandStatus t p f, 4),
      (.strandBurst t p f, 8)], flitType b = x.2 →
    answers (exec x.1 s) fun u =>
      u.reg (Reg.STR_PRE_ADMIT p) = min (s.reg (Reg.STR_PRE_ADMIT p) + 1) (2 ^ 32 - 1) ∧
      u.port[p].preFrame = some (u.now / 1000000) ∧ u.ep = s.ep ∧ otherPorts s u p ∧
      regsKept (0x60 + p.val) [Reg.STR_PRE_ADMIT p] s u ∧ memKept s u) ∧
  (∀ (t : Nat) (p : Fin 32) (f : FlitIn) (s : State),
    ∀ x ∈ [(Instr.strandTelem t p f, 1), (.strandIntent t p f, 2), (.strandSpan t p f, 3), (.strandStatus t p f, 4),
      (.strandIdent t p f, 5), (.strandRaildesc t p f, 6), (.strandTimeRpt t p f, 7)], flitTaken s p f x.2 → ringFree s p →
    answers (exec x.1 s) fun u =>
      let b := fitBytes 256 f.bytes
      u.bytes (ringAddr p (at32 s.eng.ringWritten p)) 256 =
        fitBytes 256 (landedForm p (flitLate u.now b) (s.bit (Reg.STR_STS p) 4) b) ∧
      at32 u.eng.ringWritten p = at32 s.eng.ringWritten p + 1 ∧
      u.reg (Reg.STR_RX_FLITS p) = min (s.reg (Reg.STR_RX_FLITS p) + 1) (2 ^ 32 - 1) ∧ landFrame s u p)

/-- R155 to R157, R159, R161: a port enters IDENT_WAIT at FEC lock and sends its IDENT, repeats it after 10 ms, and returns to TRAINING after
100 ms; an IDENT is checked against the wiring plan and the port waits with a pass or a mismatch; up to four waiting ports a
slot are admitted at their floor grants, or quarantined; FEC loss takes the port down and discards its intents. -/
def Obligations.StrandPortsComeUpAndAreAdmitted : Prop :=
  (∀ (t : Nat) (p : Fin 32) (s : State), s.portUp p = true → (s.link p = lkDown ∨ s.link p = lkTraining) →
    answers (exec (.strandFecLock t p) s) fun u =>
      u.link p = lkIdent ∧ u.bit (Reg.STR_STS p) 3 = true ∧ u.port[p].identAt = max s.now t ∧ u.port[p].waitSince = max s.now t ∧
      u.port[p].echoes = 0 ∧ u.reg (Reg.STR_TX_FLITS p) = min (s.reg (Reg.STR_TX_FLITS p) + 1) (2 ^ 32 - 1) ∧
      otherPorts s u p ∧ u.ep = s.ep ∧ regsKept (0x60 + p.val) [Reg.STR_STS p, Reg.STR_TX_FLITS p] s u ∧ memKept s u) ∧
  (∀ (t : Nat) (p : Fin 32) (s : State), s.portUp p = true → s.link p = lkIdent → s.port[p].identAt + 10000000 ≤ max s.now t →
    answers (exec (.strandIdentRetry t p) s) fun u =>
      u.port[p].identAt = max s.now t ∧ (∃ x, sparseFind u.port[p].sent 0x13 = some x ∧ x.stamp = max s.now t ∧ x.seq = s.port[p].txSeq) ∧
      u.port[p].txSeq = (s.port[p].txSeq + 1) % 2 ^ 32 ∧ otherPorts s u p ∧
      regsKept (0x60 + p.val) [Reg.STR_TX_FLITS p] s u ∧ memKept s u) ∧
  (∀ (t : Nat) (p : Fin 32) (s : State), s.portUp p = true → s.link p = lkIdent → s.port[p].waitSince + 100000000 ≤ max s.now t →
    answers (exec (.strandIdentTimeout t p) s) fun u =>
      u.link p = lkTraining ∧ u.bit (Reg.STR_STS p) 3 = false ∧ u.port = s.port ∧ regsKeptOnly [Reg.STR_STS p] s u ∧ memKept s u) ∧
  (∀ (t : Nat) (p : Fin 32) (f : FlitIn) (s : State), flitTaken s p f 5 → s.link p = lkIdent →
    answers (exec (.strandIdent t p f) s) fun u =>
      let b := fitBytes 256 f.bytes
      u.link p = lkWaiting ∧ u.port[p].mismatch = s.identCause p b ∧ u.bit (Reg.STR_STS p) 5 = decide (s.identCause p b = 0) ∧
      u.reg (Reg.STR_TRAY_ID p) = leAt b 0x10 4 ∧ u.reg (Reg.STR_AGG_SN p) = leAt b 0x18 8 ∧
      u.fld (Reg.STR_STS p) 8 4 = byteAt b 0x16 % 16 ∧ (∀ e < 4, u.ep[epOf p e].ident = identEp b e) ∧
      (∀ n : Fin 128, portOf n ≠ p → u.ep[n] = s.ep[n]) ∧ otherPorts s u p ∧ landFrame s u p) ∧
  (∀ s : State, s.baseUp = true → s.seqSeen = true → s.wiringNext = none →
    answers (exec .admissionSlot s) fun u =>
      (∀ p ∈ s.waitingPorts.take 4,
        (s.port[p].mismatch = 0 → u.link p = lkAdmitted ∧
          ∀ e < 4, u.ep[epOf p e].grants = List.replicate 8 (s.floorGrant (epOf p e)) ∧
            u.ep[epOf p e].planFrom = some (u.now / 1000000 + 1)) ∧
        (s.port[p].mismatch ≠ 0 → u.link p = lkQuarantined ∧ u.reg (Reg.STR_ADMIT_STAMP p) = u.now % 2 ^ 64)) ∧
      (∀ p : Fin 32, p ∉ s.waitingPorts.take 4 → u.link p = s.link p ∧ u.port[p] = s.port[p]) ∧
      (u.now % 10000000 = 0 ∧ s.now ≤ u.now ∧ u.grid.admission = u.now + 1) ∧ memKept s u) ∧
  (∀ s : State, s.baseUp = false → answers (exec .admissionSlot s) fun u => u.port = s.port ∧ regsKeptOnly [] s u ∧ memKept s u) ∧
  (∀ (t : Nat) (p : Fin 32) (s : State), s.portUp p = true → s.bit (Reg.STR_STS p) 3 = true →
    answers (exec (.strandFecLoss t p) s) fun u =>
      u.link p = lkDown ∧ u.bit (Reg.STR_STS p) 3 = false ∧ (∀ e < 4, u.ep[epOf p e].intents = []) ∧
      (∀ n : Fin 128, portOf n ≠ p → u.ep[n] = s.ep[n]) ∧ (∀ n : Fin 128, u.ep[n].fc = s.ep[n].fc ∧ u.ep[n].grants = s.ep[n].grants) ∧
      u.port = s.port ∧ regsKeptOnly [Reg.STR_STS p] s u ∧ memKept s u) ∧
  (∀ (t : Nat) (n : Fin 128) (s : State), s.link (n.val / 4) ≠ lkAdmitted → s.ep[n].planFrom.isSome = true →
    s.ep[n].expiry ≤ max s.now t →
    answers (exec (.endpointLeaseLapse t n) s) fun u =>
      u.ep[n].lapsed = true ∧ (∀ m : Fin 128, m ≠ n → u.ep[m] = s.ep[m]) ∧ regsKeptOnly [] s u ∧ memKept s u) ∧
  (∀ (t : Nat) (w : Writer) (p : Fin 32) (s : State),
    admits s w (Reg.STR_CTL p) 32 (s.reg (Reg.STR_CTL p) % 2 + 2) = true → s.reg (Reg.STR_CTL p) % 2 = 1 →
    s.portUp p = true → s.bit (Reg.STR_STS p) 3 = true →
    answers (exec (.strReident t w p) s) fun u =>
      u.link p = lkIdent ∧ u.bit (Reg.STR_STS p) 5 = false ∧ u.port[p].waitSince = max s.now t ∧ otherPorts s u p ∧ memKept s u)

/-- R162 to R166, R170, R171: TELEM adds its power to the endpoint's measure unless it is older than 20 control frames; RAILDESC lands its
rails; an answered echo gives DELAY as half of the round trip less the residence, the other reports give OFFSET and TIME_OK
within 10 ns; STATUS is kept and its lapses counted; a SPAN OPEN takes the lowest free request index; a burst is armed,
stored unchanged and ended. -/
def Obligations.StrandFlitsGiveTheirContents : Prop :=
  (∀ (t : Nat) (p : Fin 32) (f : FlitIn) (s : State), flitTaken s p f 1 → ringFree s p →
    let b := fitBytes 256 f.bytes
    flitAgg b = false →
    let n := epOf p (flitEp b)
    (max s.now t ≤ flitStamp b + 200000 → answers (exec (.strandTelem t p f) s) fun u =>
      u.ep[n].acc = s.ep[n].acc.add (telemPower s.ep[n].rails b) ∧ u.ep[n].accFrames = 1 ∧
      (∀ m : Fin 128, m ≠ n → u.ep[m] = s.ep[m]) ∧ landFrame s u p) ∧
    (flitStamp b + 200000 < max s.now t → answers (exec (.strandTelem t p f) s) fun u => u.ep = s.ep ∧ landFrame s u p)) ∧
  (∀ (t : Nat) (p : Fin 32) (f : FlitIn) (s : State), flitTaken s p f 6 → ringFree s p →
    let b := fitBytes 256 f.bytes
    flitAgg b = false → (∀ j < 12, byteAt b (0x10 + 16 * j) = 12 * flitSub b + j) → flitSub b < 4 →
    answers (exec (.strandRaildesc t p f) s) fun u =>
      (∀ j < 12, sparseFind u.ep[epOf p (flitEp b)].rails (12 * flitSub b + j) =
        some ⟨byteAt b (0x10 + 16 * j + 1), leAt b (0x10 + 16 * j + 2) 2, leAt b (0x10 + 16 * j + 4) 4, leAt b (0x10 + 16 * j + 8) 4,
          max s.now t⟩) ∧
      (∀ m : Fin 128, m ≠ epOf p (flitEp b) → u.ep[m] = s.ep[m]) ∧ landFrame s u p) ∧
  (∀ (t : Nat) (p : Fin 32) (f : FlitIn) (s : State), flitTaken s p f 7 →
    let b := fitBytes 256 f.bytes
    (∀ t1, leAt b 0x10 8 ≠ 0 → s.port[p].t1s = [t1] → s.port[p].delays = [] → answers (exec (.strandTimeRpt t p f) s) fun u =>
      let d := halfNs (((max s.now t : Nat) : Int) - t1 - ((leAt b 0x18 8 : Int) - leAt b 0x10 8))
      u.port[p].t1s = [] ∧ u.port[p].delays = [d] ∧ u.reg (Reg.STR_LINK_DELAY p) = ofInt 32 d ∧ otherPorts s u p ∧ landFrame s u p) ∧
    (leAt b 0x10 8 = 0 → answers (exec (.strandTimeRpt t p f) s) fun u =>
      u.reg (Reg.STR_TIME_OFFSET p) = leAt b 0x20 4 ∧
      u.bit (Reg.STR_STS p) 4 = decide ((sext 32 (leAt b 0x20 4)).natAbs ≤ 10) ∧ u.port = s.port ∧ landFrame s u p)) ∧
  (∀ (t : Nat) (p : Fin 32) (f : FlitIn) (s : State), flitTaken s p f 4 →
    let b := fitBytes 256 f.bytes
    let n := epOf p (flitEp b)
    answers (exec (.strandStatus t p f) s) fun u =>
      u.ep[n].status = some ⟨flitStamp b, byteAt b 0x10, byteAt b 0x11, leAt b 0x14 4, leAt b 0x18 8, leAt b 0x20 2⟩ ∧
      (byteAt b 0x11 = 1 → (∀ x, s.ep[n].status = some x → x.state ≠ 1) →
        u.reg (Reg.STR_LAPSE p) = min (s.reg (Reg.STR_LAPSE p) + 1) (2 ^ 32 - 1)) ∧
      (∀ m : Fin 128, m ≠ n → u.ep[m] = s.ep[m]) ∧ landFrame s u p) ∧
  (∀ (t : Nat) (p : Fin 32) (f : FlitIn) (s : State), flitTaken s p f 3 → ringFree s p → s.blk 0x10 = stRunning →
    let b := fitBytes 256 f.bytes
    let n := epOf p (flitEp b)
    flitAgg b = false → byteAt b 0x10 = 1 →
    (∀ i, byteAt b 0x18 = 1 → s.openWeight n + leAt b 0x1C 2 ≤ 0x8000 → leAt b 0x28 16 ≠ 0 → leAt b 0x28 16 ≠ 2 ^ 128 - 1 →
      s.openSpan n (leAt b 0x1A 2) = none → s.freeSpan = some i → max s.now t ≤ leAt b 0x20 8 + 200000 →
      s.hmk.gainAt ≤ leAt b 0x20 8 →
      answers (exec (.strandSpan t p f) s) fun u =>
        u.span i = some ⟨n, leAt b 0x20 8, none, leAt b 0x1C 2, 0, 0, 0, 0⟩ ∧
        sparseFind u.hmk.spans i = some ⟨n, leAt b 0x1A 2, leAt b 0x28 16, leAt b 0x1C 2, true, 0⟩ ∧
        (∀ j, j ≠ i → u.span j = s.span j) ∧ landFrame s u p) ∧
    (byteAt b 0x18 = 1 → 0x8000 < s.openWeight n + leAt b 0x1C 2 → answers (exec (.strandSpan t p f) s) fun u =>
      u.ep[n].cntSpan = s.ep[n].cntSpan + 1 ∧ u.eng.spans = s.eng.spans ∧ u.hmk.spans = s.hmk.spans ∧ landFrame s u p)) ∧
  (∀ (t : Nat) (w : Writer) (p : Fin 32) (s : State),
    admits s w (Reg.STR_CTL p) 32 (s.reg (Reg.STR_CTL p) % 2 + 4) = true → s.reg (Reg.STR_CTL p) % 2 = 1 →
    s.burstState p ≠ 1 → s.burstState p ≠ 2 → s.link p ≠ lkDisabled →
    let win := s.fld (Reg.STR_BURST_CFG p) 8 8
    let slot := s.fld (Reg.STR_BURST_CFG p) 16 3
    (popcount 64 (s.reg (Reg.STR_BURST_RAILS p)) ≤ 8 → 1 ≤ win → win ≤ 50 → s.burstSlotUsed slot = false →
      answers (exec (.strBurstGo t w p) s) fun u =>
        u.reg (Reg.STR_BURST_STS p) = 1 ∧ u.port[p].burstSlot = slot ∧ u.port[p].burstBytes = 0 ∧
        (∃ x, sparseFind u.port[p].sent 0x16 = some x ∧ x.stamp = s.reg (Reg.STR_BURST_START p)) ∧ otherPorts s u p ∧ memKept s u) ∧
    ((8 < popcount 64 (s.reg (Reg.STR_BURST_RAILS p)) ∨ win = 0 ∨ 50 < win ∨ s.burstSlotUsed slot = true) →
      answers (exec (.strBurstGo t w p) s) fun u =>
        u.bit (Reg.STR_BURST_STS p) 2 = true ∧ u.burstState p = s.burstState p ∧ u.port = s.port ∧ memKept s u)) ∧
  (∀ (t : Nat) (p : Fin 32) (f : FlitIn) (s : State), flitTaken s p f 8 → (s.burstState p = 1 ∨ s.burstState p = 2) →
    let a := burstAddr s.port[p].burstSlot + s.port[p].burstBytes
    (s.port[p].burstBytes + 256 ≤ burstSize → s.mrOk a = true → answers (exec (.strandBurst t p f) s) fun u =>
      u.bytes a 256 = fitBytes 256 f.bytes ∧ u.burstState p = 2 ∧ u.port[p].burstBytes = s.port[p].burstBytes + 256 ∧
      otherPorts s u p ∧ memKeptOutside [(a, 256)] s u) ∧
    (burstSize < s.port[p].burstBytes + 256 → answers (exec (.strandBurst t p f) s) fun u =>
      u.bit (Reg.STR_BURST_STS p) 3 = true ∧ u.port = s.port ∧ memKept s u)) ∧
  (∀ (t : Nat) (p : Fin 32) (s : State), (s.burstState p = 1 ∨ s.burstState p = 2) →
    s.reg (Reg.STR_BURST_START p) + s.fld (Reg.STR_BURST_CFG p) 8 8 * 1000000 ≤ max s.now t →
    answers (exec (.burstCaptureEnd t p) s) fun u =>
      u.burstState p = 3 ∧ u.port = s.port ∧ regsKeptOnly [Reg.STR_BURST_STS p] s u ∧ memKept s u)

/-- R167 to R169, R179, R345: an intent waits from its landing and is treated in a later control frame by the first row of R168's table that
applies; the bar on an endpoint's intents ends at its instant; a committed policy takes effect at a plan-frame boundary, and
at the end of its lease without a successor the standing policy does, with POLICY_LAPSED. -/
def Obligations.IntentsAndPoliciesTakeEffectInOrder : Prop :=
  (∀ (t : Nat) (p : Fin 32) (f : FlitIn) (s : State), flitTaken s p f 2 → ringFree s p →
    let b := fitBytes 256 f.bytes
    flitAgg b = false →
    answers (exec (.strandIntent t p f) s) fun u =>
      u.arb = { s.arb with landed := s.arb.landed ++ [((epOf p (flitEp b)).val, (max s.now t / 10000, intentOf b))] } ∧
      u.ep = s.ep ∧ landFrame s u p) ∧
  (∀ (t : Nat) (n : Fin 128) (fr : Nat) (i : IntentRec) (s : State), s.arb.landed = [(n.val, (fr, i))] → fr < max s.now t / 10000 →
    s.link (n.val / 4) = lkAdmitted → s.bit (Reg.STR_STS (n.val / 4)) 4 = true → s.ep[n].barUntil = none →
    let pend := s.ep[n].intents.filter (fun j => decide (max s.now t < j.stop))
    answers (exec (.intentTreat t) s) fun u =>
      u.arb.landed = [] ∧
      ((7 < i.cls ∨ i.dur = 0 ∨ ¬ (i.lo ≤ i.mean ∧ i.mean ≤ i.hi) ∨ i.created + 10000000000 < i.start) →
        u.ep[n].cntRejected = s.ep[n].cntRejected + 1 ∧ u.ep[n].intents = pend) ∧
      (¬ (7 < i.cls ∨ i.dur = 0 ∨ ¬ (i.lo ≤ i.mean ∧ i.mean ≤ i.hi) ∨ i.created + 10000000000 < i.start) →
        u.ep[n].intents =
          (if i.cancel then pend.filter (fun j => j.iid ≠ i.iid)
          else if i.stop ≤ fr * 10000 then pend
          else if pend.any (fun j => j.iid = i.iid) then pend.filter (fun j => j.iid ≠ i.iid) ++ [i]
          else if pend.length < 32 then pend ++ [i] else pend) ∧
        u.ep[n].cntDiscarded = s.ep[n].cntDiscarded + (if i.cancel = false ∧ i.stop ≤ fr * 10000 then 1 else 0) ∧
        u.ep[n].cntRejected = s.ep[n].cntRejected + (if i.cancel = false ∧ fr * 10000 < i.stop ∧
          pend.any (fun j => j.iid = i.iid) = false ∧ 32 ≤ pend.length then 1 else 0)) ∧
      (∀ m : Fin 128, m ≠ n → u.ep[m] = s.ep[m]) ∧ regsKeptOnly [] s u ∧ memKept s u) ∧
  (∀ (t e : Nat) (n : Fin 128) (s : State), s.ep[n].barUntil = some e → e ≤ max s.now t →
    answers (exec (.intentBarExpire t n) s) fun u =>
      u.ep[n] = { s.ep[n] with barUntil := none } ∧ u.bit (Reg.STR_STS (n.val / 4)) (12 + n.val % 4) = false ∧
      (∀ m : Fin 128, m ≠ n → u.ep[m] = s.ep[m]) ∧ regsKeptOnly [Reg.STR_STS (n.val / 4)] s u ∧ memKept s u) ∧
  (∀ (t : Nat) (l : List Byte) (s : State), s.arb.pendingPolicy = some l → max s.now t % 1000000 = 0 → s.baseUp = true →
    answers (exec (.policyRecordEffect t) s) fun u =>
      u.arb = { s.arb with policy := some l, policyLapsed := false, pendingPolicy := none } ∧ regsKeptOnly [] s u ∧ memKept s u) ∧
  (∀ (t : Nat) (l : List Byte) (s : State), s.arb.policy = some l → max s.now t % 1000000 = 0 → s.baseUp = true →
    s.arb.policyLapsed = false → s.arb.pendingPolicy = none → leAt l 8 8 < max s.now t →
    answers (exec (.policyLeaseEnd t) s) fun u =>
      u.arb = { s.arb with policy := s.arb.standing, policyLapsed := true } ∧ posted 0xB0 u ∧ regsKept 0xB0 [] s u ∧ memKept s u)

/-! ## Boundaries, the governor, holdover and floors (R9 to R12, R20, R35, R185, R220 to R230) -/

/-- R35: each boundary command takes the next instant of its grid: 4 us, 10 us, 1 ms and 250 ms; a pulse period on a pulse die that is
down, and a control frame with both dies down, change no register and no byte.
R35, R195, R198, R204, R223, R277: a pulse-period boundary puts what was sensed into HVS, PLS, VMC and PCM; a STARTING brick that waits
for nothing joins, a RUNNING one whose ramp of 4 periods has run stops switching, and a due reference step moves t by at most
SLEW. -/
def Obligations.BoundariesAndPulsePeriods : Prop :=
  (∀ (h : Sense) (s : State), answers (exec (.pulsePeriodBoundary h) s) fun u =>
    u.now % 4000 = 0 ∧ max s.now s.grid.pulse ≤ u.now ∧ u.now < max s.now s.grid.pulse + 4000 ∧ u.grid.pulse = u.now + 1 ∧
    (s.pulseUp = false → regsKeptOnly [] s u) ∧ memKept s u) ∧
  (∀ s : State, answers (exec .controlFrameBoundary s) fun u =>
    u.now % 10000 = 0 ∧ max s.now s.grid.ctl ≤ u.now ∧ u.now < max s.now s.grid.ctl + 10000 ∧ u.grid.ctl = u.now + 1 ∧
    (s.pulseUp = false → s.baseUp = false → regsKeptOnly [] s u ∧ memKept s u) ∧
    (s.baseUp = true → ∀ p : Fin 32, u.eng.strandQ[p] = [])) ∧
  (∀ (q : PlanIn) (s : State), answers (exec (.planFrameBoundary q) s) fun u =>
    u.now % 1000000 = 0 ∧ max s.now s.grid.plan ≤ u.now ∧ u.now < max s.now s.grid.plan + 1000000 ∧ u.grid.plan = u.now + 1 ∧
    (s.pulseUp = false → s.baseUp = false → regsKeptOnly [] s u ∧ memKept s u)) ∧
  (∀ s : State, answers (exec .epochBoundary s) fun u =>
    u.now % 250000000 = 0 ∧ max s.now s.grid.epoch ≤ u.now ∧ u.now < max s.now s.grid.epoch + 250000000 ∧ u.grid.epoch = u.now + 1) ∧
  (∀ (h : Sense) (s : State), s.pulseUp = true → answers (exec (.pulsePeriodBoundary h) s) fun u =>
    u.reg Reg.HVS_VBUS = h.vbus % 2 ^ 64 ∧ u.reg Reg.HVS_IBUS = h.ibus % 2 ^ 64 ∧ u.reg Reg.HVS_PBUS = h.pbus % 2 ^ 64 ∧
    u.reg Reg.PLS_PLOAD = h.pbus % 2 ^ 64 ∧ u.reg (Reg.HVS_VSTR 0) = h.vA % 2 ^ 64 ∧ u.reg (Reg.HVS_VSTR 1) = h.vB % 2 ^ 64 ∧
    u.reg (Reg.HVS_ISTR 0) = h.iA % 2 ^ 64 ∧ u.reg (Reg.HVS_ISTR 1) = h.iB % 2 ^ 64 ∧
    (∀ n < 4, u.reg (Reg.VMC_VOUT n) = h.vout.getD n 0 % 2 ^ 64 ∧ u.reg (Reg.VMC_IOUT n) = h.iout.getD n 0 % 2 ^ 64) ∧
    (∀ b : Fin 48, u.reg (Reg.PCM_MEAN b) = ofInt 32 (h.mean.getD b.val 0)) ∧ u.reg Reg.PTB_PULSE = u.now / 4000 % 2 ^ 64 ∧
    memKept s u) ∧
  (∀ (h : Sense) (b : Fin 48) (s : State), s.pulseUp = true → s.bst b = stStarting → s.pd.brick[b].waitRot = false →
    s.pd.brick[b].onAt < max s.now s.grid.pulse →
    answers (exec (.pulsePeriodBoundary h) s) fun u => u.bst b = stRunning) ∧
  (∀ (h : Sense) (b : Fin 48) (k : Nat) (s : State), s.pulseUp = true → s.bst b = stRunning → s.pd.brick[b].ramp = some k →
    k + 4 ≤ max s.now s.grid.pulse / 4000 →
    answers (exec (.pulsePeriodBoundary h) s) fun u => u.pd.brick[b].ramp = none ∧ u.pd.brick[b].on = false) ∧
  (∀ (h : Sense) (d : Nat) (s : State), s.pulseUp = true → s.gov.due = some d → d < max s.now s.grid.pulse →
    answers (exec (.pulsePeriodBoundary h) s) fun u =>
      u.reg Reg.GOV_T_A = moveTowards (s.reg Reg.GOV_T_A) s.gov.target.1 (s.rowVal s.row 2) % 2 ^ 64 ∧
      u.reg Reg.GOV_T_B = moveTowards (s.reg Reg.GOV_T_B) s.gov.target.2 (s.rowVal s.row 2) % 2 ^ 64 ∧ u.gov.due = none)

/-- The state in which the governor judges at a control-frame boundary: the boundary's instant, and the row that applies now. -/
def atJudgement (s : State) : State :=
  State.selectRow { s with now := alignUp 10000 (max s.now s.grid.ctl), grid := { s.grid with ctl := alignUp 10000 (max s.now s.grid.ctl) + 1 } }

/-- R50, R221, R222, R224, R226: a record that arrives in time waits for its frame, a late one is counted; at the boundary, here with the
base die down, a record that passes every check is accepted whole and counted, one that fails is rejected, counted under the
first check it fails, and changes no target; a row of the envelope is written only in its range. -/
def Obligations.GovernorJudgesRecordsWhole : Prop :=
  (∀ (t : Nat) (g : List Byte) (poisoned : Bool) (s : State), s.pulseUp = true → s.pw.seamHeld = false →
    (max s.now t ≤ (refFrame g + 1) * 10000 → answers (exec (.referenceHandoffArrive t g poisoned) s) fun u =>
      sparseFind u.gov.refs (refFrame g) = some (g, poisoned) ∧ regsKeptOnly [] s u ∧ memKept s u) ∧
    ((refFrame g + 1) * 10000 < max s.now t → answers (exec (.referenceHandoffArrive t g poisoned) s) fun u =>
      u.gov = s.gov ∧ u.reg Reg.SEQ_HANDOFF_LATE = min (s.reg Reg.SEQ_HANDOFF_LATE + 1) (2 ^ 32 - 1) ∧
      regsKept seqPg [Reg.SEQ_HANDOFF_LATE] s u ∧ memKept s u)) ∧
  (∀ s : State, s.pulseUp = true → s.baseUp = false →
    let j := atJudgement s
    let f := j.now / 10000 - 1
    let r := sparseFind s.gov.refs f
    let prev := match s.gov.passed with
      | some (k, p) => if k + 1 = f then some p else none
      | none => none
    (∀ k, j.refFails r prev = some k → answers (exec .controlFrameBoundary s) fun u =>
      u.bit Reg.GOV_STS 0 = false ∧ u.fld Reg.GOV_STS 8 4 = k ∧ u.fld Reg.GOV_STS 1 2 = j.rowNow ∧
      u.reg (Reg.GOV_REJ_CNT (k - 1)) = min (s.reg (Reg.GOV_REJ_CNT (k - 1)) + 1) (2 ^ 32 - 1) ∧
      u.gov.missRun = s.gov.missRun + 1 ∧ u.gov.accRun = 0 ∧ u.gov.accepted = s.gov.accepted ∧
      (s.inHoldover = false → u.gov.target = s.gov.target) ∧ memKept s u) ∧
    (j.refFails r prev = none → answers (exec .controlFrameBoundary s) fun u =>
      let g := (r.map (fun e => e.1)).getD []
      u.bit Reg.GOV_STS 0 = true ∧ u.reg Reg.GOV_ACCEPT_CNT = min (s.reg Reg.GOV_ACCEPT_CNT + 1) (2 ^ 32 - 1) ∧
      u.reg Reg.GOV_LAST_FRAME = f % 2 ^ 64 ∧ u.gov.accRun = s.gov.accRun + 1 ∧ u.gov.missRun = 0 ∧
      u.gov.accepted = some (refS g 0, refS g 1) ∧ (s.inHoldover = false → u.gov.target = (refS g 0, refS g 1)) ∧ memKept s u)) ∧
  (∀ (t : Nat) (w : Writer) (r k : Fin 4) (v : Word) (s : State),
    admits s w (Reg.GOV_ROW0_SMIN + 16 * r + 4 * k) 32 v.toNat = true → govRowOk r k s v.toNat = true →
    answers (exec (.govRowWrite t w r k v) s) fun u => u.rowVal r k = v.toNat ∧ memKept s u) ∧
  (∀ (t : Nat) (w : Writer) (r k : Fin 4) (v : Word) (s : State),
    admits s w (Reg.GOV_ROW0_SMIN + 16 * r + 4 * k) 32 v.toNat = true → govRowOk r k s v.toNat = false →
    answers (exec (.govRowWrite t w r k v) s) fun u => u.rowVal r k = s.rowVal r k ∧ memKept s u)

/-- R20, R225 to R229: ten control frames without an accepted reference, or the base die's own signal, enter holdover, counted, stamped and
posted; ten accepted ones leave it; in it a command at its limit for 1 ms floors the next tray of FLOOR_ORDER, at most one a
plan frame; a whole plan with a right CRC becomes current at the boundary equal to its START, and one whose boundary has come
and that cannot is rejected (here with the base die down). -/
def Obligations.HoldoverAndThePlanBuffer : Prop :=
  (∀ (t : Nat) (s : State), s.pulseUp = true → 10 ≤ s.gov.missRun → s.inHoldover = false →
    answers (exec (.holdoverEnter t) s) fun u =>
      u.inHoldover = true ∧ u.reg Reg.PLS_HOLD_CNT = min (s.reg Reg.PLS_HOLD_CNT + 1) (2 ^ 32 - 1) ∧
      u.reg Reg.PLS_HOLD_STAMP = max s.now t % 2 ^ 64 ∧ u.gov.selfSp = true ∧ posted 0x100 u ∧
      regsKept 0x100 [Reg.PLS_STS, Reg.PLS_HOLD_CNT, Reg.PLS_HOLD_STAMP] s u ∧ memKept s u) ∧
  (∀ (t : Nat) (s : State), s.pulseUp = true → s.inHoldover = false →
    answers (exec (.baseDieLossSignal t) s) fun u =>
      u.inHoldover = true ∧ u.gov.selfSp = true ∧ posted 0x100 u ∧
      (s.clp.role = 4 → s.clp.peerRole = 2 → s.clp.peerContest = false → s.clp.yieldDue = none → s.bit Reg.CLP_CTL 1 = true →
        u.clp.yieldDue = some (alignUp 1000000 (max s.now t + 20000))) ∧
      regsKept 0x100 [Reg.PLS_STS, Reg.PLS_HOLD_CNT, Reg.PLS_HOLD_STAMP] s u ∧ memKept s u) ∧
  (∀ (t : Nat) (s : State), s.inHoldover = true → 10 ≤ s.gov.accRun →
    answers (exec (.holdoverExit t) s) fun u =>
      u.inHoldover = false ∧ (∀ p, s.gov.accepted = some p → u.gov.target = p) ∧ u.gov.selfSp = s.gov.selfSp ∧ posted 0x100 u ∧
      regsKept 0x100 [Reg.PLS_STS] s u ∧ memKept s u) ∧
  (∀ (t j : Nat) (s : State), s.inHoldover = true → (s.at t).atLimit1ms = true → s.gov.lastFloor ≠ some (max s.now t / 1000000) →
    nextFloor s.floorOrder s.floorMask = some j →
    answers (exec (.holdoverFloor t) s) fun u =>
      u.gov.holdMask = s.gov.holdMask ||| 2 ^ j ∧ u.gov.lastFloor = some (max s.now t / 1000000) ∧
      regsKeptOnly [Reg.PLS_FLOOR_OUT, Reg.PLS_FLOOR_ALL] s u ∧ memKept s u) ∧
  (∀ (t : Nat) (g : List Byte) (s : State), s.pulseUp = true → s.pw.seamHeld = false →
    answers (exec (.planBufferArrive t g) s) fun u => u.gov = { s.gov with next := some g } ∧ regsKeptOnly [] s u ∧ memKept s u) ∧
  (∀ (q : PlanIn) (b : List Byte) (s : State), s.pulseUp = true → s.baseUp = false → s.gov.next = some b → b.length = 576 →
    planStartOf b = alignUp 1000000 (max s.now s.grid.plan) → planCrcOk b = true →
    answers (exec (.planFrameBoundary q) s) fun u =>
      u.gov.plan = some b ∧ u.gov.next = none ∧ u.reg Reg.PLS_PLAN_FRAME = leAt b 0 8 ∧ u.bit Reg.PLS_STS 6 = true ∧ memKept s u) ∧
  (∀ (q : PlanIn) (b : List Byte) (s : State), s.pulseUp = true → s.baseUp = false → s.gov.next = some b →
    planStartOf b < alignUp 1000000 (max s.now s.grid.plan) →
    answers (exec (.planFrameBoundary q) s) fun u =>
      u.gov.plan = s.gov.plan ∧ u.gov.next = none ∧ u.reg Reg.PLS_PLAN_REJ = min (s.reg Reg.PLS_PLAN_REJ + 1) (2 ^ 32 - 1) ∧ memKept s u)

/-- R185, R186, R230: an active tray alert asserts its tray's floor at once and it is released 1 ms after the alert ends; PLS_FLOOR_OUT shows
the trays that some source floors, while the module drives the wires; a write of PLS_FLOOR_FORCE or PLS_FLOOR_ALL is such a
source.
R9, R10, R15, R183, R338: a failed setpoint line is posted and used again after 100 good frames, from a plan-frame boundary; a rectifier
that holds its setpoint under 50 ms is posted and kept out of what follows setpoints; the loss of every AC input is grid loss
and its return ends it; a change of SLOT_ID is only posted; a peer of the other order code keeps the module out of ownership. -/
def Obligations.FloorWiresRectifiersAndLines : Prop :=
  (∀ (t : Nat) (j : Fin 32) (s : State), s.pulseUp = true →
    answers (exec (.trayAlertActive t j) s) fun u =>
      u.gov.alertMask = s.gov.alertMask ||| 2 ^ j.val ∧ sparseFind u.gov.alertEnd j.val = none ∧
      u.reg Reg.PLS_FLOOR_OUT = (if u.drivesFloors then u.floorMask % 2 ^ 64 else 0) ∧
      regsKeptOnly [Reg.PLS_FLOOR_OUT, Reg.PLS_FLOOR_ALL] s u ∧ memKept s u) ∧
  (∀ (t e : Nat) (j : Fin 32) (s : State), sparseFind s.gov.alertEnd j.val = some e → e + 1000000 ≤ max s.now t →
    answers (exec (.trayAlertRelease t j) s) fun u =>
      bitOf u.gov.alertMask j.val = false ∧ sparseFind u.gov.alertEnd j.val = none ∧
      (∀ k, k ≠ j.val → bitOf u.gov.alertMask k = bitOf s.gov.alertMask k) ∧
      u.reg Reg.PLS_FLOOR_OUT = (if u.drivesFloors then u.floorMask % 2 ^ 64 else 0) ∧
      regsKeptOnly [Reg.PLS_FLOOR_OUT, Reg.PLS_FLOOR_ALL] s u ∧ memKept s u) ∧
  (∀ (t : Nat) (w : Writer) (v : Word) (s : State), admits s w Reg.PLS_FLOOR_FORCE 32 v.toNat = true →
    answers (exec (.plsFloorForceWrite t w v) s) fun u =>
      u.reg Reg.PLS_FLOOR_FORCE = v.toNat ∧
      u.reg Reg.PLS_FLOOR_OUT = (if u.drivesFloors then u.floorMask % 2 ^ 64 else 0) ∧ u.gov = s.gov ∧ memKept s u) ∧
  (∀ (t : Nat) (w : Writer) (v : Word) (s : State), admits s w Reg.PLS_FLOOR_ALL 32 v.toNat = true → (s.at t).drivesFloors = true →
    answers (exec (.plsFloorAllForce t w v) s) fun u =>
      u.bit Reg.PLS_FLOOR_ALL 31 = bitOf v.toNat 31 ∧
      u.bit Reg.PLS_FLOOR_ALL 0 = (s.floorAllProt || bitOf v.toNat 31) ∧ memKept s u) ∧
  (∀ (t : Nat) (s : State), s.gov.lineOk = true →
    answers (exec (.setpointLineFail t) s) fun u =>
      u.gov.lineOk = false ∧ u.gov.lineFail = max s.now t ∧ u.gov.lineGood = none ∧ posted 0x100 u ∧ regsKept 0x100 [] s u ∧ memKept s u) ∧
  (∀ (t k : Nat) (s : State), s.gov.lineOk = false → 100 ≤ k →
    (max s.now t % 1000000 = 0 → answers (exec (.setpointLineRestore t k) s) fun u =>
      u.gov.lineOk = true ∧ posted 0x100 u ∧ regsKept 0x100 [] s u ∧ memKept s u) ∧
    (max s.now t % 1000000 ≠ 0 → answers (exec (.setpointLineRestore t k) s) fun u =>
      u.gov = { s.gov with lineGood := some (max s.now t) } ∧ regsKeptOnly [] s u ∧ memKept s u)) ∧
  (∀ (t hold : Nat) (r : Fin 12) (s : State),
    answers (exec (.rectifierAdmission t r hold) s) fun u =>
      u.gov.rectUp.getLsbD r = true ∧ u.gov.rectBad.getLsbD r = decide (hold < 50) ∧
      (∀ q : Fin 12, q ≠ r → u.gov.rectUp.getLsbD q = s.gov.rectUp.getLsbD q ∧ u.gov.rectBad.getLsbD q = s.gov.rectBad.getLsbD q) ∧
      (hold < 50 → posted 0x100 u) ∧ regsKept 0x100 [] s u ∧ memKept s u) ∧
  (∀ (t : Nat) (r : Fin 12) (q : RectIn) (s : State),
    answers (exec (.rectifierTelemetryRead t r q) s) fun u =>
      u.gov.rectUp.getLsbD r = q.inService ∧
      (∃ x, sparseFind u.gov.rectTel r.val = some x ∧ x.stamp = max s.now t ∧ x.data = q) ∧
      (∀ k, k ≠ r.val → sparseFind u.gov.rectTel k = sparseFind s.gov.rectTel k) ∧ regsKeptOnly [] s u ∧ memKept s u) ∧
  (∀ (t : Nat) (lost : BitVec 12) (s : State),
    answers (exec (.rectAcLoss t lost) s) fun u =>
      u.arb.acLost = s.arb.acLost ||| lost ∧
      u.arb.gridLoss = (s.arb.acLost ||| lost != 0#12 && (s.rectOk &&& ~~~(s.arb.acLost ||| lost)) == 0#12) ∧ memKept s u) ∧
  (∀ (t : Nat) (back : BitVec 12) (s : State),
    answers (exec (.rectAcReturn t back) s) fun u =>
      u.arb.acLost = s.arb.acLost &&& ~~~back ∧ (s.arb.acLost &&& ~~~back = 0#12 → u.arb.gridLoss = false) ∧
      regsKeptOnly [] s u ∧ memKept s u) ∧
  (∀ (t : Nat) (level : Bool) (s : State), s.pw.kaOk = true → level ≠ s.slotB →
    answers (exec (.slotIdChange t level) s) fun u => u.slotB = s.slotB ∧ posted 0x112 u ∧ regsKept 0x112 [] s u ∧ memKept s u) ∧
  (∀ (t : Nat) (c : OrderCode) (s : State), c ≠ s.ownCode →
    answers (exec (.peerOrderMismatch t c) s) fun u =>
      u.bit Reg.SLK_STS 3 = false ∧ posted 0x114 u ∧ (s.clp.role ≠ 4 → u.bit Reg.CLP_CTL 2 = true) ∧ u.clp = s.clp ∧
      regsKept 0x114 [Reg.SLK_STS, Reg.CLP_CTL] s u ∧ memKept s u)
/-! ## Bricks, Pleat, shedding, channels and control laws (R194 to R219, R231, R234) -/

/-- Bricks other than those of the list keep their record and their PCM_STS. -/
def otherBricks (s u : State) (l : List (Fin 48)) : Prop :=
  ∀ b : Fin 48, b ∉ l → u.pd.brick[b] = s.pd.brick[b] ∧ u.reg (Reg.PCM_STS b) = s.reg (Reg.PCM_STS b)

/-- R194, R195, R231: a brick turns on at its offset with its threshold loaded, is armed at the end of blanking, and turns off where the sensed
current crosses threshold or limit after BLANK, or at MAX_ON; the hard limit, PRT_CBC_PERSIST limited periods and an alert
put it into FAULT. -/
def Obligations.BrickPeriodsEndAsR195Says : Prop :=
  (∀ (t : Nat) (b : Fin 48) (s : State), s.brickSwitches b = true → s.prt.pll = true →
    answers (exec (.brickTurnOn t b) s) fun u =>
      u.pd.brick[b].on = true ∧ u.pd.brick[b].armed = false ∧ u.pd.brick[b].onAt = max s.now t ∧
      u.reg (Reg.PCM_CODE b) = (s.at t).loadCode b (max s.now t / 4000 * 4000000 + s.pd.brick[b].offset * 400) % 2 ^ 64 ∧
      otherBricks s u [b] ∧ regsKeptOnly [Reg.PCM_CODE b] s u ∧ memKept s u) ∧
  (∀ (t : Nat) (b : Fin 48) (s : State), s.pd.brick[b].on = true →
    answers (exec (.brickBlankEnd t b) s) fun u =>
      u.pd.brick[b] = { s.pd.brick[b] with armed := true } ∧ otherBricks s u [b] ∧ regsKeptOnly [] s u ∧ memKept s u) ∧
  (∀ (t : Nat) (b : Fin 48) (i : Int) (k : Nat) (s : State), s.pd.brick[b].on = true →
    (s.pd.brick[b].armed = true → s.reg (Reg.PCM_BLANK b) ≤ k → (s.rampLevel b k).le (Fv.ofInt (s.senseDir b i)) = true →
      answers (exec (.brickThresholdCross t b i k) s) fun u =>
        u.pd.brick[b].on = false ∧ u.reg (Reg.PCM_IPK b) = min (s.senseDir b i).toNat 4095 ∧ u.bit (Reg.PCM_STS b) 6 = false ∧
        u.pd.brick[b].cbcRun = 0 ∧ otherBricks s u [b] ∧ regsKeptOnly [Reg.PCM_IPK b, Reg.PCM_STS b] s u ∧ memKept s u) ∧
    (s.pd.brick[b].armed = true → s.reg (Reg.PCM_BLANK b) ≤ k → (s.cbcLimit b : Int) ≤ s.senseDir b i →
      answers (exec (.brickCbcLimit t b i k) s) fun u =>
        u.pd.brick[b].on = false ∧ u.bit (Reg.PCM_STS b) 6 = true ∧ u.pd.brick[b].cbcRun = s.pd.brick[b].cbcRun + 1 ∧
        u.reg (Reg.PCM_CBC_CNT b) = min (s.reg (Reg.PCM_CBC_CNT b) + 1) (2 ^ 32 - 1) ∧ memKept s u) ∧
    (s.reg (Reg.PCM_MAX_ON b) ≤ k → answers (exec (.brickMaxOn t b i k) s) fun u =>
      u.pd.brick[b].on = false ∧ u.reg (Reg.PCM_IPK b) = min (s.senseDir b i).toNat 4095 ∧ u.bit (Reg.PCM_STS b) 6 = false ∧
      regsKeptOnly [Reg.PCM_IPK b, Reg.PCM_STS b] s u ∧ memKept s u)) ∧
  (∀ (t : Nat) (b : Fin 48) (i : Int) (s : State), s.reg (Reg.PCM_HARD b) ≤ i.natAbs → (s.bst b = stRunning ∨ s.bst b = stStopping) →
    answers (exec (.brickHardLimit t b i) s) fun u =>
      u.bst b = stFault ∧ u.fld (Reg.PCM_STS b) 8 8 = 1 ∧ u.pd.brick[b].on = false ∧ u.reg (Reg.PCM_IPK b) = min i.natAbs 4095 ∧
      posted (0x102 + b.val / 8) u ∧ memKept s u) ∧
  (∀ (t : Nat) (b : Fin 48) (s : State), s.reg Reg.PRT_CBC_PERSIST ≤ s.pd.brick[b].cbcRun → s.pd.brick[b].cbcRun ≠ 0 →
    s.bst b ≠ stFault →
    answers (exec (.brickPersistentLimit t b) s) fun u =>
      u.bst b = stFault ∧ u.fld (Reg.PCM_STS b) 8 8 = 2 ∧ posted (0x102 + b.val / 8) u ∧ memKept s u) ∧
  (∀ (t : Nat) (b : Fin 48) (s : State), s.dinActive (8 + b) = true → s.pulseUp = true → s.bst b ≠ stFault →
    answers (exec (.brickAlertFault t b) s) fun u =>
      u.bst b = stFault ∧ u.fld (Reg.PCM_STS b) 8 8 = 3 ∧ posted (0x102 + b.val / 8) u ∧ memKept s u)

/-- R198, R199, R234, R235: ENABLE starts a brick that is OFF where the module drives and the block runs, at once or at the next rotation
where its string switches already; 0 and EXCLUDE stop it with a ramp of 4 periods, after which it is OFF, or starts again
where a rearm was asked for; CLEAR returns it from FAULT only once the cause is gone. -/
def Obligations.BricksStartStopAndClear : Prop :=
  (∀ (t : Nat) (w : Writer) (b : Fin 48) (v : Word) (s : State), admits s w (Reg.PCM_CTL b) 32 v.toNat = true → v.toNat % 2 = 1 →
    bitOf v.toNat 1 = false → bitOf v.toNat 2 = false → s.bst b = stOff → s.pcmRuns = true → (s.at t).drives = true →
    answers (exec (.pcmEnable t w b v) s) fun u =>
      u.bst b = stStarting ∧
      u.pd.brick[b].waitRot = (bricksOf (strOf b)).any (fun c => decide (s.bst c = stRunning)) ∧ u.pd.brick[b].onAt = max s.now t ∧
      memKept s u) ∧
  (∀ (t : Nat) (w : Writer) (b : Fin 48) (v : Word) (s : State), admits s w (Reg.PCM_CTL b) 32 v.toNat = true → v.toNat % 2 = 0 →
    bitOf v.toNat 1 = false → (s.bst b = stStarting ∨ s.bst b = stRunning) →
    ∀ i ∈ [Instr.pcmEnable t w b v, .pcmExclude t w b v],
    answers (exec i s) fun u =>
      u.bst b = stStopping ∧ u.pd.brick[b].ramp = some (alignUp 4000 (max s.now t) / 4000) ∧ u.brickExcl b = bitOf v.toNat 2 ∧ memKept s u) ∧
  (∀ (t : Nat) (w : Writer) (b : Fin 48) (v : Word) (s : State), admits s w (Reg.PCM_CTL b) 32 v.toNat = true → v.toNat % 2 = 1 →
    bitOf v.toNat 1 = false → bitOf v.toNat 2 = false → s.bst b = stStopping →
    answers (exec (.pcmEnable t w b v) s) fun u => u.bst b = stStopping ∧ u.bit (Reg.PCM_STS b) 7 = true ∧ memKept s u) ∧
  (∀ (t : Nat) (w : Writer) (b : Fin 48) (v : Word) (s : State), admits s w (Reg.PCM_CTL b) 32 v.toNat = true →
    bitOf v.toNat 2 = true → (s.bst b = stStarting ∨ s.bst b = stRunning) → bitOf v.toNat 1 = false →
    answers (exec (.pcmExclude t w b v) s) fun u => u.bst b = stStopping ∧ u.brickExcl b = true ∧ memKept s u) ∧
  (∀ (t : Nat) (w : Writer) (b : Fin 48) (v : Word) (s : State), admits s w (Reg.PCM_CTL b) 32 v.toNat = true →
    bitOf v.toNat 1 = true → v.toNat % 2 = 0 → s.bst b = stFault →
    (s.brickGone b = true → answers (exec (.pcmClear t w b v) s) fun u =>
      u.bst b = stOff ∧ u.fld (Reg.PCM_STS b) 8 8 = 0 ∧ u.pd.brick[b].cbcRun = 0 ∧ memKept s u) ∧
    (s.brickGone b = false → answers (exec (.pcmClear t w b v) s) fun u =>
      u.bst b = stFault ∧ u.pd = s.pd ∧ u.bit (Reg.IRQ_STS (Reg.PCM_CTL b / 4096)) 4 = true ∧ memKept s u)) ∧
  (∀ (t k : Nat) (b : Fin 48) (s : State), s.bst b = stStopping → s.pd.brick[b].ramp = some k → k + 4 ≤ max s.now t / 4000 →
    s.bit (Reg.PCM_STS b) 7 = false →
    answers (exec (.brickStopDone t b) s) fun u =>
      u.bst b = stOff ∧ u.pd.brick[b].ramp = none ∧ u.pd.brick[b].on = false ∧ otherBricks s u [b] ∧
      regsKeptOnly [Reg.PCM_STS b] s u ∧ memKept s u) ∧
  (∀ (t k : Nat) (b : Fin 48) (s : State), s.bst b = stStopping → s.pd.brick[b].ramp = some k → k + 4 ≤ max s.now t / 4000 →
    s.bit (Reg.PCM_STS b) 7 = true → s.brickExcl b = false → s.pcmRuns = true → (s.at t).drives = true →
    answers (exec (.brickStopDone t b) s) fun u =>
      u.bst b = stStarting ∧ u.bit (Reg.PCM_STS b) 7 = false ∧ u.pd.brick[b].ramp = none ∧ regsKeptOnly [Reg.PCM_STS b] s u ∧ memKept s u)

/-- R200 to R206: a rotation advances rho by one and judges a pending map whole; within a step re-add it is deferred and made up for after
it; the second half of a re-add brings every brick in service back; shedding starts after its dwell without a hold-off and takes
a step every 16 periods, never below SHD_MIN. -/
def Obligations.RotationAndSheddingKeepTheirOrder : Prop :=
  (∀ (t : Nat) (s : State), s.pulseUp = true → (s.at t).rotDue = true → (s.at t).inReadd = false → s.bit Reg.PLT_CTL 0 = true →
    s.bit Reg.PLT_STS 1 = false →
    answers (exec (.pleatRotation t) s) fun u =>
      u.reg Reg.PLT_ROT = (s.reg Reg.PLT_ROT + 1) % 48 ∧ u.reg Reg.PLT_ROT_CNT = min (s.reg Reg.PLT_ROT_CNT + 1) (2 ^ 32 - 1) ∧
      u.pd.rotAt = max s.now t ∧ u.pd.map = s.pd.map ∧ memKept s u) ∧
  (∀ (t : Nat) (s : State), s.pulseUp = true → (s.at t).rotDue = true → (s.at t).inReadd = false → s.bit Reg.PLT_CTL 0 = false →
    s.bit Reg.PLT_STS 1 = true →
    answers (exec (.pleatRotation t) s) fun u =>
      u.reg Reg.PLT_ROT = s.reg Reg.PLT_ROT ∧ u.bit Reg.PLT_STS 1 = false ∧
      (isPerm48 s.pendingMap = true → u.pd.map = s.pendingMap ∧ u.bit Reg.PLT_STS 2 = false) ∧
      (isPerm48 s.pendingMap = false → u.pd.map = s.pd.map ∧ u.bit Reg.PLT_STS 2 = true) ∧ memKept s u) ∧
  (∀ (t : Nat) (s : State), s.pulseUp = true → (s.at t).rotDue = true → (s.at t).inReadd = true →
    answers (exec (.pleatRotation t) s) fun u =>
      u.bit Reg.PLT_STS 0 = true ∧ u.pd.deferred = s.pd.deferred + 1 ∧ regsKeptOnly [Reg.PLT_STS] s u ∧ memKept s u) ∧
  (∀ (t : Nat) (s : State), s.bit Reg.PLT_STS 0 = true → (s.at t).inReadd = false → max s.now t % 4000 = 0 → s.pd.deferred = 1 →
    s.bit Reg.PLT_CTL 0 = true →
    answers (exec (.deferredRotation t) s) fun u =>
      u.bit Reg.PLT_STS 0 = false ∧ u.pd.deferred = 0 ∧ u.reg Reg.PLT_ROT = (s.reg Reg.PLT_ROT + 1) % 48 ∧ memKept s u) ∧
  (∀ (t : Nat) (w : Writer) (i : Fin 12) (v : Word) (s : State), admits s w (Reg.PLT_MAP i) 32 v.toNat = true →
    answers (exec (.pltMapWrite t w i v) s) fun u =>
      u.reg (Reg.PLT_MAP i) = v.toNat ∧ u.bit Reg.PLT_STS 1 = true ∧ u.pd.map = s.pd.map ∧ u.pd.mapPath = w.path ∧ memKept s u) ∧
  (∀ (t b : Nat) (s : State), s.pd.b0 = some b → max s.now t = b + 4000 →
    answers (exec (.stepReaddSecond t) s) fun u =>
      u.pd.n = (s.svcCount 0, s.svcCount 1) ∧ u.fld Reg.SHD_STS 6 2 = 0 ∧ memKept s u) ∧
  (∀ (t b : Nat) (s : State), s.pd.lowSince = some b → s.bit Reg.SHD_CTL 0 = true → s.pd.shedPulse = none → (s.at t).holdoff = false →
    (s.at t).inReadd = false → max s.now t % 4000 = 0 → b + s.reg Reg.SHD_DWELL * 1000000 ≤ max s.now t →
    answers (exec (.shedStart t) s) fun u =>
      u.fld Reg.SHD_STS 6 2 = 1 ∧ ((s.at t).canShed = true → u.pd.shedPulse = some (max s.now t / 4000)) ∧
      ((s.at t).canShed = false → u.pd = s.pd) ∧ memKept s u) ∧
  (∀ (t k b x : Nat) (s : State), s.pd.shedPulse = some k → s.pd.lowSince = some b → s.bit Reg.SHD_CTL 0 = true → max s.now t % 4000 = 0 →
    k + 16 ≤ max s.now t / 4000 → (s.at t).canShed = true → (s.at t).strs = [x] → (s.at t).activeOf x ≠ [] →
    answers (exec (.shedStep t) s) fun u =>
      sel u.pd.n x = s.nOf x - 1 ∧ sel u.pd.n (1 - x) = sel s.pd.n (1 - x) ∧ u.pd.shedPulse = some (max s.now t / 4000) ∧
      (∀ y, ((s.at t).activeOf x).getLast? = some y → u.pd.brick[y].ramp = some (max s.now t / 4000)) ∧ memKept s u) ∧
  (∀ (t : Nat) (s : State), (s.at t).holdoff = false →
    answers (exec (.shedHoldoffEnd t) s) fun u =>
      u.bit Reg.SHD_STS 8 = false ∧ u.pd = s.pd ∧ regsKeptOnly [Reg.SHD_STS] s u ∧ memKept s u)

/-- Channels other than `n` keep their record, VMC_STS and VMC_DUTY. -/
def otherVms (s u : State) (n : Fin 4) : Prop :=
  ∀ k : Fin 4, k ≠ n → u.vm[k] = s.vm[k] ∧ u.reg (Reg.VMC_STS k) = s.reg (Reg.VMC_STS k) ∧ u.reg (Reg.VMC_DUTY k) = s.reg (Reg.VMC_DUTY k)

/-- R216 to R219, R234: a channel that is OFF starts where the module drives and the block runs, RUNNING at once within 2 % of its target; it
is RUNNING once within 2 % for 1 ms, in FAULT TIMEOUT after VMC_TIMEOUT, in HOLD after a short and in FAULT SHORT once its
retries are spent; a stop ramps for 1 ms; CLEAR returns it from FAULT; TARGET_MODE 1 is only for channels 0 and 1. -/
def Obligations.ChannelsStartRetryAndStop : Prop :=
  (∀ (t : Nat) (w : Writer) (n : Fin 4) (v : Word) (s : State), admits s w (Reg.VMC_CTL n) 32 v.toNat = true →
    vmcCtlOk n s v.toNat = true → bitOf v.toNat 2 = false →
    ∀ i ∈ [Instr.vmcEnable t w n v, .vmcTargetMode t w n v],
    (v.toNat % 2 = 1 → s.vmst n = stOff → (s.at t).drives = true → s.blk 0x108 = stRunning → answers (exec i s) fun u =>
      (u.vmst n = stStarting ∨ u.vmst n = stRunning) ∧ u.vm[n].startAt = max s.now t ∧ u.vm[n].v0 = s.reg (Reg.VMC_VOUT n) ∧
      u.bit (Reg.VMC_CTL n) 1 = bitOf v.toNat 1 ∧ otherVms s u n ∧ memKept s u) ∧
    (v.toNat % 2 = 0 → (s.vmst n = stStarting ∨ s.vmst n = stRunning ∨ s.vmst n = stHold) → answers (exec i s) fun u =>
      u.vmst n = stStopping ∧ u.vm[n].stopAt = max s.now t ∧ u.bit (Reg.VMC_CTL n) 1 = bitOf v.toNat 1 ∧ otherVms s u n ∧ memKept s u)) ∧
  (∀ (t : Nat) (w : Writer) (n : Fin 4) (v : Word) (s : State), admits s w (Reg.VMC_CTL n) 32 v.toNat = true →
    bitOf v.toNat 1 = true → 2 ≤ n.val →
    answers (exec (.vmcTargetMode t w n v) s) fun u =>
      u.reg (Reg.VMC_CTL n) = s.reg (Reg.VMC_CTL n) ∧ u.vm = s.vm ∧ u.bit (Reg.IRQ_STS 0x108) 4 = true ∧ memKept s u) ∧
  (∀ (t : Nat) (w : Writer) (n : Fin 4) (v : Word) (s : State), admits s w (Reg.VMC_CTL n) 32 v.toNat = true →
    bitOf v.toNat 2 = true → v.toNat % 2 = 0 → bitOf v.toNat 1 = false → s.vmst n = stFault → s.vmGone n = true →
    answers (exec (.vmcClear t w n v) s) fun u =>
      u.vmst n = stOff ∧ u.fld (Reg.VMC_STS n) 8 8 = 0 ∧ u.fld (Reg.VMC_STS n) 16 4 = 0 ∧ otherVms s u n ∧ memKept s u) ∧
  (∀ (t held : Nat) (n : Fin 4) (s : State), s.vmst n = stStarting → 1000000 ≤ held → s.vmWithin n = true →
    answers (exec (.vmcInRegulation t n held) s) fun u =>
      u.vmst n = stRunning ∧ u.vm[n].runAt = max s.now t ∧ otherVms s u n ∧ regsKeptOnly [Reg.VMC_STS n] s u ∧ memKept s u) ∧
  (∀ (t : Nat) (n : Fin 4) (s : State), s.vmst n = stStarting →
    s.vm[n].startAt + s.reg (Reg.VMC_TIMEOUT n) * 1000000 ≤ max s.now t →
    answers (exec (.vmcTimeout t n) s) fun u =>
      u.vmst n = stFault ∧ u.fld (Reg.VMC_STS n) 8 8 = 2 ∧ u.reg (Reg.VMC_DUTY n) = 0 ∧ posted 0x108 u ∧ memKept s u) ∧
  (∀ (t held : Nat) (n : Fin 4) (s : State), s.vmShort n held = true →
    (s.fld (Reg.VMC_STS n) 16 4 < s.fld (Reg.VMC_SHORT n) 24 4 → answers (exec (.vmcShort t n held) s) fun u =>
      u.vmst n = stHold ∧ u.reg (Reg.VMC_DUTY n) = 0 ∧ u.vm[n].holdAt = max s.now t ∧
      u.reg (Reg.VMC_RETRY_CNT n) = min (s.reg (Reg.VMC_RETRY_CNT n) + 1) (2 ^ 32 - 1) ∧ otherVms s u n ∧ memKept s u) ∧
    (s.fld (Reg.VMC_SHORT n) 24 4 ≤ s.fld (Reg.VMC_STS n) 16 4 → answers (exec (.vmcShort t n held) s) fun u =>
      u.vmst n = stFault ∧ u.fld (Reg.VMC_STS n) 8 8 = 1 ∧ posted 0x108 u ∧ memKept s u)) ∧
  (∀ (t : Nat) (n : Fin 4) (s : State), s.vmst n = stHold → s.vm[n].holdAt + s.reg (Reg.VMC_HICCUP_OFF n) * 1000000 ≤ max s.now t →
    s.fld (Reg.VMC_STS n) 16 4 < 15 → (s.at t).drives = true → s.blk 0x108 = stRunning →
    answers (exec (.vmcHiccupEnd t n) s) fun u =>
      u.fld (Reg.VMC_STS n) 16 4 = s.fld (Reg.VMC_STS n) 16 4 + 1 ∧ (u.vmst n = stStarting ∨ u.vmst n = stRunning) ∧
      u.vm[n].startAt = max s.now t ∧ otherVms s u n ∧ memKept s u) ∧
  (∀ (t : Nat) (n : Fin 4) (s : State), s.vmst n = stRunning → s.vm[n].runAt + 1000000000 ≤ max s.now t →
    answers (exec (.vmcRetryReset t n) s) fun u =>
      u.fld (Reg.VMC_STS n) 16 4 = 0 ∧ u.vmst n = stRunning ∧ u.vm = s.vm ∧ regsKeptOnly [Reg.VMC_STS n] s u ∧ memKept s u) ∧
  (∀ (t : Nat) (n : Fin 4) (s : State), s.vmst n = stStopping → s.vm[n].stopAt + 1000000 ≤ max s.now t →
    s.bit (Reg.VMC_STS n) 4 = false →
    answers (exec (.vmcStopDone t n) s) fun u =>
      u.vmst n = stOff ∧ u.reg (Reg.VMC_DUTY n) = 0 ∧ u.vm = s.vm ∧ regsKeptOnly [Reg.VMC_STS n, Reg.VMC_DUTY n] s u ∧ memKept s u) ∧
  (∀ (t : Nat) (n : Fin 4) (s : State), (s.vmst n = stStarting ∨ s.vmst n = stRunning ∨ s.vmst n = stStopping) →
    max s.now t % 10000 = n.val * 2500 →
    answers (exec (.vmChannelCycle t n) s) fun u =>
      u.vm[n].cycleAt = max s.now t ∧ u.vmst n = s.vmst n ∧ otherVms s u n ∧ regsKeptOnly [Reg.VMC_STS n] s u ∧ memKept s u)

/-- R208 to R215: a control-law sample computes its output in C then D order, clamps it, and updates its states in A then B order unless
HOLD_ON_CLAMP forbids it; a missed deadline is counted and keeps the last output; 16 misses stop the function served. R214: a
bank swap waits for the instance's next sample, which is the first to use the new bank; a later request replaces it; it is immediate for
an instance not enabled; the state is kept unless RESET_ON_SWAP. A coefficient goes to the bank not in use; a record word is written in its range. -/
def Obligations.ControlLawsSampleAsR208 : Prop :=
  (∀ (t wait : Nat) (i : Fin 64) (s : State), (s.at t).cleDue i = true → sparseFind s.cle.swap i.val = none →
    wait + cleCycles (s.cleN i) (s.cleM i) ≤ fieldOf (s.cleRec i 2) 16 16 → fieldOf (s.cleRec i 2) 0 8 = 0 →
    let s0 := s.at t
    let bank := s0.cleBankOf i
    let x := s0.cleX i
    let v := s0.cleInputs i bank
    let raw := cleDot (x.zipIdx.map (fun e => (s0.coef i bank (96 + e.2), e.1)) ++ v.zipIdx.map (fun e => (s0.coef i bank (104 + e.2), e.1)))
    f32 raw ≠ .nan →
    let y := clampCmd (f32 (s0.coef i bank 108)) (f32 (s0.coef i bank 109)) raw 0
    answers (exec (.cleInstanceSample t i wait) s) fun u =>
      u.reg (Reg.CLE_OUT i) = y % 2 ^ 64 ∧ sparseFind u.cle.missRun i.val = none ∧
      (y = raw ∨ bitOf (s.cleRec i 0) 25 = false → sparseFind u.cle.x i.val = some ((List.range (s.cleN i)).map (fun r =>
        cleDot (x.zipIdx.map (fun e => (s0.coef i bank (8 * r + e.2), e.1)) ++
          v.zipIdx.map (fun e => (s0.coef i bank (64 + 4 * r + e.2), e.1)))))) ∧
      (y ≠ raw → bitOf (s.cleRec i 0) 25 = true → sparseFind u.cle.x i.val = sparseFind s.cle.x i.val) ∧
      regsKeptOnly [Reg.CLE_OUT i, Reg.CLE_UTIL] s u ∧ memKept s u) ∧
  (∀ (t wait : Nat) (i : Fin 64) (s : State), (s.at t).cleDue i = true → sparseFind s.cle.swap i.val = none →
    fieldOf (s.cleRec i 2) 16 16 < wait + cleCycles (s.cleN i) (s.cleM i) →
    answers (exec (.cleInstanceSample t i wait) s) fun u =>
      u.reg (Reg.CLE_OUT i) = s.reg (Reg.CLE_OUT i) ∧ u.reg (Reg.CLE_MISS i) = min (s.reg (Reg.CLE_MISS i) + 1) (2 ^ 32 - 1) ∧
      u.reg Reg.CLE_MISS_CNT = min (s.reg Reg.CLE_MISS_CNT + 1) (2 ^ 32 - 1) ∧ u.bit Reg.CLE_STS 0 = true ∧
      u.fld Reg.CLE_STS 8 6 = i.val ∧ sparseFind u.cle.missRun i.val = some ((sparseFind s.cle.missRun i.val).getD 0 + 1) ∧
      u.cle.x = s.cle.x ∧ memKept s u) ∧
  (∀ (t : Nat) (i : Fin 64) (s : State), 16 ≤ (sparseFind s.cle.missRun i.val).getD 0 →
    (∀ c : Fin 4, i.val = c.val → s.vmst c ≠ stFault → answers (exec (.cleDeadlineFault t i) s) fun u =>
      u.vmst c = stFault ∧ u.fld (Reg.VMC_STS i.val) 8 8 = 3 ∧ posted 0x108 u ∧ memKept s u) ∧
    (i.val = 4 → answers (exec (.cleDeadlineFault t i) s) fun u => (∀ b : Fin 48, u.bst b = stFault) ∧ memKept s u) ∧
    ((i.val = 5 ∨ i.val = 6) → answers (exec (.cleDeadlineFault t i) s) fun u =>
      (∀ b : Fin 48, strOf b = i.val - 5 → u.bst b = stFault) ∧ (∀ b : Fin 48, strOf b ≠ i.val - 5 → u.bst b = s.bst b) ∧ memKept s u) ∧
    (7 ≤ i.val → answers (exec (.cleDeadlineFault t i) s) fun u => regsKeptOnly [] s u ∧ memKept s u)) ∧
  (∀ (t : Nat) (w : Writer) (v : Word) (s : State), admits s w Reg.CLE_SWAP 32 v.toNat = true →
    (s.cleOn (v.toNat % 64) = true → answers (exec (.cleSwapWrite t w v) s) fun u =>
      sparseFind u.cle.swap (v.toNat % 64) = some (bitOf v.toNat 8) ∧ u.bit Reg.CLE_SWAP_PEND (v.toNat % 64) = true ∧
      u.cleBankOf (v.toNat % 64) = s.cleBankOf (v.toNat % 64) ∧ u.cleX (v.toNat % 64) = s.cleX (v.toNat % 64) ∧ memKept s u) ∧
    (s.cleOn (v.toNat % 64) = false → answers (exec (.cleSwapWrite t w v) s) fun u =>
      u.cleBankOf (v.toNat % 64) = bitOf v.toNat 8 ∧ sparseFind u.cle.swap (v.toNat % 64) = none ∧
      (bitOf (s.cleRec (v.toNat % 64) 0) 26 = true → u.cleX (v.toNat % 64) = List.replicate (s.cleN (v.toNat % 64)) 0) ∧
      (bitOf (s.cleRec (v.toNat % 64) 0) 26 = false → u.cleX (v.toNat % 64) = s.cleX (v.toNat % 64)) ∧ memKept s u)) ∧
  (∀ (t : Nat) (i : Fin 64) (bank : Bool) (s : State), (s.at t).cleDue i = true → sparseFind s.cle.swap i.val = some bank →
    answers (exec (.cleBankSwap t i) s) fun u =>
      u.cleBankOf i = bank ∧ sparseFind u.cle.swap i.val = none ∧ u.bit Reg.CLE_SWAP_PEND i.val = false ∧
      (bitOf (s.cleRec i 0) 26 = true → u.cleX i = List.replicate (s.cleN i) 0) ∧
      (bitOf (s.cleRec i 0) 26 = false → u.cleX i = s.cleX i) ∧ regsKeptOnly [Reg.CLE_REC0 i, Reg.CLE_SWAP_PEND] s u ∧ memKept s u) ∧
  (∀ (t wait : Nat) (i : Fin 64) (bank : Bool) (s m : State), (s.at t).cleDue i = true → sparseFind s.cle.swap i.val = some bank →
    exec (.cleBankSwap t i) s = .next m → exec (.cleInstanceSample t i wait) s = exec (.cleInstanceSample t i wait) m) ∧
  (∀ (t : Nat) (w : Writer) (v : Word) (s : State), admits s w Reg.CLE_WDATA 32 v.toNat = true →
    let i := s.fld Reg.CLE_WADDR 0 6
    let b := s.bit Reg.CLE_WADDR 6
    let k := s.fld Reg.CLE_WADDR 7 7
    (s.coefOpen i b = true → answers (exec (.cleWdataWrite t w v) s) fun u =>
      u.coef i b k = v.toNat ∧ u.fld Reg.CLE_WADDR 7 7 = (k + 1) % 128 ∧
      (∀ j, j ≠ cleKey i b k → sparseGet cleDefault u.cle.bank j = sparseGet cleDefault s.cle.bank j) ∧ memKept s u) ∧
    (s.coefOpen i b = false → answers (exec (.cleWdataWrite t w v) s) fun u =>
      u.cle = s.cle ∧ u.reg Reg.CLE_WADDR = s.reg Reg.CLE_WADDR ∧ memKept s u)) ∧
  (∀ (t : Nat) (w : Writer) (i : Fin 64) (k : Fin 4) (v : Word) (s : State),
    admits s w (Reg.CLE_REC0 i + 4 * k) 32 v.toNat = true → cleRecOk i k s v.toNat = true →
    answers (exec (.cleRecordWrite t w i k v) s) fun u =>
      (k.val = 1 → u.cleRec i k = v.toNat) ∧ (k.val = 0 → fieldOf (u.cleRec i k) 2 25 = fieldOf v.toNat 2 25) ∧
      u.cle = s.cle ∧ memKept s u)

/-! ## Protection of the bus, the strings and the contactors, the PLL and the OWNER line (R192, R231 to R235) -/

/-- A saturating 32-bit counter counts one. -/
def counted (s u : State) (a : Nat) : Prop := u.reg a = min (s.reg a + 1) (2 ^ 32 - 1)

/-- What every trip of PRT does besides stopping bricks: its bit latches, its counter counts, an event is posted, no memory moves. -/
def prtTripped (s u : State) (bit : Nat) : Prop :=
  u.bit Reg.PRT_STS bit = true ∧ counted s u (Reg.PRT_TRIP_CNT (bit - 8)) ∧ posted 0x10D u ∧ memKept s u

/-- R231 to R233, R235, R192: each protection row acts where its condition has held for its time and is not latched already: a warning sets
its bit and counts; a trip latches, counts, posts and puts the bricks it names into FAULT, with the string's contactor opened;
PRT_CLR clears trips whose conditions are gone, and returns the bricks they held; an unlock of the PLL faults every brick and
channel until it has relocked for 1 ms; a lost OWNER line turns every output off. -/
def Obligations.ProtectionTripsLatchAndClear : Prop :=
  (∀ (t h : Nat) (x : F32) (s : State), s.pulseUp = true → s.above x.toNat Reg.PRT_OV_WARN = true → 100000 ≤ h →
    s.bit Reg.PRT_STS 0 = false →
    answers (exec (.busOvWarn t x h) s) fun u =>
      u.bit Reg.PRT_STS 0 = true ∧ counted s u (Reg.PRT_TRIP_CNT 7) ∧ u.pd = s.pd ∧ u.prt = s.prt ∧
      regsKept 0x10D [Reg.PRT_STS, Reg.PRT_TRIP_CNT 7] s u ∧ memKept s u) ∧
  (∀ (t h : Nat) (x : F32) (s : State), s.pulseUp = true → s.above x.toNat Reg.PRT_OV_TRIP = true → 2000 ≤ h →
    s.bit Reg.PRT_STS 8 = false →
    answers (exec (.busOvTrip t x h) s) fun u =>
      prtTripped s u 8 ∧ (∀ b : Fin 48, u.bst b = stFault ∧ (s.bst b ≠ stFault → u.fld (Reg.PCM_STS b) 8 8 = 4))) ∧
  (∀ (t h : Nat) (x : F32) (s : State), s.pulseUp = true → s.below x.toNat Reg.PRT_UV_WARN = true → 50000 ≤ h →
    s.bit Reg.PRT_STS 1 = false →
    answers (exec (.busUvWarn t x h) s) fun u =>
      u.bit Reg.PRT_STS 1 = true ∧ counted s u (Reg.PRT_TRIP_CNT 7) ∧ u.bit Reg.PLS_FLOOR_ALL 1 = u.floorAllProt ∧
      regsKept 0x10D [Reg.PRT_STS, Reg.PRT_TRIP_CNT 7, Reg.PLS_FLOOR_OUT, Reg.PLS_FLOOR_ALL] s u ∧ memKept s u) ∧
  (∀ (t h : Nat) (x : F32) (s : State), (s.at t).uvTrips x.toNat h = true →
    answers (exec (.busUvTrip t x h) s) fun u =>
      prtTripped s u 9 ∧ (∀ b : Fin 48, u.bst b = stFault ∧ (s.bst b ≠ stFault → u.fld (Reg.PCM_STS b) 8 8 = 4))) ∧
  (∀ (t h : Nat) (x : Str) (i : F32) (s : State), s.pulseUp = true → s.above (abs32 i.toNat) Reg.PRT_OC_WARN = true → 1000000 ≤ h →
    s.bit Reg.PRT_STS (2 + strNum x) = false →
    answers (exec (.stringOcWarn t x i h) s) fun u =>
      u.bit Reg.PRT_STS (2 + strNum x) = true ∧ counted s u (Reg.PRT_TRIP_CNT 7) ∧ u.pd = s.pd ∧
      regsKept 0x10D [Reg.PRT_STS, Reg.PRT_TRIP_CNT 7] s u ∧ memKept s u) ∧
  (∀ (t h : Nat) (x : Str) (i : F32) (s : State), s.pulseUp = true → s.above (abs32 i.toNat) Reg.PRT_OC_TRIP = true → 10000 ≤ h →
    s.bit Reg.PRT_STS (10 + strNum x) = false →
    answers (exec (.stringOcTrip t x i h) s) fun u =>
      prtTripped s u (10 + strNum x) ∧ (∀ b : Fin 48, strOf b = strNum x → u.bst b = stFault) ∧
      (∀ b : Fin 48, strOf b ≠ strNum x → u.bst b = s.bst b) ∧
      (s.ctcState (strNum x) ≠ stOff → s.ctcState (strNum x) ≠ stFault →
        u.ctcState (strNum x) = stFault ∧ u.fld (Reg.CTC_STS (strNum x)) 16 8 = 3 ∧
        u.bit (Reg.CTC_STS (strNum x)) 5 = s.bit (Reg.CTC_STS (strNum x)) 5 ∧
        (s.bit (Reg.CTC_STS (strNum x)) 5 = true → sel u.prt.opening (strNum x) = some (max s.now t)))) ∧
  (∀ (t a : Nat) (x : Str) (i : F32) (s : State), sel s.prt.opening (strNum x) = some a →
    ((f32 i.toNat).abs.lt (Fv.ofNat 5) = true ∨ a + 2000000 ≤ max s.now t) →
    answers (exec (.tripContactorOpen t x i) s) fun u =>
      u.bit (Reg.CTC_STS (strNum x)) 5 = false ∧ u.bit (Reg.CTC_STS (strNum x)) 7 = false ∧ sel u.prt.opening (strNum x) = none ∧
      regsKeptOnly [Reg.CTC_STS (strNum x)] s u ∧ memKept s u) ∧
  (∀ (t h : Nat) (x : Str) (pre : Bool) (s : State), (s.at t).drives = true → s.fbDiffers (strNum x) pre = true → 1000000 ≤ h →
    (if pre then s.ctc[strNum x].preAt else s.ctc[strNum x].mainAt) + s.reg Reg.PRT_CTC_WIN * 1000000 ≤ max s.now t →
    s.bit Reg.PRT_STS (12 + strNum x) = false →
    answers (exec (.contactorFbMismatch t x pre h) s) fun u =>
      prtTripped s u (12 + strNum x) ∧ (∀ b : Fin 48, strOf b = strNum x → u.bst b = stFault) ∧
      u.ctcState (strNum x) = stFault ∧ u.fld (Reg.CTC_STS (strNum x)) 16 8 = 1 ∧
      u.bit (Reg.CTC_STS (strNum x)) 5 = false ∧ u.bit (Reg.CTC_STS (strNum x)) 7 = false) ∧
  (∀ (t h : Nat) (x : F32) (s : State),
    ((f32 x.toNat).lt ((f32 (s.reg Reg.PRT_OV_WARN)).sub (Fv.pow2 (-1))) = true → 1000000 ≤ h →
      answers (exec (.protWarnRecover t .busOv x h) s) fun u =>
        u.bit Reg.PRT_STS 0 = false ∧ regsKeptOnly [Reg.PRT_STS] s u ∧ memKept s u) ∧
    (((f32 (s.reg Reg.PRT_UV_WARN)).add (Fv.ofNat 1)).lt (f32 x.toNat) = true → 1000000 ≤ h →
      answers (exec (.protWarnRecover t .busUv x h) s) fun u =>
        u.bit Reg.PRT_STS 1 = false ∧ regsKeptOnly [Reg.PRT_STS, Reg.PLS_FLOOR_OUT, Reg.PLS_FLOOR_ALL] s u ∧ memKept s u) ∧
    (∀ y : Str, (f32 x.toNat).abs.lt ((f32 (s.reg Reg.PRT_OC_WARN)).sub (Fv.ofNat 20)) = true → 10000000 ≤ h →
      answers (exec (.protWarnRecover t (.stringOc y) x h) s) fun u =>
        u.bit Reg.PRT_STS (2 + strNum y) = false ∧ regsKeptOnly [Reg.PRT_STS] s u ∧ memKept s u)) ∧
  (∀ (t : Nat) (w : Writer) (v : Word) (s : State), admits s w Reg.PRT_CLR 32 v.toNat = true →
    ((s.clearing v.toNat).any s.tripHolds = false → answers (exec (.prtClr t w v) s) fun u =>
      (∀ b ∈ [8, 9, 10, 11, 12, 13], u.bit Reg.PRT_STS b = (s.bit Reg.PRT_STS b && !bitOf v.toNat b)) ∧ memKept s u) ∧
    ((s.clearing v.toNat).any s.tripHolds = true → answers (exec (.prtClr t w v) s) fun u =>
      u.reg Reg.PRT_STS = s.reg Reg.PRT_STS ∧ u.prt = s.prt ∧ u.pd = s.pd ∧ u.bit (Reg.IRQ_STS 0x10D) 4 = true ∧ memKept s u) ∧
    (∀ k ∈ [8, 9], ∀ b : Fin 48, s.clearing v.toNat = [k] → s.tripHolds k = false → s.bst b = stFault →
      ((sparseFind s.prt.stopped k).getD []).contains b.val = true →
      (sparseErase s.prt.stopped k).any (fun e => e.2.contains b.val) = false →
      answers (exec (.prtClr t w v) s) fun u => u.bst b = stOff)) ∧
  (∀ (t : Nat) (s : State), s.prt.pll = true → s.pw.pulse ≠ .off →
    answers (exec (.pllUnlock t) s) fun u =>
      u.prt.pll = false ∧ u.prt.pllSince = max s.now t ∧ counted s u Reg.PTB_UNLOCK_CNT ∧ counted s u (Reg.PRT_TRIP_CNT 6) ∧
      (∀ b : Fin 48, u.bst b = stFault ∧ (s.bst b ≠ stFault → u.fld (Reg.PCM_STS b) 8 8 = 6)) ∧
      (∀ n : Fin 4, u.vmst n = stFault) ∧ posted 0x10D u ∧ memKept s u) ∧
  (∀ (t h : Nat) (s : State), s.prt.pll = false → 1000000 ≤ h →
    answers (exec (.pllRelock t h) s) fun u =>
      u.prt.pll = true ∧ (∀ b : Fin 48, s.bst b = stFault → s.fld (Reg.PCM_STS b) 8 8 = 6 → u.bst b = stOff) ∧
      (∀ b : Fin 48, s.fld (Reg.PCM_STS b) 8 8 ≠ 6 → u.bst b = s.bst b) ∧
      (∀ n : Fin 4, s.vmst n = stFault → s.fld (Reg.VMC_STS n) 8 8 = 4 → u.vmst n = stOff) ∧
      (∀ n : Fin 4, s.fld (Reg.VMC_STS n) 8 8 ≠ 4 → u.vmst n = s.vmst n) ∧ memKept s u) ∧
  (∀ (t : Nat) (s : State), ((s.at t).ownLine = false ∨ s.clp.contest = true) →
    answers (exec (.ownerLost t) s) fun u =>
      (∀ b : Fin 48, u.bst b = if s.bst b = stFault then stFault else stOff) ∧
      (∀ n : Fin 4, u.vmst n = if s.vmst n = stFault then stFault else stOff) ∧
      (∀ x : Fin 2, u.bit (Reg.CTC_STS x) 5 = false ∧ u.bit (Reg.CTC_STS x) 7 = false ∧
        u.ctcState x = if s.ctcState x = stFault then stFault else stOff) ∧
      u.prt.opening = (none, none) ∧ memKept s u)

/-! ## Bead loops (R237 to R252, R257, R278) -/

/-- The loop of the other string, its Beads among it, stays as it was. -/
def otherLoop (s u : State) (x : Fin 2) : Prop := ∀ y : Fin 2, y ≠ x → u.loop[y] = s.loop[y]

/-- Beads of a string other than those of the list keep their record. -/
def otherBeads (s u : State) (x : Fin 2) (l : List (Fin 15)) : Prop := ∀ j : Fin 15, j ∉ l → u.bead x j = s.bead x j

/-- Every register keeps its value but those listed and the cells' flags. -/
def flagsOnly (l : List Nat) (s u : State) : Prop :=
  ∀ a, a ∉ l → (a < Reg.BDS_CELL_FLAGS 0 ∨ Reg.BDS_CELL_FLAGS 0 + 480 ≤ a) → u.reg a = s.reg a

/-- A command that the transmitter sends to one Bead, or to all, changes those Beads' records by `f` and nothing else. -/
def beadsSet (s u : State) (x : Fin 2) (l : List (Fin 15)) (f : BeadSt → BeadSt) : Prop :=
  (∀ j ∈ l, u.bead x j = f (s.bead x j)) ∧ otherBeads s u x l ∧ otherLoop s u x ∧ regsKeptOnly [] s u ∧ memKept s u

/-- R240 to R252, R245, R278: the module that drives sends the Bead commands, each with its effect; a reply whose CRC is right stores its eight
readings and its slow field and counts them against every condition, one whose CRC is wrong is only counted; a failed hop is
shown, probed and restored after 100 good probes; the balance requests lapse after 10 s; FORCE is open only with its string OFF
in a state that opens error injection. -/
def Obligations.BeadLoopsCarryCommandsAndReplies : Prop :=
  (∀ (t : Nat) (x : Str) (s : State), (s.at t).beadTx = true →
    (answers (exec (.beadWake t x) s) fun u =>
      beadsSet s u (strNum x) allBeads (fun b => { b with awake := true, lastReply := max s.now t })) ∧
    (answers (exec (.beadSleep t x) s) fun u =>
      beadsSet s u (strNum x) allBeads (fun b => { b with awake := false, bal := 0#16, force := 0#16 })) ∧
    (∀ (a : BitVec 4) (v : BitVec 16), answers (exec (.beadConfig t x a v) s) fun u =>
      beadsSet s u (strNum x) (addressed a.toNat) (fun b => { b with window := v.toNat % 2 ^ 11 })) ∧
    (∀ (a : BitVec 4) (v : BitVec 16), answers (exec (.beadSettle t x a v) s) fun u =>
      beadsSet s u (strNum x) (addressed a.toNat) (fun b => { b with settle := v.toNat % 2 ^ 8 })) ∧
    (∀ j : Fin 15, answers (exec (.beadDiag t x j) s) fun u =>
      beadsSet s u (strNum x) [j] (fun b => { b with diag := 256 })) ∧
    (∀ l : List (Option (BitVec 48)), answers (exec (.beadAddr t x l) s) fun u =>
      (∀ (j : Fin 15) (n : BitVec 48), l.getD j.val none = some n → (u.bead (strNum x) j).reach = true ∧ (u.bead (strNum x) j).serial = n) ∧
      (∀ j : Fin 15, l.getD j.val none = none →
        u.bead (strNum x) j = { s.bead (strNum x) j with reach := false }) ∧
      (∀ (j : Fin 15) (n : BitVec 48), l.getD j.val none = some n → (s.bead (strNum x) j).serial ≠ 0#48 →
        (s.bead (strNum x) j).serial ≠ n → posted 0x10F u) ∧
      otherLoop s u (strNum x) ∧ regsKept 0x10F [] s u ∧ memKept s u) ∧
    (∀ v : BitVec 16, s.ship = false → answers (exec (.beadMeas t x v) s) fun u =>
      s.loop[strNum x].cycle < u.loop[strNum x].cycle ∧ u.loop[strNum x].cycle ≤ s.loop[strNum x].cycle + 10 ∧
      u.loop[strNum x].cycle % 10 = v.toNat % 16 % 10 ∧
      u.bit Reg.BDS_STS 6 = (bitOf v.toNat 4 && decide (125 < s.reg Reg.BDS_SETTLE + s.reg Reg.BDS_WINDOW)) ∧
      otherLoop s u (strNum x) ∧ flagsOnly [Reg.BDS_STS] s u ∧ memKept s u) ∧
    (∀ v : BitVec 16, s.ship = false → answers (exec (.beadRead t x v) s) fun u =>
      u.loop[strNum x] = (if bitOf v.toNat 0 then { s.loop[strNum x] with got := [] } else s.loop[strNum x]) ∧
      otherLoop s u (strNum x) ∧ regsKeptOnly [] s u ∧ memKept s u) ∧
    (∀ (j : Fin 15) (m : BitVec 16), answers (exec (.beadBal t x j m) s) fun u =>
      (∀ p : Fin 16, bitOf (u.bead (strNum x) j).bal.toNat p = (bitOf m.toNat p && !s.cellFlag (strNum x) (16 * j + p) 2 &&
        !s.parked (strNum x) && !s.ship && s.bit Reg.BDS_CTL 0)) ∧
      otherBeads s u (strNum x) [j] ∧ otherLoop s u (strNum x) ∧ regsKeptOnly [] s u ∧ memKept s u) ∧
    (∀ (j : Fin 15) (v : BitVec 16), v.toNat % 32 ≤ 16 →
      (bitOf v.toNat 5 = true → answers (exec (.beadOwt t x j v) s) fun u =>
        (∃ ev, u.loop[strNum x].owt = some (j.val, (v.toNat % 32, (max 1 s.loop[strNum x].cycle, ev)))) ∧
        (∀ p ∈ wireCells (v.toNat % 32), u.cellFlag (strNum x) (16 * j + p) 1 = true) ∧ u.fld Reg.BDS_OWT_RES 0 3 = 1 ∧
        otherLoop s u (strNum x) ∧ flagsOnly [Reg.BDS_OWT_RES] s u ∧ memKept s u) ∧
      (bitOf v.toNat 5 = false → answers (exec (.beadOwt t x j v) s) fun u =>
        (∀ p ∈ wireCells (v.toNat % 32), u.cellFlag (strNum x) (16 * j + p) 1 = false) ∧ u.loop = s.loop ∧
        flagsOnly [] s u ∧ memKept s u)) ∧
    (∀ (j : Fin 15) (m : BitVec 16),
      (s.forceOk (strNum x) = true → answers (exec (.beadForce t x j m) s) fun u =>
        (u.bead (strNum x) j).force = m ∧ (u.bead (strNum x) j).bal = (s.bead (strNum x) j).bal ∧
        (∀ p : Fin 16, bitOf (taintOf m.toNat) p = true → u.cellFlag (strNum x) (16 * j + p) 0 = true) ∧
        otherBeads s u (strNum x) [j] ∧ otherLoop s u (strNum x) ∧ flagsOnly [] s u ∧ memKept s u) ∧
      (s.forceOk (strNum x) = false → answers (exec (.beadForce t x j m) s) fun u =>
        u.loop = s.loop ∧ regsKeptOnly [] s u ∧ memKept s u))) ∧
  (∀ (t : Nat) (x : Str) (f : BitVec 176) (s : State), s.pulseUp = true → s.ship = false →
    (replyCrcOk f = false → answers (exec (.beadReplyRx t x f) s) fun u =>
      counted s u Reg.BDS_CRC_ERR ∧ u.loop = s.loop ∧ regsKept 0x10F [Reg.BDS_CRC_ERR] s u ∧ memKept s u) ∧
    (replyCrcOk f = true → rpl f 0 4 < 15 → answers (exec (.beadReplyRx t x f) s) fun u =>
      let c (k : Nat) := 16 * rpl f 0 4 + 2 * k + rpl f 4 1
      (∀ k : Fin 8, u.cellCode (strNum x) (c k) = rpl f (16 + 16 * k) 16 ∧ u.cellFlag (strNum x) (c k) 3 = false) ∧
      (∀ (y : Fin 2) (n : Fin 240), (∀ k : Fin 8, y = strNum x → n.val ≠ c k) → u.cellCode y n = s.cellCode y n) ∧
      (rpl f 5 4 = 0 → u.half (Reg.BDS_COARSE 0) (15 * strNum x + rpl f 0 4) = rpl f 144 12) ∧
      (∀ q : Fin 8, rpl f 5 4 = q + 1 → u.half (Reg.BDS_TEMP 0) (120 * strNum x + 8 * rpl f 0 4 + q) = rpl f 144 16) ∧
      (∀ (k : Fin 8) (i : Fin 5), u.runLen (strNum x) i (c k) =
        if u.cellCond (strNum x) (c k) i then min 255 (s.runLen (strNum x) i (c k) + 1) else 0) ∧
      (u.bead (strNum x) (beadOf (rpl f 0 4))).lastReply = max s.now t ∧
      (u.bead (strNum x) (beadOf (rpl f 0 4))).awake = true ∧ (u.bead (strNum x) (beadOf (rpl f 0 4))).reach = true ∧
      (u.bead (strNum x) (beadOf (rpl f 0 4))).thermal = decide (rpl f 12 1 = 1) ∧
      otherBeads s u (strNum x) [beadOf (rpl f 0 4)] ∧ otherLoop s u (strNum x) ∧ memKept s u)) ∧
  (∀ (t : Nat) (x : Str) (s : State), 10 ≤ s.loop[strNum x].sumBad → s.bit Reg.HVS_STS (1 + strNum x) = false →
    answers (exec (.stringSumMismatch t x) s) fun u =>
      u.bit Reg.HVS_STS (1 + strNum x) = true ∧ posted 0x110 u ∧ u.loop = s.loop ∧ regsKept 0x110 [Reg.HVS_STS] s u ∧ memKept s u) ∧
  (∀ (t : Nat) (x : Str) (h : Fin 16) (s : State),
    (s.pulseUp = true → s.loop[strNum x].hopFailed.contains h.val = false → answers (exec (.hopFail t x h) s) fun u =>
      h.val ∈ u.loop[strNum x].hopFailed ∧
      (s.loop[strNum x].hopFailed = [] → u.fld Reg.BDS_STS (2 * strNum x) 2 = 1 ∧ u.fld Reg.BDS_STS (9 + 4 * strNum x) 4 = h) ∧
      (s.loop[strNum x].hopFailed ≠ [] → u.fld Reg.BDS_STS (2 * strNum x) 2 = 2) ∧
      otherLoop s u (strNum x) ∧ regsKeptOnly [Reg.BDS_STS] s u ∧ memKept s u) ∧
    (∀ ok : Bool, (s.at t).beadTx = true → s.loop[strNum x].hopFailed.contains h.val = true → answers (exec (.hopProbe t x h ok) s) fun u =>
      sparseFind u.loop[strNum x].hopGood h.val =
        some (if ok then min 100 ((sparseFind s.loop[strNum x].hopGood h.val).getD 0 + 1) else 0) ∧
      u.loop[strNum x].hopFailed = s.loop[strNum x].hopFailed ∧ otherLoop s u (strNum x) ∧ regsKeptOnly [] s u ∧ memKept s u)) ∧
  (∀ (t : Nat) (x : Str) (s : State), max s.now t % 1000000 = 0 →
    answers (exec (.loopCloseRestore t x) s) fun u =>
      (∀ h, h ∈ u.loop[strNum x].hopFailed ↔
        h ∈ s.loop[strNum x].hopFailed ∧ (sparseFind s.loop[strNum x].hopGood h).getD 0 < 100) ∧
      (u.loop[strNum x].hopFailed = [] → u.fld Reg.BDS_STS (2 * strNum x) 2 = 0) ∧
      otherLoop s u (strNum x) ∧ regsKeptOnly [Reg.BDS_STS] s u ∧ memKept s u) ∧
  (∀ (t b : Nat) (x : Str) (s : State), s.loop[strNum x].lowSince = some b → b + 1000000000 ≤ max s.now t →
    answers (exec (.cadenceSlow t x) s) fun u =>
      u.bit Reg.BDS_STS (4 + strNum x) = false ∧ u.loop = s.loop ∧ regsKeptOnly [Reg.BDS_STS] s u ∧ memKept s u) ∧
  (∀ (t : Nat) (w : Writer) (i : Fin 15) (v : Word) (s : State), admits s w (Reg.BDS_BAL_REQ i) 32 v.toNat = true →
    answers (exec (.bdsBalReqWrite t w i v) s) fun u =>
      u.reg (Reg.BDS_BAL_REQ i) = v.toNat ∧ (∀ x : Fin 2, u.loop[x] = { s.loop[x] with balWritten := max s.now t }) ∧
      regsKeptW 0x10F [Reg.BDS_BAL_REQ i] s u ∧ memKept s u) ∧
  (∀ (t : Nat) (s : State), s.loop[(0 : Fin 2)].balWritten + 10000000000 ≤ max s.now t →
    answers (exec (.balReqLapse t) s) fun u =>
      (∀ (x : Fin 2) (j : Fin 15), u.bead x j = { s.bead x j with bal := 0#16 }) ∧ regsKeptOnly [] s u ∧ memKept s u) ∧
  (∀ (t : Nat) (w : Writer) (v : Word) (s : State), admits s w Reg.BDS_BAL_FORCE 32 v.toNat = true → (s.at t).beadTx = true →
    (balForceOk s v.toNat = true → answers (exec (.bdsBalForceWrite t w v) s) fun u =>
      (u.bead (forceStr v.toNat) (beadOf (fieldOf v.toNat 1 4))).force.toNat = fieldOf v.toNat 16 16 ∧
      otherBeads s u (forceStr v.toNat) [beadOf (fieldOf v.toNat 1 4)] ∧ otherLoop s u (forceStr v.toNat) ∧ memKept s u) ∧
    (balForceOk s v.toNat = false → answers (exec (.bdsBalForceWrite t w v) s) fun u =>
      u.loop = s.loop ∧ u.bit (Reg.IRQ_STS 0x10F) 4 = true ∧ memKept s u))

/-! ## Cells and sense wires (R253 to R257) -/

/-- What a cell trip of a string does (R257): its bit latches, the string's bricks stop and its contactor goes to FAULT, and an
event is posted; the other string's bricks run on. -/
def cellTripped (s u : State) (x : Fin 2) (bit cause : Nat) : Prop :=
  u.bit Reg.BDS_TRIP_STS (8 * x.val + bit) = true ∧ (∀ b : Fin 48, strOf b = x.val → u.bst b = stFault) ∧
  (∀ b : Fin 48, strOf b ≠ x.val → u.bst b = s.bst b) ∧
  (s.ctcState x ≠ stOff → s.ctcState x ≠ stFault → u.ctcState x = stFault ∧ u.fld (Reg.CTC_STS x) 16 8 = cause) ∧
  posted 0x10F u ∧ memKept s u

/-- The string's open-wire test asked for (R255). -/
def owtAsked (s u : State) (x : Fin 2) (j w ev : Nat) : Prop :=
  u.loop[x].owt = some (j, (w, (0, ev))) ∧ u.reg Reg.BDS_OWT_RES = 1 ∧ otherLoop s u x ∧ memKept s u

/-- R257, R243, R252: a cell warning or trip acts on its second consecutive reading, a temperature likewise, a cold input at once, an input
out of range on its tenth; a Bead without a reply for 50 ms, or with three mismatches, trips its string; warnings recover at
their levels; BDS_CLR clears the trips whose conditions are gone. -/
def Obligations.CellRulesActOnConsecutiveReadings : Prop :=
  (∀ (t : Nat) (x : Str) (c : Fin 240) (s : State), s.ship = false →
    (2 ≤ s.runLen (strNum x) 0 c → answers (exec (.cellOvWarn t x c) s) fun u =>
      u.cellFlag (strNum x) c 4 = true ∧ u.bit Reg.BDS_TRIP_STS (8 * strNum x + 6) = true ∧ u.loop = s.loop ∧
      flagsOnly [Reg.BDS_TRIP_STS] s u ∧ memKept s u) ∧
    (2 ≤ s.runLen (strNum x) 2 c → answers (exec (.cellUvWarn t x c) s) fun u =>
      u.cellFlag (strNum x) c 5 = true ∧ u.bit Reg.BDS_TRIP_STS (8 * strNum x + 6) = true ∧ u.loop = s.loop ∧
      flagsOnly [Reg.BDS_TRIP_STS] s u ∧ memKept s u) ∧
    (2 ≤ s.runLen (strNum x) 1 c → s.cellLatched (strNum x) 0 = false →
      answers (exec (.cellOvTrip t x c) s) fun u => cellTripped s u (strNum x) 0 4) ∧
    (2 ≤ s.runLen (strNum x) 3 c → s.cellLatched (strNum x) 1 = false →
      answers (exec (.cellUvTrip t x c) s) fun u => cellTripped s u (strNum x) 1 4) ∧
    (2 ≤ s.runLen (strNum x) 4 c → s.cellLatched (strNum x) 2 = false →
      answers (exec (.pairSumTrip t x c) s) fun u => cellTripped s u (strNum x) 2 4)) ∧
  (∀ (t : Nat) (x : Str) (q : Fin 120) (s : State), s.ship = false →
    (2 ≤ s.runLen (strNum x) 5 q → answers (exec (.tempWarn t x q) s) fun u =>
      q.val ∈ u.loop[strNum x].warnTemps ∧ u.bit Reg.BDS_TRIP_STS (8 * strNum x + 6) = true ∧ otherLoop s u (strNum x) ∧
      regsKeptOnly [Reg.BDS_TRIP_STS] s u ∧ memKept s u) ∧
    (2 ≤ s.runLen (strNum x) 6 q → s.cellLatched (strNum x) 3 = false →
      answers (exec (.tempTrip t x q) s) fun u => cellTripped s u (strNum x) 3 4) ∧
    (1 ≤ s.runLen (strNum x) 7 q → answers (exec (.coldCharge t x q) s) fun u =>
      q.val ∈ u.loop[strNum x].coldInputs ∧ otherLoop s u (strNum x) ∧ regsKeptOnly [] s u ∧ memKept s u) ∧
    (10 ≤ s.runLen (strNum x) 8 q → answers (exec (.tempInputFault t x q) s) fun u =>
      q.val ∈ u.loop[strNum x].tempFault ∧ otherLoop s u (strNum x) ∧ regsKeptOnly [Reg.BDS_TRIP_STS] s u ∧ memKept s u)) ∧
  (∀ (t : Nat) (x : Str) (j : Fin 15) (s : State), s.ship = false → s.cellLatched (strNum x) 4 = false →
    ((s.bead (strNum x) j).awake = true → (s.bead (strNum x) j).lastReply + 50000000 ≤ max s.now t →
      answers (exec (.beadLoss t x j) s) fun u =>
        cellTripped s u (strNum x) 4 5 ∧ (u.bead (strNum x) j).reach = false ∧ otherBeads s u (strNum x) [j]) ∧
    (3 ≤ (s.bead (strNum x) j).mismatchRun → answers (exec (.beadSwitchFault t x j) s) fun u =>
      cellTripped s u (strNum x) 4 5 ∧ u.loop = s.loop)) ∧
  (∀ (t h : Nat) (x : Str) (i : Fin 240) (s : State),
    (uvBelow (s.cellHalfUv (strNum x) i)
        (rn32 ((f32 (s.reg Reg.BDS_LIM_OV_WARN)).sub ((Fv.ofNat 3).div (Fv.ofNat 100)))) = true → 100000000 ≤ h →
      answers (exec (.cellWarnRecover t x .overvoltage i h) s) fun u =>
        u.cellFlag (strNum x) i 4 = false ∧ u.loop = s.loop ∧ flagsOnly [Reg.BDS_TRIP_STS] s u ∧ memKept s u) ∧
    (uvAbove (s.cellHalfUv (strNum x) i)
        (rn32 ((f32 (s.reg Reg.BDS_LIM_UV_WARN)).add ((Fv.ofNat 3).div (Fv.ofNat 100)))) = true → 100000000 ≤ h →
      answers (exec (.cellWarnRecover t x .undervoltage i h) s) fun u =>
        u.cellFlag (strNum x) i 5 = false ∧ u.loop = s.loop ∧ flagsOnly [Reg.BDS_TRIP_STS] s u ∧ memKept s u) ∧
    (tBelow (s.tempAt (strNum x) i) (s.reg Reg.BDS_LIM_T_WARN) (-3) = true → 10000000000 ≤ h →
      answers (exec (.cellWarnRecover t x .temperature i h) s) fun u =>
        i.val ∉ u.loop[strNum x].warnTemps ∧ otherLoop s u (strNum x) ∧ regsKeptOnly [Reg.BDS_TRIP_STS] s u ∧ memKept s u) ∧
    (tAbove (s.tempAt (strNum x) i) (s.reg Reg.BDS_LIM_T_COLD) 2 = true →
      answers (exec (.cellWarnRecover t x .cold i h) s) fun u =>
        i.val ∉ u.loop[strNum x].coldInputs ∧ otherLoop s u (strNum x) ∧ regsKeptOnly [] s u ∧ memKept s u) ∧
    (10 ≤ s.runLen (strNum x) 9 i → answers (exec (.cellWarnRecover t x .input i h) s) fun u =>
      i.val ∉ u.loop[strNum x].tempFault ∧ otherLoop s u (strNum x) ∧ regsKeptOnly [Reg.BDS_TRIP_STS] s u ∧ memKept s u)) ∧
  (∀ (t : Nat) (w : Writer) (s : State), admits s w Reg.BDS_CTL 32 (4 + s.fld Reg.BDS_CTL 0 1) = true →
    answers (exec (.bdsClr t w) s) fun u =>
      (∀ (x : Fin 2) (k : Fin 6), u.cellLatched x k = (s.cellLatched x k && !(s.at t).cellTripGone x k)) ∧
      u.bit Reg.BDS_CTL 0 = s.bit Reg.BDS_CTL 0 ∧ u.loop = s.loop ∧ memKept s u)

/-- R253 to R256: the deviations of a Bead ask for the test of the row that applies, or for none; OWT_GO asks for firmware's test where the
string is free; after its cycles a test is shown and judged: an open wire excludes its cells, an intact one asked for by
firmware is released, a short trips the string, and an unresolved wire is tested again every 60 s. -/
def Obligations.SenseWiresAreTestedAndJudged : Prop :=
  (∀ (t : Nat) (x : Str) (j : Fin 15) (d : List Int) (s : State), s.pulseUp = true → s.ship = false →
    s.loop[strNum x].owt = none → (∀ (p : Fin 16) (k : Fin 3), s.cellFlag (strNum x) (16 * j + p) k = false) →
    let dev := (f32 (s.reg Reg.BDS_SW_DEV)).mul (Fv.ofNat 1000000)
    let low (p : Nat) := (Fv.ofInt (d.getD p 0)).le dev.neg
    let high (p : Nat) := dev.le (Fv.ofInt (d.getD p 0))
    (s.bead (strNum x) j).plausRun = 0 →
    ((∀ p : Fin 16, low p = false ∧ high p = false) → answers (exec (.deviationEval t x j d) s) fun u =>
      u.loop = s.loop ∧ regsKeptOnly [] s u ∧ memKept s u) ∧
    (∀ k : Fin 16, 1 ≤ k.val → low (k - 1) = true → high k = true → (d.getD (k - 1) 0 + d.getD k 0).natAbs ≤ 10000 →
      (∀ p : Fin 16, p.val ≠ k - 1 → p ≠ k → low p = false ∧ high p = false) →
      answers (exec (.deviationEval t x j d) s) fun u =>
        owtAsked s u (strNum x) j k 1 ∧ regsKeptOnly [Reg.BDS_OWT_RES] s u) ∧
    (∀ p : Fin 16, low p = true → high p = false → (∀ q : Fin 16, q ≠ p → low q = false ∧ high q = false) →
      (p.val = 0 ∨ (d.getD (p - 1) 0).natAbs ≤ 10000) → (p.val = 15 ∨ (d.getD (p + 1) 0).natAbs ≤ 10000) →
      answers (exec (.deviationEval t x j d) s) fun u =>
        owtAsked s u (strNum x) j p (4 + 8 * p) ∧ regsKeptOnly [Reg.BDS_OWT_RES] s u)) ∧
  (∀ (t : Nat) (w : Writer) (s : State), admits s w Reg.BDS_CTL 32 (2 + s.fld Reg.BDS_CTL 0 1) = true →
    (s.owtGoOk = true → answers (exec (.bdsOwtGo t w) s) fun u =>
      owtAsked s u s.owtReq.1 s.owtReq.2.1 s.owtReq.2.2 0 ∧ u.bit Reg.BDS_CTL 0 = s.bit Reg.BDS_CTL 0) ∧
    (s.owtGoOk = false → answers (exec (.bdsOwtGo t w) s) fun u =>
      u.loop = s.loop ∧ u.reg Reg.BDS_OWT_RES = s.reg Reg.BDS_OWT_RES ∧ u.bit (Reg.IRQ_STS 0x10F) 4 = true ∧ memKept s u)) ∧
  (∀ (t mv c0 ev : Nat) (x : Str) (j : Fin 15) (k : Fin 17) (s : State), s.loop[strNum x].owt = some (j.val, (k.val, (c0, ev))) →
    c0 ≠ 0 → c0 + 6 ≤ s.loop[strNum x].cycle →
    (ev % 8 = 0 → answers (exec (.owtResult t x mv) s) fun u =>
      u.loop[strNum x].owt = none ∧ u.fld Reg.BDS_OWT_RES 16 16 = min 65535 (mv / 1000) ∧
      u.fld Reg.BDS_OWT_RES 0 3 = (if mv ≤ 20000 then 2 else if 300000 ≤ mv then 3 else 4) ∧
      (∀ p ∈ wireCells k, u.cellFlag (strNum x) (16 * j + p) 1 = false) ∧
      (mv ≤ 20000 → (j.val, k.val) ∉ u.loop[strNum x].openWires ∧
        ∀ p ∈ wireCells k, u.cellFlag (strNum x) (16 * j + p) 2 = false) ∧
      otherLoop s u (strNum x) ∧ flagsOnly [Reg.BDS_OWT_RES] s u ∧ memKept s u) ∧
    (ev % 8 ≠ 0 → 300000 ≤ mv → answers (exec (.owtResult t x mv) s) fun u =>
      (j.val, k.val) ∈ u.loop[strNum x].openWires ∧ (∀ p ∈ wireCells k, u.cellFlag (strNum x) (16 * j + p) 2 = true) ∧
      u.reg (if (strNum x).val = 0 then Reg.BDS_CLASS_A else Reg.BDS_CLASS_B) = 1 + 8 * j + 128 * k ∧ posted 0x10F u ∧
      otherLoop s u (strNum x) ∧ memKept s u) ∧
    (ev % 8 ≠ 0 → ev % 8 < 4 → mv < 300000 → answers (exec (.owtResult t x mv) s) fun u =>
      (j.val, (k.val, max s.now t + 60000000000)) ∈ u.loop[strNum x].unresolved ∧
      (∀ p ∈ wireCells k, u.cellFlag (strNum x) (16 * j + p) 2 = true) ∧
      u.reg (if (strNum x).val = 0 then Reg.BDS_CLASS_A else Reg.BDS_CLASS_B) = 4 + 8 * j + 128 * k ∧ posted 0x10F u ∧
      otherLoop s u (strNum x) ∧ memKept s u) ∧
    (∀ p : Fin 16, ev = 4 + 8 * p → mv < 300000 → answers (exec (.owtResult t x mv) s) fun u =>
      owtAsked s u (strNum x) j (p + 1) (ev + 128 + (if mv ≤ 20000 then 0 else 256))) ∧
    (∀ p : Fin 16, ev = 4 + 8 * p + 128 → mv ≤ 20000 → s.cellLatched (strNum x) 5 = false →
      answers (exec (.owtResult t x mv) s) fun u => cellTripped s u (strNum x) 5 6)) ∧
  (∀ (t due j k : Nat) (x : Str) (s : State), s.loop[strNum x].owt = none →
    dueRetest s.loop[strNum x] (max s.now t) = some (j, (k, due)) →
    answers (exec (.unresolvedRetest t x) s) fun u =>
      owtAsked s u (strNum x) j k 7 ∧ (j, (k, due + 60000000000)) ∈ u.loop[strNum x].unresolved ∧
      regsKeptOnly [Reg.BDS_OWT_RES] s u)

/-! ## Contactors, rest windows, excitation, learned values and ship mode (R258 to R276) -/

/-- One record has been queued for the journal under the next SEQ (R383, R384). -/
def queuedRec (s u : State) (ty src : Nat) (sync : Bool) (payload : List Byte) : Prop :=
  (∃ e : JEnt, u.jnl.queue = s.jnl.queue ++ [e] ∧ e.item.ty = ty ∧ e.item.seq = s.reg Reg.JNL_SEQ ∧ e.item.src = src ∧
    e.item.sync = sync ∧ e.item.payload = payload) ∧ u.reg Reg.JNL_SEQ = (s.reg Reg.JNL_SEQ + 1) % 2 ^ 64

/-- A string's contactor is in FAULT with its coils released and its precharge channel's enable cleared (R259). -/
def closeFailed (u : State) (x : Fin 2) (cause : Nat) : Prop :=
  u.ctcState x = stFault ∧ u.fld (Reg.CTC_STS x) 16 8 = cause ∧ u.bit (Reg.CTC_STS x) 5 = false ∧ u.bit (Reg.CTC_STS x) 7 = false ∧
  u.bit (Reg.VMC_CTL (preVm x)) 0 = false

/-- R258 to R261, R276: ENABLE closes a string from OFF where every condition of R259 holds, is rejected where one fails, waits while the other
string precharges, opens a string that runs, and rearms one that opens; CLEAR returns it from FAULT once the cause is gone;
feedbacks carry a close and an open on; a close that misses its times ends in FAULT. -/
def Obligations.ContactorsCloseAndOpenInOrder : Prop :=
  (∀ (t : Nat) (w : Writer) (x : Str) (v : Word) (s : State), admits s w (Reg.CTC_CTL (strNum x)) 32 v.toNat = true →
    bitOf v.toNat 1 = false →
    (bitOf v.toNat 0 = true → s.ctcState (strNum x) = stOff → (s.at t).drives = true → s.closeFails (strNum x) = 0 →
      s.ctcState (other (strNum x)) ≠ stStarting → answers (exec (.ctcEnable t w x v) s) fun u =>
        u.ctcState (strNum x) = stStarting ∧ u.bit (Reg.CTC_STS (strNum x)) 7 = true ∧ u.bit (Reg.CTC_CTL (strNum x)) 0 = true ∧
        regsKeptW 0x10E [Reg.CTC_CTL (strNum x), Reg.CTC_STS (strNum x)] s u ∧ memKept s u) ∧
    (bitOf v.toNat 0 = true → s.ctcState (strNum x) = stOff → (s.at t).drives = true → s.closeFails (strNum x) = 0 →
      s.ctcState (other (strNum x)) = stStarting → answers (exec (.ctcEnable t w x v) s) fun u =>
        u.ctcState (strNum x) = stOff ∧ u.ctc[strNum x].waiting = true ∧
        regsKeptW 0x10E [Reg.CTC_CTL (strNum x)] s u ∧ memKept s u) ∧
    (bitOf v.toNat 0 = true → s.ctcState (strNum x) = stOff → (s.at t).drives = true → s.closeFails (strNum x) ≠ 0 →
      answers (exec (.ctcEnable t w x v) s) fun u =>
        u.reg (Reg.CTC_CTL (strNum x)) = s.reg (Reg.CTC_CTL (strNum x)) ∧ u.ctcState (strNum x) = stOff ∧ u.ctc = s.ctc ∧
        u.bit (Reg.IRQ_STS 0x10E) 4 = true ∧ memKept s u) ∧
    (bitOf v.toNat 0 = false → s.ctcState (strNum x) = stRunning → s.bit (Reg.CTC_STS (strNum x)) 6 = true →
      answers (exec (.ctcEnable t w x v) s) fun u =>
        u.ctcState (strNum x) = stStopping ∧ u.ctc[strNum x].leaving = true ∧
        u.bit (Reg.CTC_STS (strNum x)) 5 = s.bit (Reg.CTC_STS (strNum x)) 5 ∧
        regsKeptW 0x10E [Reg.CTC_CTL (strNum x), Reg.CTC_STS (strNum x)] s u ∧ memKept s u) ∧
    (bitOf v.toNat 0 = false → s.ctcState (strNum x) = stStarting → s.bit (Reg.CTC_STS (strNum x)) 6 = false →
      answers (exec (.ctcEnable t w x v) s) fun u =>
        u.ctcState (strNum x) = stStopping ∧ u.bit (Reg.CTC_STS (strNum x)) 5 = false ∧ u.bit (Reg.CTC_STS (strNum x)) 7 = false ∧
        u.bit (Reg.VMC_CTL (preVm (strNum x))) 0 = false ∧ memKept s u) ∧
    (s.ctcState (strNum x) = stStopping → answers (exec (.ctcEnable t w x v) s) fun u =>
      u.ctcState (strNum x) = stStopping ∧ u.bit (Reg.CTC_STS (strNum x)) 4 = bitOf v.toNat 0 ∧
      regsKeptW 0x10E [Reg.CTC_CTL (strNum x), Reg.CTC_STS (strNum x)] s u ∧ memKept s u)) ∧
  (∀ (t : Nat) (w : Writer) (x : Str) (v : Word) (s : State), admits s w (Reg.CTC_CTL (strNum x)) 32 v.toNat = true →
    bitOf v.toNat 1 = true → bitOf v.toNat 0 = false → s.ctcState (strNum x) = stFault →
    (s.ctcGone (strNum x) = true → answers (exec (.ctcClear t w x v) s) fun u =>
      u.ctcState (strNum x) = stOff ∧ u.fld (Reg.CTC_STS (strNum x)) 16 8 = 0 ∧
      regsKeptW 0x10E [Reg.CTC_CTL (strNum x), Reg.CTC_STS (strNum x)] s u ∧ memKept s u) ∧
    (s.fbOpen (strNum x) = false → answers (exec (.ctcClear t w x v) s) fun u =>
      u.ctcState (strNum x) = stFault ∧ u.ctc = s.ctc ∧ u.bit (Reg.IRQ_STS 0x10E) 4 = true ∧ memKept s u)) ∧
  (∀ (t : Nat) (x : Str) (s : State), s.ctcState (strNum x) = stStarting →
    (s.bit (Reg.CTC_STS (strNum x)) 7 = true → answers (exec (.prechargeFbClosed t x) s) fun u =>
      u.bit (Reg.CTC_STS (strNum x)) 8 = true ∧ u.bit (Reg.VMC_CTL (preVm (strNum x))) 0 = true ∧
      u.ctcState (strNum x) = stStarting ∧
      regsKeptOnly [Reg.CTC_STS (strNum x), Reg.VMC_CTL (preVm (strNum x)), Reg.VMC_STS (preVm (strNum x))] s u ∧ memKept s u) ∧
    (s.bit (Reg.CTC_STS (strNum x)) 5 = true → answers (exec (.mainFbClosed t x) s) fun u =>
      u.bit (Reg.CTC_STS (strNum x)) 6 = true ∧ u.bit (Reg.CTC_STS (strNum x)) 7 = false ∧
      u.bit (Reg.VMC_CTL (preVm (strNum x))) 0 = false ∧ counted s u (Reg.CTC_CLOSE_CNT (strNum x)) ∧
      u.reg (Reg.CTC_CLOSE_STAMP (strNum x)) = max s.now t % 2 ^ 64 ∧
      u.ctc[strNum x].runFrame = some (max s.now t / 1000000 + 1) ∧ memKept s u) ∧
    (s.vmst (preVm (strNum x)) = stRunning → s.bit (Reg.CTC_STS (strNum x)) 5 = false →
      s.vm[preVm (strNum x)].runAt + 100000000 ≤ max s.now t →
      answers (exec (.closeTimeout t x) s) fun u => closeFailed u (strNum x) 2 ∧ memKept s u) ∧
    (s.bit (Reg.CTC_STS (strNum x)) 5 = true → s.bit (Reg.CTC_STS (strNum x)) 6 = false →
      s.ctc[strNum x].mainAt + 20000000 ≤ max s.now t →
      answers (exec (.closeTimeout t x) s) fun u => closeFailed u (strNum x) 1 ∧ memKept s u) ∧
    (s.vmst (preVm (strNum x)) ≠ stRunning → s.bit (Reg.CTC_STS (strNum x)) 5 = false →
      s.bit (Reg.CTC_STS (strNum x)) 7 = true → s.bit (Reg.CTC_STS (strNum x)) 8 = false →
      s.ctc[strNum x].preAt + 20000000 ≤ max s.now t →
      answers (exec (.closeTimeout t x) s) fun u => closeFailed u (strNum x) 1 ∧ memKept s u)) ∧
  (∀ (t : Nat) (x : Str) (s : State), s.ctc[strNum x].waiting = true → s.ctcState (strNum x) = stOff →
    (s.ctcState (other (strNum x)) = stRunning ∨ s.ctcState (other (strNum x)) = stOff ∨ s.ctcState (other (strNum x)) = stFault) →
    (s.closeFails (strNum x) = 0 → answers (exec (.closeWaitRelease t x) s) fun u =>
      u.ctcState (strNum x) = stStarting ∧ u.bit (Reg.CTC_STS (strNum x)) 7 = true ∧ u.ctc[strNum x].waiting = false ∧
      regsKeptOnly [Reg.CTC_STS (strNum x)] s u ∧ memKept s u) ∧
    (s.closeFails (strNum x) ≠ 0 → answers (exec (.closeWaitRelease t x) s) fun u =>
      u.ctcState (strNum x) = stOff ∧ u.ctc[strNum x].waiting = false ∧ posted 0x10E u ∧ regsKept 0x10E [] s u ∧ memKept s u)) ∧
  (∀ (t : Nat) (x : Str) (i : F32) (s : State), s.ctcState (strNum x) = stStopping → s.bit (Reg.CTC_STS (strNum x)) 5 = true →
    s.ctc[strNum x].leaving = false → s.bricksStill (strNum x) = true →
    ((f32 i.toNat).abs.lt (Fv.ofNat 5) = true → answers (exec (.contactorCoilRelease t x i) s) fun u =>
      u.bit (Reg.CTC_STS (strNum x)) 5 = false ∧ u.ctc[strNum x].mainAt = max s.now t ∧
      regsKeptOnly [Reg.CTC_STS (strNum x)] s u ∧ memKept s u) ∧
    (∀ a, (f32 i.toNat).abs.lt (Fv.ofNat 5) = false → s.ctc[strNum x].bricksOff = some a → a + 10000000 ≤ max s.now t →
      answers (exec (.contactorCoilRelease t x i) s) fun u =>
        u.bit (Reg.CTC_STS (strNum x)) 5 = false ∧ counted s u (Reg.CTC_OPEN_LOAD_CNT (strNum x)) ∧ posted 0x10E u ∧
        regsKept 0x10E [Reg.CTC_STS (strNum x), Reg.CTC_OPEN_LOAD_CNT (strNum x)] s u ∧ memKept s u)) ∧
  (∀ (t : Nat) (x : Str) (s : State), s.ctcState (strNum x) = stStopping → s.bit (Reg.CTC_STS (strNum x)) 5 = false →
    s.bit (Reg.CTC_STS (strNum x)) 7 = false →
    (s.bit (Reg.CTC_STS (strNum x)) 8 = false → s.bit (Reg.CTC_STS (strNum x)) 4 = false →
      answers (exec (.contactorOpenDone t x) s) fun u =>
        u.ctcState (strNum x) = stOff ∧ u.bit (Reg.CTC_STS (strNum x)) 6 = false ∧
        regsKeptOnly [Reg.CTC_STS (strNum x)] s u ∧ memKept s u) ∧
    (s.bit (Reg.CTC_STS (strNum x)) 8 = false → s.bit (Reg.CTC_STS (strNum x)) 4 = true → s.closeFails (strNum x) = 0 →
      s.ctcState (other (strNum x)) ≠ stStarting → answers (exec (.contactorOpenDone t x) s) fun u =>
        u.ctcState (strNum x) = stStarting ∧ u.bit (Reg.CTC_STS (strNum x)) 4 = false ∧ u.bit (Reg.CTC_STS (strNum x)) 7 = true ∧
        memKept s u) ∧
    (s.bit (Reg.CTC_STS (strNum x)) 6 = false → s.bit (Reg.CTC_STS (strNum x)) 4 = false →
      answers (exec (.prechargeFbOpen t x) s) fun u =>
        u.ctcState (strNum x) = stOff ∧ u.bit (Reg.CTC_STS (strNum x)) 8 = false ∧
        regsKeptOnly [Reg.CTC_STS (strNum x)] s u ∧ memKept s u))

/-- R266 to R275: after 90 s a rest window ends with an anchor where sigma allows one; a burst begins on an aged string and ends after 10 s;
learned values are journalled when due; ship mode is entered by opening both strings and left only with a charger, and the
life cycle may force it. -/
def Obligations.RestWindowsLearningAndShipMode : Prop :=
  (∀ (t a : Nat) (x : Str) (s : State), s.ctc[strNum x].restAt = some a → s.ctcState (strNum x) = stHold →
    a + 90000000000 ≤ max s.now t → max s.now t % 1000000 = 0 →
    answers (exec (.restWindowEnd t x) s) fun u =>
      u.ctcState (strNum x) = stRunning ∧ u.ctc[strNum x].restAt = none ∧ u.bit Reg.BDS_STS (7 + strNum x) = false ∧
      (s.est[strNum x].sigma ≤ 100 → u.ctc[strNum x].anchorAt = max s.now t ∧
        u.ctc[strNum x].anchorSigma = some s.est[strNum x].sigma ∧ u.est[strNum x].anchorReq = false ∧
        u.est[strNum x].capUpdates = s.est[strNum x].capUpdates + 1) ∧
      (100 < s.est[strNum x].sigma → u.ctc[strNum x].anchorAt = s.ctc[strNum x].anchorAt ∧ u.est = s.est) ∧ memKept s u) ∧
  (∀ (t : Nat) (x : Str) (s : State), s.ctcState (strNum x) = stRunning → s.anchorMin < (s.at t).anchorAge (strNum x) →
    s.ctc[strNum x].lastRest = none → s.ctc[strNum x].excEnd = none → s.ctc[strNum x].excAt = none →
    answers (exec (.excitationBurst t x) s) fun u =>
      u.ctc[strNum x] = { s.ctc[strNum x] with excAt := some (max s.now t) } ∧ regsKeptOnly [] s u ∧ memKept s u) ∧
  (∀ (t a : Nat) (x : Str) (s : State), s.ctc[strNum x].excAt = some a → a + 10000000000 ≤ max s.now t →
    answers (exec (.excitationEnd t x) s) fun u =>
      u.ctc[strNum x].excAt = none ∧ u.ctc[strNum x].excEnd = some (max s.now t) ∧
      u.est[strNum x].rsUpdates = s.est[strNum x].rsUpdates + 1 ∧ regsKeptOnly [] s u ∧ memKept s u) ∧
  (∀ (t : Nat) (x : Str) (s : State), s.blk 0x10 = stRunning →
    (s.ctc[strNum x].journalDue = true ∨ s.ctc[strNum x].learnedAt + 3600000000000 ≤ max s.now t) →
    s.jnlRefuses = false → s.isOwner = true →
    answers (exec (.learnedJournal t x) s) fun u =>
      u.ctc[strNum x].learnedAt = max s.now t ∧ u.ctc[strNum x].journalDue = false ∧
      (∃ p, queuedRec s u 0x30 0x10 false p ∧ ofLe (p.take 4) = strNum x) ∧ memKept s u) ∧
  (∀ (t : Nat) (w : Writer) (s : State), admits s w Reg.CTC_SHIP 32 2 = true → shipPath w = true → s.ship = false →
    answers (exec (.ctcShipEnter t w) s) fun u =>
      u.prt.ship = 1 ∧ (∀ x : Fin 2, u.bit (Reg.CTC_CTL x) 0 = false ∧
        (s.ctcState x = stStarting ∨ s.ctcState x = stRunning ∨ s.ctcState x = stHold → u.ctcState x = stStopping) ∧
        (s.ctcState x = stOff → u.ctcState x = stOff)) ∧ u.ship = false ∧ memKept s u) ∧
  (∀ (t : Nat) (w : Writer) (s : State), admits s w Reg.CTC_SHIP 32 4 = true →
    (shipPath w = true → s.shipExitOk = true → answers (exec (.ctcShipExit t w) s) fun u =>
      u.prt.ship = 2 ∧ u.ship = true ∧ u.bit (Reg.VMC_CTL 3) 0 = true ∧
      (∀ (x : Fin 2) (j : Fin 15), u.bead x j = { s.bead x j with awake := true, lastReply := max s.now t }) ∧ memKept s u) ∧
    ((shipPath w = false ∨ s.shipExitOk = false) → answers (exec (.ctcShipExit t w) s) fun u =>
      u.prt = s.prt ∧ u.loop = s.loop ∧ u.reg Reg.CTC_SHIP = s.reg Reg.CTC_SHIP ∧ u.bit (Reg.IRQ_STS 0x10E) 4 = true ∧ memKept s u)) ∧
  (∀ (t : Nat) (s : State), s.prt.ship = 1 → s.ctcState 0 = stOff → s.ctcState 1 = stOff →
    answers (exec (.shipStringsOff t) s) fun u =>
      u.ship = true ∧ u.prt.ship = 0 ∧ u.bit (Reg.VMC_CTL 3) 0 = false ∧
      (∀ (x : Fin 2) (j : Fin 15), (u.bead x j).awake = false ∧ (u.bead x j).bal = 0#16 ∧ (u.bead x j).force = 0#16) ∧
      regsKeptOnly [Reg.CTC_SHIP, Reg.VMC_CTL 3, Reg.VMC_STS 3] s u ∧ memKept s u) ∧
  (∀ (t : Nat) (s : State), s.prt.ship = 2 →
    answers (exec (.shipExitComplete t) s) fun u =>
      u.ship = false ∧ u.prt.ship = 0 ∧ u.loop = s.loop ∧ regsKeptOnly [Reg.CTC_SHIP] s u ∧ memKept s u)

/-! ## Hallmark (R284 to R305) -/

/-- R291, R286 to R288: the records of an epoch, as they are formed, reconciled and apportioned, number at most 524,288; E_ATTR is the ENERGY
of all but bridging records; and the RESIDUAL of all records with UNASSIGNED is exactly R_LOSS + R_IDLE, not a uJ lost. -/
def Obligations.EveryEpochIsApportionedExactly : Prop :=
  ∀ (t : Nat) (e : EpochSt) (rest : List EpochSt) (s : State), s.hmk.epochs = e :: rest → e.stage = .read →
    answers (exec (.epochReconcile t) s) fun u => ∃ f : EpochSt, u.hmk.epochs = f :: rest ∧ f.stage = .reconciled ∧
      f.recs.length ≤ 524288 ∧ f.eAttr = sumEnergy (f.recs.filter (fun r => !r.isBridge)) ∧
      f.recs.foldl (fun a r => a + r.residual) 0 + f.unassigned = (f.eBus - f.eEp) + (f.eEp - f.eAttr)

/-- R289, R292 to R305: an epoch that fails reconciliation is counted and shown; the root takes its place in the chain after the tip; the
header is journalled under the next SEQ; the seal is shown and kept by Locket; release waits for the journal and the mirror;
exports go in CHAIN_SEQ order; HMK_ACK only advances to what was released; at each 250 ms boundary the epoch in progress closes and
the next opens. -/
def Obligations.EpochsAreChainedSealedAndReleased : Prop :=
  (∀ (e : EpochSt) (s : State), s.metering = true → s.hmk.takeover = false → s.hmk.epochs = [e] → e.stop = none →
    let b := alignUp 250000000 (max s.now s.grid.epoch)
    answers (exec .epochBoundary s) fun u => ∃ e1 e2 : EpochSt, u.now = b ∧ u.hmk.epochs = [e1, e2] ∧ e1.stop = some b ∧
      e1.epoch = e.epoch ∧ e1.start = e.start ∧ e1.reqs = e.reqs ∧ e1.eps = e.eps ∧ e1.bus = e.bus ∧
      e2.epoch = b / 250000000 ∧ e2.part = 0 ∧ e2.start = b ∧ e2.stop = none ∧ e2.policy = s.reg Reg.HMK_POLICY ∧ e2.flags = 0 ∧
      u.bit Reg.HMK_STS 0 = true ∧ u.bit Reg.HMK_STS 4 = false ∧ regsKeptOnly [Reg.HMK_STS] s u ∧ memKept s u) ∧
  (∀ s : State, s.metering = false →
    answers (exec .epochBoundary s) fun u =>
      u.hmk.epochs.length = s.hmk.epochs.length ∧ u.bit Reg.HMK_STS 0 = false ∧ regsKeptOnly [Reg.HMK_STS] s u ∧ memKept s u) ∧
  (∀ (t : Nat) (e : EpochSt) (rest : List EpochSt) (s : State), s.hmk.epochs = e :: rest → e.stage = .read →
    (s.reconOf e (s.recordsOf e)).fails = true →
    answers (exec (.epochReconcile t) s) fun u =>
      counted s u Reg.HMK_RECON_FAIL_CNT ∧ u.bit Reg.HMK_STS 1 = true ∧ posted 0xA3 u ∧
      (∃ f : EpochSt, u.hmk.epochs = f :: rest ∧ bitOf f.flags 0 = true ∧ f.recs = s.recordsOf e) ∧
      u.reg Reg.HMK_REC_CNT = (s.recordsOf e).length % 2 ^ 64 ∧
      regsKept 0xA3 [Reg.HMK_REC_CNT, Reg.HMK_REC_MAX, Reg.HMK_RECON_FAIL_CNT, Reg.HMK_STS] s u ∧ memKept s u) ∧
  (∀ (t : Nat) (e : EpochSt) (rest : List EpochSt) (s : State), s.hmk.epochs = e :: rest → e.stage = .reconciled →
    (s.hmk.tip = none → answers (exec (.epochRootFormed t) s) fun u => ∃ f : EpochSt, u.hmk.epochs = f :: rest ∧ f.stage = .rooted ∧
      f.root = merkleRoot e.recs ∧ f.prevRoot = List.replicate 32 0#8 ∧ f.chainSeq = 0 ∧ bitOf f.flags 3 = true ∧
      u.hmk.tip = some ⟨f.root, 0, e.epoch, e.stop.getD 0⟩ ∧ regsKeptOnly [] s u ∧ memKept s u) ∧
    (∀ p : ChainTip, s.hmk.tip = some p → answers (exec (.epochRootFormed t) s) fun u => ∃ f : EpochSt, u.hmk.epochs = f :: rest ∧
      f.stage = .rooted ∧ f.root = merkleRoot e.recs ∧ f.prevRoot = p.root ∧ f.chainSeq = p.seq + 1 ∧
      (e.part = 0 → e.epoch ≠ p.epoch + 1 → bitOf f.flags 4 = true) ∧
      u.hmk.tip = some ⟨f.root, p.seq + 1, e.epoch, e.stop.getD 0⟩ ∧ regsKeptOnly [] s u ∧ memKept s u)) ∧
  (∀ (t : Nat) (e : EpochSt) (rest : List EpochSt) (s : State), s.hmk.epochs = e :: rest → e.stage = .rooted →
    s.jnlRefuses = false → s.isOwner = true →
    answers (exec (.epochHeaderJournal t) s) fun u =>
      queuedRec s u 0x40 0xA3 true (s.epochPayload e) ∧
      u.hmk.epochs = { e with jseq := s.reg Reg.JNL_SEQ, sealFrom := max s.now t, stage := .journalled } :: rest ∧ memKept s u) ∧
  (∀ (t : Nat) (e : EpochSt) (rest : List EpochSt) (s : State), s.hmk.epochs = e :: rest → e.stage = .journalled →
    answers (exec (.epochSealDone t) s) fun u =>
      u.reg Reg.HMK_EPOCH = e.epoch % 2 ^ 64 ∧ u.reg Reg.HMK_CHAIN_SEQ = e.chainSeq % 2 ^ 64 ∧
      u.reg Reg.LKT_AUDIT_SEQ = e.chainSeq % 2 ^ 64 ∧
      (∀ i : Fin 8, u.reg (Reg.HMK_ROOT i) = ofLe ((e.root.drop (4 * i)).take 4) ∧
        u.reg (Reg.LKT_AUDIT_ROOT i) = ofLe ((e.root.drop (4 * i)).take 4)) ∧
      (e.stop.getD 0 + 200000000 < max s.now t → counted s u Reg.HMK_SEAL_LATE_CNT ∧ u.bit Reg.HMK_STS 2 = true) ∧
      (∃ f : EpochSt, u.hmk.epochs = f :: rest ∧ f.stage = .sealed ∧ f.root = e.root ∧ f.recs = e.recs) ∧ memKept s u) ∧
  (∀ (t : Nat) (e : EpochSt) (rest : List EpochSt) (s : State), s.hmk.epochs = e :: rest → e.stage = .sealed → s.baseUp = true →
    s.jnlHas e.jseq = true →
    ((s.at t).mirrorOn = false → arcBytes s.hmk.archive + arcSize e.recs.length ≤ arcMax → answers (exec (.epochRelease t) s) fun u =>
      u.hmk.epochs = rest ∧ counted s u Reg.SLK_UNMIRRORED_CNT ∧
      u.hmk.archive = s.hmk.archive ++ [⟨e.chainSeq, e.epoch, e.part, s.headerOf e, e.sealIdx, e.recs, arcSize e.recs.length⟩] ∧
      memKept s u) ∧
    ((s.at t).mirrorOn = true → s.jnl.unacked.contains e.jseq = true → answers (exec (.epochRelease t) s) fun u =>
      u.hmk = s.hmk ∧ regsKeptOnly [] s u ∧ memKept s u)) ∧
  (∀ (t k : Nat) (i : Fin 64) (x : SessSt) (a : ArcEpoch) (s : State), s.nug.sess[i] = some x → s.nugRuns = true →
    x.subscribed = true → s.bit Reg.HMK_CTL 0 = true → sparseFind s.hmk.sent i.val = some k →
    s.hmk.archive.find? (fun a => decide (k < a.seq)) = some a →
    answers (exec (.epochExport t i) s) fun u =>
      sparseFind u.hmk.sent i.val = some a.seq ∧ k < a.seq ∧ u.hmk.archive = s.hmk.archive ∧ regsKeptOnly [] s u ∧ memKept s u) ∧
  (∀ (t : Nat) (w : Writer) (v : DWord) (s : State), admits s w Reg.HMK_ACK 64 v.toNat = true →
    (∀ q, s.newestReleased = some q → s.reg Reg.HMK_ACK ≤ v.toNat → v.toNat ≤ q → answers (exec (.hmkAckWrite t w v) s) fun u =>
      u.reg Reg.HMK_ACK = v.toNat ∧ u.hmk.acked = true ∧ u.hmk.archive = s.hmk.archive ∧
      regsKeptW 0xA3 [Reg.HMK_ACK, Reg.HMK_ARCHIVE_FILL] s u ∧ memKept s u) ∧
    (v.toNat < s.reg Reg.HMK_ACK → answers (exec (.hmkAckWrite t w v) s) fun u =>
      u.reg Reg.HMK_ACK = s.reg Reg.HMK_ACK ∧ u.hmk = s.hmk ∧ u.bit (Reg.IRQ_STS 0xA3) 4 = true ∧ memKept s u)) ∧
  (∀ (t : Nat) (w : Writer) (v : Word) (s : State), admits s w Reg.HMK_POLICY 32 v.toNat = true →
    (v.toNat ≤ 2 → answers (exec (.hmkPolicyWrite t w v) s) fun u =>
      u.reg Reg.HMK_POLICY = v.toNat ∧ u.hmk = s.hmk ∧ regsKeptW 0xA3 [Reg.HMK_POLICY] s u ∧ memKept s u) ∧
    (2 < v.toNat → answers (exec (.hmkPolicyWrite t w v) s) fun u =>
      u.reg Reg.HMK_POLICY = s.reg Reg.HMK_POLICY ∧ u.bit (Reg.IRQ_STS 0xA3) 4 = true ∧ memKept s u))

/-! ## Chain and Jarrojo (R307 to R327) -/

/-- A Chain frame that the lane takes as one of type `ty` (R316): the lane exchanges frames, the frame is corrected, both its checks hold,
and it is of this ring. -/
def frameTaken (s : State) (l : Fin 4) (f : FlitIn) (ty : Nat) : Prop :=
  let b := fitBytes 256 f.bytes
  s.laneOpen l = true ∧ f.ue = false ∧ frHcrcOk b = true ∧ frCrcOk b = true ∧ frType b = ty ∧ frRing b = wirRing s.planBytesW

/-- Lanes other than `l` keep their record and their link state. -/
def otherLanes (s u : State) (l : Fin 4) : Prop := ∀ k : Fin 4, k ≠ l → u.chn.lane[k] = s.chn.lane[k] ∧ u.lane k = s.lane k

/-- R310, R311, R314, R316, R317: a frame that fails FEC or a check is counted and discarded; a lane that gains FEC lock enters IDENT_WAIT and
sends IDENT; one that loses it goes DOWN; an IDENT that passes lets the lane wait for its slot, any other quarantines it; an ECHO
is answered, and its answer gives the delay; a poll shows the cable and takes its lanes down where it must. -/
def Obligations.ChainLanesComeUpAndAreChecked : Prop :=
  (∀ (t : Nat) (l : Fin 4) (f : FlitIn) (s : State), s.laneOpen l = true →
    let b := fitBytes 256 f.bytes
    ∀ i ∈ [Instr.jrjIdent t l f, .jrjEcho t l f, .jrjTime t l f, .jrjReport t l f, .jrjStep t l f, .jrjLimit t l f],
    (f.ue = true → answers (exec i s) fun u =>
      counted s u (Reg.CHN_RX_FRAMES l) ∧ counted s u (Reg.CHN_FEC_UE l) ∧ u.chn = s.chn ∧ memKept s u) ∧
    (f.ue = false → frHcrcOk b = false → answers (exec i s) fun u =>
      counted s u (Reg.CHN_RX_FRAMES l) ∧ counted s u (Reg.CHN_HCRC_ERR l) ∧ u.chn = s.chn ∧ memKept s u) ∧
    (f.ue = false → frHcrcOk b = true → frCrcOk b = false → answers (exec i s) fun u =>
      counted s u (Reg.CHN_RX_FRAMES l) ∧ counted s u (Reg.CHN_CRC_ERR l) ∧ u.chn = s.chn ∧ memKept s u)) ∧
  (∀ (t : Nat) (l : Fin 4) (s : State), s.laneMay l = true → (s.lane l = lkDown ∨ s.lane l = lkTraining) →
    answers (exec (.chainLaneFecLock t l) s) fun u =>
      u.lane l = lkIdent ∧ u.bit (Reg.CHN_STS l) 3 = true ∧ u.bit (Reg.CHN_STS l) 5 = false ∧
      counted s u (Reg.CHN_TX_FRAMES l) ∧ u.chn.lane[l].identAt = max s.now t ∧ (sparseFind u.chn.lane[l].sent 1).isSome = true ∧
      otherLanes s u l ∧ regsKept (0x80 + l.val) [Reg.CHN_STS l, Reg.CHN_TX_FRAMES l, Reg.JRJ_STS] s u ∧ memKept s u) ∧
  (∀ (t : Nat) (l : Fin 4) (s : State), s.bit (Reg.CHN_STS l) 3 = true →
    answers (exec (.chainLaneFecLoss t l) s) fun u =>
      u.lane l = lkDown ∧ u.bit (Reg.CHN_STS l) 3 = false ∧ u.bit (Reg.CHN_STS l) 5 = false ∧ u.chn.lane = s.chn.lane ∧
      otherLanes s u l ∧ regsKeptOnly [Reg.CHN_STS l, Reg.JRJ_STS] s u ∧ memKept s u) ∧
  (∀ (t : Nat) (w : Writer) (l : Fin 4) (s : State), admits s w (Reg.CHN_CTL l) 32 (s.reg (Reg.CHN_CTL l) % 2 + 2) = true →
    s.reg (Reg.CHN_CTL l) % 2 = 1 →
    (s.laneOpen l = true → answers (exec (.chnReident t w l) s) fun u =>
      u.lane l = lkIdent ∧ u.chn.lane[l].held = false ∧ u.chn.released = false ∧ u.bit (Reg.CHN_CTL l) 0 = true ∧
      otherLanes s u l ∧ memKept s u) ∧
    (s.lane l = lkDown → answers (exec (.chnReident t w l) s) fun u =>
      u.lane l = lkDown ∧ u.chn.lane[l].held = false ∧ u.chn.released = false ∧ otherLanes s u l ∧ memKept s u)) ∧
  (∀ (t : Nat) (d : Dir) (c : CmisIn) (s : State), s.baseUp = true → ∀ l ∈ lanesOf (dirNum d),
    answers (exec (.cmisPoll t d c) s) fun u =>
      u.reg (Reg.CHN_CMIS_TEMP l) = c.temp.toNat ∧ u.reg (Reg.CHN_CMIS_RXPWR l) = c.rxPwr.getD (l.val % 2) 0 % 2 ^ 64 ∧
      u.reg (Reg.CHN_CMIS_FLAGS l) = c.flags.getD (l.val % 2) 0 % 2 ^ 64 ∧ u.bit (Reg.CHN_STS l) 4 = c.present ∧
      u.bit (Reg.CHN_STS l) 6 = c.warn ∧ u.bit (Reg.CHN_STS l) 7 = c.alarm ∧ u.chn.lane[l].app = c.appOk ∧
      ((c.present = false ∨ c.appOk = false ∨ c.los.getLsbD (l.val % 2) = true ∨ c.alarm = true) → u.lane l = lkDown) ∧
      (c.present = true → c.appOk = true → c.los.getLsbD (l.val % 2) = false → c.alarm = false → u.lane l = s.lane l) ∧
      (c.appOk = false → u.fld (Reg.CHN_STS l) 8 8 = 6) ∧
      (c.alarm = true → u.chn.lane[l].initAt = some (max s.now t + 1000000000)) ∧
      (c.warn = true → posted (0x80 + l.val) u) ∧ (∀ k, k ∉ lanesOf (dirNum d) → u.lane k = s.lane k ∧ u.chn.lane[k] = s.chn.lane[k]) ∧
      memKept s u) ∧
  (∀ (t a : Nat) (d : Dir) (s : State), ∀ l ∈ lanesOf (dirNum d), s.chn.lane[l].initAt = some a → a ≤ max s.now t →
    s.lane l = lkDown →
    answers (exec (.cmisReinit t d) s) fun u =>
      u.chn.lane[l].initAt = none ∧
      (s.chn.lane[l].held = true → u.lane l = lkDown) ∧
      (s.chn.lane[l].held = false → s.chn.lane[l].app = true → pagePresent s.fx (0x80 + l.val) = true → s.baseUp = true →
        s.bit (Reg.CHN_CTL l) 0 = true → s.bit (Reg.CHN_STS l) 4 = true → s.plugHeld (8 + l.val / 2) = false →
        u.lane l = lkTraining) ∧ memKept s u) ∧
  (∀ (t : Nat) (l : Fin 4) (f : FlitIn) (s : State), frameTaken s l f 1 → s.lane l = lkIdent →
    let b := fitBytes 256 f.bytes
    (∀ k, s.laneCause l b = (0, k) → answers (exec (.jrjIdent t l f) s) fun u =>
      u.lane l = lkWaiting ∧ u.bit (Reg.CHN_STS l) 5 = true ∧ u.fld (Reg.CHN_STS l) 8 8 = 0 ∧
      u.reg (Reg.CHN_PEER_SN l) = leAt b 0x18 8 ∧ u.chn.lane[l].bypassed = s.between (laneDir l) k ∧ otherLanes s u l ∧ memKept s u) ∧
    (∀ c k, s.laneCause l b = (c, k) → c ≠ 0 → answers (exec (.jrjIdent t l f) s) fun u =>
      u.lane l = lkQuarantined ∧ u.bit (Reg.CHN_STS l) 5 = false ∧ u.fld (Reg.CHN_STS l) 8 8 = c ∧ posted (0x80 + l.val) u ∧
      otherLanes s u l ∧ memKept s u)) ∧
  (∀ (t : Nat) (l : Fin 4) (f : FlitIn) (s : State), frameTaken s l f 2 →
    let b := fitBytes 256 f.bytes
    let n := max s.now t
    (leAt b 0x20 8 = 0 → answers (exec (.jrjEcho t l f) s) fun u =>
      sparseFind u.chn.lane[l].sent 2 = some ⟨2, 0, n, leBytes 8 0 ++ leBytes 8 (leAt b 0x18 8) ++ leBytes 8 n ++ leBytes 8 n⟩ ∧
      otherLanes s u l ∧ memKept s u) ∧
    (leAt b 0x20 8 ≠ 0 → s.chn.lane[l].t1s.contains (leAt b 0x18 8) = true → answers (exec (.jrjEcho t l f) s) fun u =>
      let d := halfNs (((n : Int) - leAt b 0x18 8) - ((leAt b 0x28 8 : Int) - leAt b 0x20 8))
      u.chn.lane[l].delays = lastN 16 (s.chn.lane[l].delays ++ [d]) ∧
      u.reg (Reg.CHN_DELAY l) = ofInt 32 (medianNs u.chn.lane[l].delays) ∧ leAt b 0x18 8 ∉ u.chn.lane[l].t1s ∧
      otherLanes s u l ∧ memKept s u))

/-- R307, R308, R315, R318 to R322, R327: the stage opens only under all its conditions and closes with any of them; a flooded frame is landed
and forwarded once, and a repeated one only counted; TIME, REPORT, STEP and LIMIT have their effects; a lease that ends frees the
limit; the root is taken over after silence and displaced by a lower candidate. -/
def Obligations.JarrojoFloodsAndItsStage : Prop :=
  (∀ (t : Nat) (s : State),
    ((s.at t).stageMay = true → s.chainDrive = false → answers (exec (.stageOpen t) s) fun u =>
      u.chainDrive = true ∧ u.chn.training = true ∧ u.reg Reg.JRJ_NODE = s.myNode.getD 255 % 256 + 256 * (wirRing s.planBytesW % 16) ∧
      u.chn.lane = s.chn.lane ∧ regsKeptOnly [Reg.JRJ_STS, Reg.JRJ_NODE] s u ∧ memKept s u) ∧
    ((s.at t).stageMay = false → s.chainDrive = true → answers (exec (.stageClose t) s) fun u =>
      u.chainDrive = false ∧ u.bit Reg.JRJ_STS 2 = false ∧ u.jrjRole = 0 ∧ u.chn.lane = s.chn.lane ∧
      regsKeptOnly [Reg.JRJ_STS] s u ∧ memKept s u) ∧
    (answers (exec (.ringTrained t) s) fun u =>
      u.chn = { s.chn with training := false } ∧ regsKeptOnly [] s u ∧ memKept s u) ∧
    (∀ a, s.chn.quarSince = some a → s.chainDrive = true → s.allQuarantined = true → a + 1000000000 ≤ max s.now t →
      answers (exec (.chainQuarantineRelease t) s) fun u =>
        u.chainDrive = false ∧ u.chn.released = true ∧ u.jrjRole = 0 ∧ regsKeptOnly [Reg.JRJ_STS] s u ∧ memKept s u) ∧
    (answers (exec (.limitLeaseEnd t) s) fun u =>
      (∀ x, x ∈ u.chn.limits ↔ x ∈ s.chn.limits ∧ max s.now t < x.leaseEnd) ∧
      (s.wiring.isSome = true → u.reg Reg.JRJ_LIMIT = u.limitNow % 2 ^ 64) ∧ regsKeptOnly [Reg.JRJ_LIMIT] s u ∧ memKept s u) ∧
    (s.rootEligible = true → s.bit Reg.JRJ_STS 2 = false → (s.chn.badRoot = true ∨ s.chn.lastTime + 3 ≤ max s.now t / 1000000) →
      answers (exec (.rootTakeover t) s) fun u =>
        u.bit Reg.JRJ_STS 2 = true ∧ u.reg Reg.JRJ_ROOT = s.myNode.getD 255 % 2 ^ 64 ∧ u.chn = s.chn ∧
        regsKeptOnly [Reg.JRJ_STS, Reg.JRJ_ROOT] s u ∧ memKept s u) ∧
    (∀ a n, s.chn.eligSince = some a → s.myNode = some n → s.rootEligible = true → s.bit Reg.JRJ_STS 2 = false →
      n < s.reg Reg.JRJ_ROOT → a + 10000000000 ≤ max s.now t → answers (exec (.rootDisplace t) s) fun u =>
        u.bit Reg.JRJ_STS 2 = true ∧ u.reg Reg.JRJ_ROOT = n ∧ u.chn = s.chn ∧
        regsKeptOnly [Reg.JRJ_STS, Reg.JRJ_ROOT] s u ∧ memKept s u)) ∧
  (∀ (t : Nat) (w : Writer) (v : Word) (s : State), admits s w Reg.JRJ_CTL 32 v.toNat = true →
    (v.toNat % 2 = 0 → s.chainDrive = true → answers (exec (.jrjStageEnWrite t w v) s) fun u =>
      u.chainDrive = false ∧ u.reg Reg.JRJ_CTL = v.toNat ∧ u.jrjRole = 0 ∧
      regsKeptW 0x84 [Reg.JRJ_CTL, Reg.JRJ_STS] s u ∧ memKept s u) ∧
    (s.chainDrive = false → answers (exec (.jrjStageEnWrite t w v) s) fun u =>
      u.chainDrive = false ∧ u.reg Reg.JRJ_CTL = v.toNat ∧ regsKeptW 0x84 [Reg.JRJ_CTL] s u ∧ memKept s u)) ∧
  (∀ (t : Nat) (l : Fin 4) (f : FlitIn) (s : State), s.lane l = lkAdmitted →
    let b := fitBytes 256 f.bytes
    ∀ x ∈ [(Instr.jrjTime t l f, 3), (.jrjReport t l f, 4), (.jrjStep t l f, 5), (.jrjLimit t l f, 6)], frameTaken s l f x.2 →
    (x.2 = 3 → s.time.source ≠ .chain) →
    (some (frOrigin b) ≠ s.myNode → s.chn.seen.contains (frOrigin b, frSeq b) = false → answers (exec x.1 s) fun u =>
      let r := 32 + laneDir l
      (at32 s.eng.ringWritten r - at32 s.eng.ringCopied r < 1024 →
        u.bytes (ringAddr r (at32 s.eng.ringWritten r)) 256 =
          fitBytes 256 (chainLanded (decide (frStamp b / 10000 < max s.now t / 10000)) s.qual.toNat b) ∧
        at32 u.eng.ringWritten r = at32 s.eng.ringWritten r + 1) ∧
      (frOrigin b, frSeq b) ∈ u.chn.seen ∧ counted s u (Reg.CHN_RX_FRAMES l) ∧
      (∀ o, s.laneFor (1 - laneDir l) x.2 = some o → frHops b + 1 < wirNodes s.planBytesW → counted s u (Reg.CHN_FWD o)) ∧
      (wirNodes s.planBytesW ≤ frHops b + 1 → u.chn.lane = s.chn.lane) ∧
      memKeptOutside [(ringAddr r (at32 s.eng.ringWritten r), 256)] s u) ∧
    (x.2 ≠ 3 → s.chn.seen.contains (frOrigin b, frSeq b) = true → answers (exec x.1 s) fun u =>
      counted s u (Reg.CHN_DUP l) ∧ u.chn = s.chn ∧ memKept s u)) ∧
  (∀ (t : Nat) (l : Fin 4) (f : FlitIn) (s : State), s.lane l = lkAdmitted →
    let b := fitBytes 256 f.bytes
    some (frOrigin b) ≠ s.myNode → s.chn.seen.contains (frOrigin b, frSeq b) = false →
    (frameTaken s l f 3 → s.bit Reg.JRJ_STS 2 = false → s.betterTime b = true → s.time.source ≠ .chain →
      answers (exec (.jrjTime t l f) s) fun u =>
        u.reg Reg.JRJ_ROOT = frOrigin b ∧ u.chn.lastTime = max s.now t / 1000000 ∧
        u.chn.badRoot = decide (byteAt b 0x20 % 8 ≠ 3) ∧ u.chn.timeTaken = (frOrigin b, (frSeq b, frHops b)) ∧
        u.regS Reg.TIM_CHAIN_OFFSET = max (-2147483647) (min 2147483647 ((frStamp b : Int) +
          psToNs (sext 64 (leAt b 0x18 8) + 1000 * s.regS (Reg.CHN_DELAY l) + s.regS (Reg.CHN_ASYM l)) - (max s.now t : Nat)))) ∧
    (frameTaken s l f 4 → (∀ x, sparseFind s.chn.reports (frOrigin b) = some x → x.frame ≤ leAt b 0x18 8) →
      answers (exec (.jrjReport t l f) s) fun u => sparseFind u.chn.reports (frOrigin b) = some (reportOf b)) ∧
    (frameTaken s l f 5 → byteAt b 0x18 ≤ 2 → answers (exec (.jrjStep t l f) s) fun u =>
      u.chn.features = lastN 64 (s.chn.features ++
        [⟨frOrigin b, byteAt b 0x18, byteAt b 0x19, leAt b 0x1A 2, sext 32 (leAt b 0x1C 4), leAt b 0x20 8⟩]) ∧
      u.chn.trips = s.chn.trips) ∧
    (frameTaken s l f 5 → byteAt b 0x18 = 3 → s.chn.tripsSeen.contains (frOrigin b, leAt b 0x1A 2) = false →
      answers (exec (.jrjStep t l f) s) fun u =>
        u.chn.trips = s.chn.trips ++ [⟨frOrigin b, leAt b 0x1A 2, (-sext 32 (leAt b 0x1C 4)).toNat⟩] ∧
        (frOrigin b, leAt b 0x1A 2) ∈ u.chn.tripsSeen) ∧
    (frameTaken s l f 6 → answers (exec (.jrjLimit t l f) s) fun u =>
      u.chn.limits = lastN 16 (s.chn.limits ++ [⟨leAt b 0x18 4, leAt b 0x1C 8, leAt b 0x24 8, leAt b 0x10 8, frOrigin b⟩]) ∧
      (s.wiring.isSome = true → u.reg Reg.JRJ_LIMIT = u.limitNow % 2 ^ 64)))

/-! ## Clasp, the slot link and the restore (R328 to R344, R348, R349, R397, R398) -/

/-- The module claims (R331): the guard begins now, and it sends CLAIMING where it may claim. -/
def guardBegun (s u : State) : Prop :=
  u.clp.guardAt = some u.now ∧ u.clp.listenAt = none ∧ u.clp.guardHeard = false ∧ u.clp.role = if s.mayClaim then 3 else s.clp.role

/-- The module has gained ownership (R334): its line is driven, every string whose main feedback reads closed has its coil driven, it is in
holdover, and the transition is stamped and posted. -/
def gained (s u : State) : Prop :=
  u.clp.role = 4 ∧ u.clp.drive = true ∧ u.clp.line = true ∧ u.clp.timerAt = u.now ∧ u.clp.guardAt = none ∧ u.clp.yieldAt = none ∧
  u.clp.restoreAt = some u.now ∧ u.bit Reg.PLS_STS 3 = true ∧
  (∀ x : Fin 2, s.bit (Reg.CTC_STS x) 6 = true → u.bit (Reg.CTC_STS x) 5 = true) ∧
  u.reg Reg.CLP_LAST_STAMP = u.now % 2 ^ 64 ∧ posted 0x111 u ∧ memKept s u

/-- Every power-stage output is off (R235). -/
def outputsOff (u : State) : Prop :=
  (∀ b : Fin 48, u.bst b = stOff ∨ u.bst b = stFault) ∧ (∀ n : Fin 4, u.vmst n = stOff ∨ u.vmst n = stFault) ∧
  (∀ x : Fin 2, u.bit (Reg.CTC_STS x) 5 = false ∧ u.bit (Reg.CTC_STS x) 7 = false)

/-- R328 to R338, R344, R348: a frame goes out every microsecond with its CRC, and EPOCH advances and retriggers the hold timer only while the
checker passes; renewals, yields and expiries move the peer's lease; a guard without a heard claim ends in ownership; a lost
line, a contest and a yield turn every output off; stuck lines and broken wires are shown. -/
def Obligations.TheLeaseDecidesOwnership : Prop :=
  (∀ (c : CheckerIn) (s : State), s.pulseUp = true →
    let b := alignUp 1000 (max s.now s.grid.clasp)
    answers (exec (.claspFrameSend c) s) fun u =>
      u.now = b ∧ claspOk u.clp.txFrame = true ∧ cfr u.clp.txFrame 8 24 = u.reg Reg.CLP_EPOCH % 2 ^ 24 ∧
      u.clp.line = c.ownRead ∧ u.clp.peerLine = c.peerRead ∧ u.clp.role = s.clp.role ∧
      (s.leaseCheck c = true → u.clp.checkOk = true ∧ u.clp.timerAt = b ∧ u.reg Reg.CLP_EPOCH = (s.reg Reg.CLP_EPOCH + 1) % 2 ^ 24) ∧
      (s.leaseCheck c = false → u.clp.checkOk = false ∧ u.clp.timerAt = s.clp.timerAt ∧
        u.reg Reg.CLP_EPOCH = s.reg Reg.CLP_EPOCH ∧ ∀ x : Fin 48, u.pd.brick[x].on = false) ∧
      regsKeptOnly [Reg.CLP_EPOCH, Reg.CLP_STS] s u ∧ memKept s u) ∧
  (∀ (t : Nat) (p : ClaspPath) (f : BitVec 48) (s : State), s.pulseUp = true → (p = .slot → s.bit Reg.SLK_CTL 0 = true) →
    (claspOk f = false → answers (exec (.claspFrameRx t p f) s) fun u =>
      counted s u Reg.CLP_CRC_ERR ∧ u.clp.peerValid = s.clp.peerValid ∧ u.clp.renewAt = s.clp.renewAt ∧ u.clp.role = s.clp.role ∧
      regsKept 0x111 [Reg.CLP_CRC_ERR, Reg.CLP_STS] s u ∧ memKept s u) ∧
    (claspOk f = true → s.duplicate p (cfr f 8 24) = true → answers (exec (.claspFrameRx t p f) s) fun u =>
      u.clp.peerValid = s.clp.peerValid ∧ u.clp.renewAt = s.clp.renewAt ∧ u.clp.role = s.clp.role ∧
      u.reg Reg.CLP_PEER_EPOCH = s.reg Reg.CLP_PEER_EPOCH ∧ regsKeptOnly [Reg.CLP_STS] s u ∧ memKept s u) ∧
    (claspOk f = true → s.duplicate p (cfr f 8 24) = false → cfr f 5 3 = 4 → 1 ≤ epochAhead (cfr f 8 24) s.clp.peerEpoch →
      epochAhead (cfr f 8 24) s.clp.peerEpoch ≤ 6 → answers (exec (.claspFrameRx t p f) s) fun u =>
        u.clp.peerValid = true ∧ u.clp.renewAt = max s.now t ∧ u.clp.peerLapsed = false ∧ u.clp.peerRole = 4 ∧
        u.clp.guardHeard = true ∧ u.clp.listenAt = none ∧ u.clp.role = (if s.clp.role = 5 then 1 else s.clp.role) ∧
        u.reg Reg.CLP_PEER_EPOCH = cfr f 8 24 ∧ regsKeptOnly [Reg.CLP_STS, Reg.CLP_PEER_EPOCH] s u ∧ memKept s u) ∧
    (claspOk f = true → s.duplicate p (cfr f 8 24) = false → cfr f 5 3 = 5 → s.clp.role = 1 → s.clp.guardAt = none →
      answers (exec (.claspFrameRx t p f) s) fun u =>
        u.clp.peerValid = false ∧ u.clp.peerLapsed = true ∧ guardBegun s u ∧ u.clp.guardYield = true ∧ memKept s u)) ∧
  (∀ (t : Nat) (s : State), s.pulseUp = true → s.clp.peerValid = true → s.clp.renewAt + 6000 ≤ max s.now t →
    answers (exec (.leaseExpire t) s) fun u =>
      u.clp.peerValid = false ∧ u.clp.peerLapsed = true ∧ (s.clp.role = 1 → s.clp.guardAt = none → guardBegun s u) ∧
      (s.clp.role ≠ 1 → u.clp.role = s.clp.role) ∧ regsKeptOnly [Reg.CLP_STS] s u ∧ memKept s u) ∧
  (∀ (t g : Nat) (s : State), s.clp.guardAt = some g → g + 2000 ≤ max s.now t →
    (s.claimHolds = true → s.clp.guardHeard = false → answers (exec (.guardEnd t) s) fun u =>
      gained s u ∧ (s.clp.guardYield = false → counted s u Reg.CLP_CLAIM_CNT)) ∧
    ((s.claimHolds = false ∨ s.clp.guardHeard = true) → answers (exec (.guardEnd t) s) fun u =>
      u.clp.role = 1 ∧ u.clp.guardAt = none ∧ u.clp.listenAt = some (max s.now t) ∧ u.clp.drive = s.clp.drive ∧
      regsKeptOnly [Reg.CLP_STS] s u ∧ memKept s u)) ∧
  (∀ (t : Nat) (s : State), s.clp.drive = true → s.clp.timerAt + 4000 ≤ max s.now t →
    answers (exec (.ownerHoldTimerExpire t) s) fun u =>
      u.clp.drive = false ∧ u.clp.line = false ∧ u.clp.role = 1 ∧ u.clp.recordOwner = false ∧ outputsOff u ∧
      u.reg Reg.CLP_LAST_STAMP = max s.now t % 2 ^ 64 ∧ memKept s u) ∧
  (∀ (t : Nat) (s : State), s.pulseUp = true →
    ((s.at t).ownLine = false → answers (exec (.ownerLineStuck t true) s) fun u =>
      u.bit Reg.CLP_STS 8 = true ∧ u.clp = { s.clp with line := true } ∧ regsKeptOnly [Reg.CLP_STS] s u ∧ memKept s u) ∧
    ((s.at t).ownLine = true → s.clp.role = 4 → (s.clp.peerRole = 1 ∨ s.clp.peerRole = 2) → s.clp.peerLineOk = true →
      s.clp.peerContest = false → s.bit Reg.CLP_CTL 1 = true → answers (exec (.ownerLineStuck t false) s) fun u =>
        u.bit Reg.CLP_STS 8 = true ∧ u.clp.role = 5 ∧ u.clp.drive = false ∧ u.clp.yieldCause = 4 ∧
        u.clp.yieldAt = some (max s.now t) ∧ counted s u Reg.CLP_YIELD_CNT ∧ outputsOff u ∧ posted 0x111 u ∧ memKept s u)) ∧
  (∀ (t : Nat) (s : State), s.pulseUp = true → s.clp.line = true → s.clp.peerLine = true → s.clp.contest = false →
    answers (exec (.contestDetect t) s) fun u =>
      u.clp.contest = true ∧ u.clp.recordOwner = decide (s.clp.role = 4) ∧ u.bit Reg.CLP_STS 7 = true ∧
      counted s u Reg.CLP_CONTEST_CNT ∧ u.clp.role = (if s.clp.role = 3 then 1 else s.clp.role) ∧ outputsOff u ∧ memKept s u) ∧
  (∀ (t a : Nat) (s : State), s.clp.contestPeerLow = some a → s.clp.contest = true → a + 10000000 ≤ max s.now t →
    answers (exec (.contestEnd t) s) fun u =>
      u.clp.contest = false ∧ u.bit Reg.CLP_STS 7 = false ∧
      (s.clp.recordOwner = true → s.clp.drive = true → u.bit Reg.PLS_STS 3 = true ∧
        ∀ x : Fin 2, s.bit (Reg.CTC_STS x) 6 = true → u.bit (Reg.CTC_STS x) 5 = true) ∧
      ((s.clp.recordOwner = false ∨ s.clp.drive = false) → regsKeptOnly [Reg.CLP_STS] s u) ∧ memKept s u) ∧
  (∀ (t : Nat) (w : Writer) (s : State), admits s w Reg.CLP_CTL 32 (s.fld Reg.CLP_CTL 1 2 * 2 + 8) = true →
    ((s.at t).ownLineOk = true → answers (exec (.clpStuckClr t w) s) fun u =>
      u.bit Reg.CLP_STS 8 = false ∧ u.clp = s.clp ∧ u.fld Reg.CLP_CTL 1 2 = s.fld Reg.CLP_CTL 1 2 ∧
      regsKeptW 0x111 [Reg.CLP_CTL, Reg.CLP_STS] s u ∧ memKept s u) ∧
    ((s.at t).ownLineOk = false → answers (exec (.clpStuckClr t w) s) fun u =>
      u.reg Reg.CLP_STS = s.reg Reg.CLP_STS ∧ u.clp = s.clp ∧ u.bit (Reg.IRQ_STS 0x111) 4 = true ∧ memKept s u)) ∧
  (∀ (t : Nat) (w : Writer) (s : State), admits s w Reg.CLP_CTL 32 (s.fld Reg.CLP_CTL 1 2 * 2 + 1) = true →
    (s.clp.role = 4 → (s.at t).peerReady = true → s.clp.peerContest = false → s.clp.yieldDue = none →
      answers (exec (.clpHandover t w) s) fun u =>
        u.clp = { s.clp with yieldCause := 1, yieldDue := some (alignUp 1000000 (max s.now t + 20000)) } ∧
        regsKeptW 0x111 [Reg.CLP_CTL, Reg.CLP_STS] s u ∧ memKept s u) ∧
    ((s.clp.role ≠ 4 ∨ (s.at t).peerReady = false) → answers (exec (.clpHandover t w) s) fun u =>
      u.clp = s.clp ∧ u.bit (Reg.IRQ_STS 0x111) 4 = true ∧ memKept s u)) ∧
  (∀ (t y : Nat) (s : State), s.clp.yieldAt = some y → s.clp.role = 5 → y + 100000 ≤ max s.now t →
    answers (exec (.yieldFail t) s) fun u =>
      u.bit Reg.CLP_STS 13 = true ∧ posted 0x111 u ∧ u.clp.yieldAt = none ∧ (s.claimHolds = true → gained s u) ∧
      (s.claimHolds = false → u.clp.role = 1 ∧ u.clp.listenAt = some (max s.now t)) ∧ memKept s u) ∧
  (∀ (t a : Nat) (s : State), s.clp.listenAt = some a → s.clp.role = 1 → s.clp.peerValid = false → s.clp.guardAt = none →
    s.mayClaim = true → a + s.reg Reg.CLP_LISTEN * 1000000 ≤ max s.now t →
    answers (exec (.listenEnd t) s) fun u => guardBegun s u ∧ regsKeptOnly [Reg.CLP_STS] s u ∧ memKept s u) ∧
  (∀ (t : Nat) (s : State), s.pulseUp = true → s.clp.peerSeen ≠ 0 → s.clp.peerSeen + 1000000 ≤ max s.now t →
    answers (exec (.peerAbsent t) s) fun u =>
      u.clp.peerSeen = 0 ∧ u.clp.peerRole = 0 ∧ u.clp.role = s.clp.role ∧ posted 0x111 u ∧ memKept s u) ∧
  (∀ (t : Nat) (s : State), s.pulseUp = true → (s.at t).pathLive s.clp.wireAt = false → (s.at t).pathLive s.clp.slkAt = true →
    answers (exec (.claspWireFault t) s) fun u =>
      u.bit Reg.CLP_STS 11 = true ∧ u.clp = s.clp ∧ regsKeptOnly [Reg.CLP_STS] s u ∧ memKept s u)

/-- R338 to R344, R349, R383, R397, R398: the identity check shows the peer and bars a module of the other order code; whole plans are
mirrored; records arrive, are acknowledged and sequenced; a copy of the journal starts and ends; a restore loads the Pattern,
writes the newest usable Cameo and ends once the estimators are warm. -/
def Obligations.TheStandbyMirrorsAndRestores : Prop :=
  (∀ (t : Nat) (p : PeerIdent) (s : State), (s.pw.island = true ∨ s.baseUp = true) → s.bit Reg.SLK_CTL 0 = true →
    (p.order = s.ownCode → answers (exec (.slotLinkIdent t p) s) fun u =>
      u.fld Reg.SLK_STS 0 3 = 4 ∧ u.bit Reg.SLK_STS 3 = true ∧ u.bit Reg.SLK_STS 4 = s.inPlan p.serial.toNat ∧
      u.reg Reg.SLK_PEER_SN = p.serial.toNat ∧ (s.slkUp = false → s.isOwner = false → u.jnl.resync = true ∧ u.bit Reg.SLK_STS 7 = true) ∧
      regsKeptOnly [Reg.SLK_STS, Reg.SLK_PEER_SN, Reg.SLK_RESYNC_PCT, Reg.CLP_STS] s u ∧ memKept s u) ∧
    (p.order ≠ s.ownCode → answers (exec (.slotLinkIdent t p) s) fun u =>
      u.fld Reg.SLK_STS 0 3 = 5 ∧ u.bit Reg.SLK_STS 3 = false ∧ posted 0x114 u ∧
      (s.clp.role ≠ 4 → u.bit Reg.CLP_CTL 2 = true) ∧ (s.clp.role = 4 → u.reg Reg.CLP_CTL = s.reg Reg.CLP_CTL) ∧
      u.jnl.resync = s.jnl.resync ∧ memKept s u)) ∧
  (∀ (t : Nat) (g : List Byte) (s : State), s.isOwner = false → s.slkUp = true → s.pulseUp = true →
    (planWhole g = true → answers (exec (.planMirror t g) s) fun u =>
      u.gov.plan = some g ∧ u.reg Reg.PLS_PLAN_FRAME = leAt g 0 8 ∧ u.bit Reg.PLS_STS 6 = true ∧ u.bit Reg.SLK_STS 6 = true ∧
      u.reg Reg.SLK_PLAN_AGE = 0 ∧ u.clp.planAt = some (max s.now t) ∧ memKept s u) ∧
    (planWhole g = false → answers (exec (.planMirror t g) s) fun u =>
      counted s u Reg.SLK_RX_ERR ∧ u.gov = s.gov ∧ u.clp = s.clp ∧ regsKept 0x114 [Reg.SLK_RX_ERR] s u ∧ memKept s u)) ∧
  (∀ (t : Nat) (r : JRec) (s : State), s.isOwner = false → s.slkUp = true →
    answers (exec (.journalMirrorRx t r) s) fun u =>
      (∃ e : JEnt, u.jnl.queue.getLast? = some e ∧ e.item = r) ∧
      (∀ x ∈ u.jnl.log, x.2.isLocal = true → x.2.seq ≠ r.seq) ∧
      u.reg Reg.JNL_SEQ = max (s.reg Reg.JNL_SEQ) (r.seq + 1) % 2 ^ 64 ∧ regsKeptOnly [Reg.JNL_SEQ] s u ∧ memKept s u) ∧
  (∀ (t q : Nat) (s : State), s.slkUp = true →
    answers (exec (.journalMirrorAck t q) s) fun u =>
      (∀ x, x ∈ u.jnl.unacked ↔ x ∈ s.jnl.unacked ∧ x ≠ q) ∧ u.reg Reg.SLK_JNL_LAG = u.jnl.unacked.length % 2 ^ 64 ∧
      u.reg Reg.SLK_JNL_ACK_SEQ = max (s.reg Reg.SLK_JNL_ACK_SEQ) (q % 2 ^ 32) ∧ u.jnl.queue = s.jnl.queue ∧ memKept s u) ∧
  (∀ (t : Nat) (r : JNew) (s : State), s.isOwner = true → s.slkUp = true → s.jnlRefuses = false → s.jnlCrit = false →
    answers (exec (.peerJournalRecordRx t r) s) fun u => queuedRec s u r.ty r.src r.sync r.payload ∧ memKept s u) ∧
  (∀ (t : Nat) (s : State), s.isOwner = false → s.slkUp = true → s.jnl.resync = false →
    answers (exec (.journalResync t) s) fun u =>
      u.jnl = { s.jnl with resync := true } ∧ u.bit Reg.SLK_STS 7 = true ∧ u.reg Reg.SLK_RESYNC_PCT = 0 ∧
      regsKeptOnly [Reg.SLK_STS, Reg.SLK_RESYNC_PCT, Reg.CLP_STS] s u ∧ memKept s u) ∧
  (∀ (t : Nat) (w : Writer) (s : State), admits s w Reg.SLK_CTL 32 (s.reg Reg.SLK_CTL % 2 + 2) = true →
    (s.isOwner = false → s.jnl.resync = false → s.slkUp = true → answers (exec (.slkResync t w) s) fun u =>
      u.jnl.resync = true ∧ u.bit Reg.SLK_STS 7 = true ∧ u.reg Reg.SLK_RESYNC_PCT = 0 ∧ memKept s u) ∧
    ((s.isOwner = true ∨ s.jnl.resync = true) → answers (exec (.slkResync t w) s) fun u =>
      u.jnl.resync = s.jnl.resync ∧ u.reg Reg.SLK_STS = s.reg Reg.SLK_STS ∧ u.bit (Reg.IRQ_STS 0x114) 4 = true ∧ memKept s u)) ∧
  (∀ (t : Nat) (s : State), s.jnl.resync = true → s.slkUp = true →
    answers (exec (.resyncDone t) s) fun u =>
      u.jnl.resync = false ∧ u.bit Reg.SLK_STS 7 = false ∧ u.bit Reg.SLK_STS 5 = true ∧ u.reg Reg.SLK_RESYNC_PCT = 100 ∧
      regsKeptOnly [Reg.SLK_STS, Reg.SLK_RESYNC_PCT, Reg.CLP_STS] s u ∧ memKept s u) ∧
  (∀ (t : Nat) (w : Writer) (v : Word) (s : State), admits s w Reg.SLK_CTL 32 v.toNat = true → bitOf v.toNat 1 = false →
    (v.toNat % 2 = 0 → answers (exec (.slkEnableWrite t w v) s) fun u =>
      u.fld Reg.SLK_STS 0 3 = 6 ∧ u.jnl.unacked = [] ∧ u.clp.slkAt = 0 ∧ u.slkUp = false ∧ memKept s u) ∧
    (v.toNat % 2 = 1 → s.fld Reg.SLK_STS 0 3 = 6 → answers (exec (.slkEnableWrite t w v) s) fun u =>
      u.fld Reg.SLK_STS 0 3 = 0 ∧ u.bit Reg.SLK_CTL 0 = true ∧ u.jnl = s.jnl ∧ memKept s u)) ∧
  (∀ (t : Nat) (s : State), s.fld Reg.SLK_STS 0 3 ≠ 0 →
    answers (exec (.slotLinkDown t) s) fun u =>
      u.fld Reg.SLK_STS 0 3 = 0 ∧ u.jnl.unacked = [] ∧ u.reg Reg.SLK_JNL_LAG = 0 ∧ u.clp.slkAt = 0 ∧ u.clp.role = s.clp.role ∧
      memKept s u) ∧
  (∀ (t : Nat) (g : SigVerdict) (s : State), s.restoring = true → s.runningPat = none → s.seq.store ≠ [] → s.clp.patTries < 2 →
    (s.storeIsOwners = false → answers (exec (.restorePatternLoaded t g) s) fun u =>
      u.clp.patTries = s.clp.patTries + 1 ∧ u.runningPat = none ∧ u.fld Reg.SEQ_LOAD_STS 8 8 = 6 ∧ memKept s u) ∧
    (s.storeIsOwners = true →
      let found := checkContainer (s.at t) (listSrc s.seq.store) s.seq.store.length g []
      answers (exec (.restorePatternLoaded t g) s) fun u =>
        (∀ r d, found = .error (r, d) → u.clp.patTries = s.clp.patTries + 1 ∧ u.runningPat = none ∧ memKept s u ∧
          u.reg Reg.SEQ_LOAD_STS = (3 + 0x100 * r + 0x10000 * (d % 65536)) % 2 ^ 64) ∧
        (found = .ok () → ∀ v d, (s.at t).selectFor (some (describePattern (listSrc s.seq.store))) = some (v, d) →
          u.runningPat = some (describePattern (listSrc s.seq.store)) ∧ u.actBank.variant = v ∧ u.reg Reg.SEQ_LOAD_STS = 2 ∧
          u.clp.patTries = s.clp.patTries))) ∧
  (∀ (t : Nat) (s : State), s.restoring = true → s.runningPat.isSome = true →
    (s.usableCameo = none → answers (exec (.cameoRestore t) s) fun u =>
      u.blk 0x10 = stStarting ∧ u.bit (Reg.BLK_CTL 0x10) 0 = true ∧ u.clp.cameoAt = some (max s.now t) ∧
      u.jnl.restored = (Fv.zero, Fv.zero) ∧ memKept s u) ∧
    (∀ c q d a n, s.usableCameo = some (c, q) → objectOf s.jnlRecs c = some d → s.keepRegions = [(a, n)] → n ≤ d.length →
      answers (exec (.cameoRestore t) s) fun u =>
        u.bytes a n = d.take n ∧ u.blk 0x10 = stStarting ∧ u.clp.cameoAt = some (max s.now t) ∧
        u.jnl.restored = (s.jnl.charge.1.sub q.1, s.jnl.charge.2.sub q.2) ∧ memKeptOutside [(a, n)] s u)) ∧
  (∀ (t a : Nat) (s : State), s.clp.cameoAt = some a → s.patternActive = true → a + 2000000000 ≤ max s.now t →
    answers (exec (.estimatorsWarm t) s) fun u =>
      u.clp.cameoAt = none ∧ u.clp.restoreAt = none ∧ regsKept 0x111 [] s u ∧ memKept s u)

/-! ## Mailboxes, doorbells and sessions (R48, R350, R353 to R362, R380) -/

/-- No notice of a saturating counter can come into mailbox `n` with an accepted write (R439, R444): it is not mailbox 40, or
AUD_LOST does not saturate. -/
def apart (s : State) (n : Fin 64) : Prop := n.val ≠ 40 ∨ s.reg Reg.AUD_LOST + 1 < 2 ^ 32 - 1

/-- The registers of a mailbox that a post moves, with Nugen's wake. -/
def postRegs (n : Fin 64) : List Nat := [Reg.MBX_STS n, Reg.MBX_SEQ n, Reg.MBX_POST_STAMP n, Reg.MBX_COLLIDE_CNT n, Reg.NUG_STS]

/-- A message of an agent stands in mailbox `n` (R358): FULL, not ACKED, its sender, SEQ one on and the stamp; a message still held
is a collision. -/
def postedIn (s u : State) (n : Fin 64) (agent : Nat) (m : BitVec 2048) : Prop :=
  u.mbx.box[n].msg = m ∧ u.bit (Reg.MBX_STS n) 0 = true ∧ u.bit (Reg.MBX_STS n) 2 = false ∧ u.fld (Reg.MBX_STS n) 8 3 = agent ∧
  u.reg (Reg.MBX_SEQ n) = (s.reg (Reg.MBX_SEQ n) + 1) % 2 ^ 32 ∧ u.reg (Reg.MBX_POST_STAMP n) = u.now % 2 ^ 64 ∧
  (s.bit (Reg.MBX_STS n) 0 = true → u.bit (Reg.MBX_STS n) 1 = true ∧ counted s u (Reg.MBX_COLLIDE_CNT n)) ∧
  (s.bit (Reg.MBX_STS n) 0 = false → u.reg (Reg.MBX_COLLIDE_CNT n) = s.reg (Reg.MBX_COLLIDE_CNT n))

/-- The message of mailbox `n` was fetched into a path's read buffer (R359); an empty mailbox gives the marker 0xFFFF. -/
def fetchedInto (s u : State) (n : Fin 64) (p : Path) : Prop :=
  (s.bit (Reg.MBX_STS n) 0 = true → u.mbx.readBuf[pathIdx p] = s.mbx.box[n].msg) ∧
  (s.bit (Reg.MBX_STS n) 0 = false → (u.mbx.readBuf[pathIdx p]).toNat % 2 ^ 16 = 0xFFFF) ∧
  u.reg (Reg.MBX_FETCH_SEQ n) = s.reg (Reg.MBX_SEQ n) ∧ u.mbx.box[n].fetched = true ∧ u.mbx.box[n].msg = s.mbx.box[n].msg

/-- Mailbox `n` is acknowledged with a code (R359): ACK_SEQ is the SEQ last fetched, and FULL clears unless a newer message came. -/
def ackedWith (s u : State) (n : Fin 64) (code : Nat) : Prop :=
  u.reg (Reg.MBX_ACK_CODE n) = code ∧ u.reg (Reg.MBX_ACK_SEQ n) = s.reg (Reg.MBX_FETCH_SEQ n) ∧
  u.reg (Reg.MBX_ACK_STAMP n) = u.now % 2 ^ 64 ∧ u.bit (Reg.MBX_STS n) 2 = true ∧ u.mbx.box[n].fetched = false ∧
  u.bit (Reg.MBX_STS n) 0 = (s.bit (Reg.MBX_STS n) 0 && decide (s.reg (Reg.MBX_SEQ n) ≠ s.reg (Reg.MBX_FETCH_SEQ n)))

/-- The registers that an acknowledgement moves. -/
def ackRegs (n : Fin 64) : List Nat := [Reg.MBX_ACK n, Reg.MBX_ACK_CODE n, Reg.MBX_ACK_SEQ n, Reg.MBX_ACK_STAMP n, Reg.MBX_STS n]

/-- The result of a session's last operation. -/
def resultOf (u : State) (i : Fin 64) : Option Nat := u.nug.sess[i].map (·.result)

/-- R357 to R359, R362, R380, R48: an admitted agent's post, the receiver's fetch and its acknowledgement, by registers and by the
sequencer's MBP slots; the windows advance; a coefficient load is taken or answered with its code. -/
def Obligations.MailboxesPostFetchAndAcknowledge : Prop :=
  (∀ (t a : Nat) (w : Writer) (n : Fin 64) (s : State), admits s w (Reg.MBX_POST (mbxPageOf n)) 32 (n.val % 16) = true →
    s.baseUp = true → agentOf w.path = some a → apart s n →
    (s.mbxAdmits n a = true → s.mbxRx n ≠ 4 → answers (exec (.mbxPost t w n) s) fun u =>
      postedIn s u n a s.mbx.staging[pathIdx w.path] ∧ u.mbx.staging = s.mbx.staging ∧
      regsKeptW (0x90 + mbxPageOf n) (Reg.MBX_POST (mbxPageOf n) :: postRegs n) s u ∧ memKept s u) ∧
    (s.mbxAdmits n a = true → s.mbxRx n = 4 → a ≠ 4 → s.slkUp = true → answers (exec (.mbxPost t w n) s) fun u =>
      u.nug.toPeer.getLast? = some (s.fld (Reg.MBX_CFG n) 18 6, s.mbx.staging[pathIdx w.path]) ∧
      u.mbx.box[n].msg = s.mbx.staging[pathIdx w.path] ∧ memKept s u) ∧
    (s.mbxAdmits n a = true → s.mbxRx n = 4 → a ≠ 4 → s.slkUp = false → answers (exec (.mbxPost t w n) s) fun u =>
      u.reg (Reg.MBX_ACK_CODE n) = 0x0102 ∧ u.bit (Reg.MBX_STS n) 0 = false ∧ memKept s u) ∧
    (s.mbxAdmits n a = false → n.val ≠ 40 → w.path ≠ .slot → answers (exec (.mbxPost t w n) s) fun u =>
      u.mbx.box[n] = s.mbx.box[n] ∧ u.bit (Reg.IRQ_STS (0x90 + mbxPageOf n)) 4 = true ∧ regsKeptW (0x90 + mbxPageOf n) [] s u ∧
      memKept s u) ∧
    (s.mbxAdmits n a = false → w.path = .slot → answers (exec (.mbxPost t w n) s) fun u =>
      u.nug.acksToPeer = s.nug.acksToPeer ++ [(n.val, 0x0242)] ∧ u.mbx = s.mbx ∧ regsKeptOnly [] s u ∧ memKept s u)) ∧
  (∀ (t : Nat) (w : Writer) (n : Fin 64) (s : State), admits s w (Reg.MBX_POST (mbxPageOf n)) 32 (n.val % 16) = true →
    w.path = .slot → s.baseUp = false → s.mbxAdmits n 4 = true →
    answers (exec (.mbxPost t w n) s) fun u =>
      (s.mbx.heldMsgs.length < 4 → u.mbx.heldMsgs = s.mbx.heldMsgs ++ [(n.val, s.mbx.staging[pathIdx .slot])]) ∧
      (4 ≤ s.mbx.heldMsgs.length → u.mbx.heldMsgs = s.mbx.heldMsgs ∧
        u.nug.acksToPeer = s.nug.acksToPeer ++ [(n.val, 0x0101)]) ∧ memKept s u) ∧
  (∀ (t : Nat) (w : Writer) (n : Fin 64) (s : State), admits s w (Reg.MBX_POST (mbxPageOf n)) 32 (n.val % 16) = true →
    agentOf w.path = none → n.val ≠ 40 →
    answers (exec (.mbxPost t w n) s) fun u =>
      u.mbx.box[n] = s.mbx.box[n] ∧ u.bit (Reg.IRQ_STS (0x90 + mbxPageOf n)) 4 = true ∧ regsKeptW (0x90 + mbxPageOf n) [] s u ∧
      memKept s u) ∧
  (∀ (t : Nat) (w : Writer) (n : Fin 64) (s : State), admits s w (Reg.MBX_FETCH (mbxPageOf n)) 32 (n.val % 16) = true →
    (s.pathReceives w.path n = true → apart s n → answers (exec (.mbxFetch t w n) s) fun u =>
      fetchedInto s u n w.path ∧
      regsKeptW (0x90 + mbxPageOf n) [Reg.MBX_FETCH (mbxPageOf n), Reg.MBX_FETCH_SEQ n] s u ∧ memKept s u) ∧
    (s.pathReceives w.path n = false → n.val ≠ 40 → answers (exec (.mbxFetch t w n) s) fun u =>
      u.mbx.readBuf = s.mbx.readBuf ∧ u.mbx.box[n] = s.mbx.box[n] ∧ regsKeptW (0x90 + mbxPageOf n) [] s u ∧ memKept s u)) ∧
  (∀ (t : Nat) (w : Writer) (n : Fin 64) (v : Word) (s : State), admits s w (Reg.MBX_ACK n) 32 v.toNat = true →
    (s.mayAck w.path n = true → apart s n → answers (exec (.mbxAck t w n v) s) fun u =>
      ackedWith s u n (v.toNat % 65536) ∧
      (s.mbx.box[n].fromAgent = 4 → u.nug.acksToPeer = s.nug.acksToPeer ++ [(n.val, v.toNat % 65536)]) ∧
      regsKeptW (0x90 + mbxPageOf n) (ackRegs n) s u ∧ memKept s u) ∧
    (s.mayAck w.path n = false → n.val ≠ 40 → answers (exec (.mbxAck t w n v) s) fun u =>
      u.mbx.box[n] = s.mbx.box[n] ∧ u.bit (Reg.IRQ_STS (0x90 + mbxPageOf n)) 4 = true ∧ regsKeptW (0x90 + mbxPageOf n) [] s u ∧
      memKept s u)) ∧
  (∀ (t : Nat) (w : Writer) (pg : Fin 4) (v : Word) (s : State), admits s w (Reg.MBX_WDATA pg) 32 v.toNat = true →
    answers (exec (.mbxWdataWrite t w pg v) s) fun u =>
      (∀ k : Fin 64, msgWord u.mbx.staging[pathIdx w.path] k =
        if k.val = s.dselWord pg w.path then v.toNat else msgWord s.mbx.staging[pathIdx w.path] k) ∧
      u.dselWord pg w.path = (s.dselWord pg w.path + 1) % 64 ∧ regsKeptW (0x90 + pg) [Reg.MBX_WDATA pg] s u ∧ memKept s u) ∧
  (∀ (t : Nat) (w : Writer) (pg : Fin 4) (s : State), s.basePowered = true → w.path ≠ .lining →
    (w.path ≠ .jtag ∨ lcJtag s.lc = true) →
    answers (exec (.mbxRdataRead t w pg) s) fun u =>
      u.dselWord pg w.path = (s.dselWord pg w.path + 1) % 64 ∧ u.mbx.readBuf = s.mbx.readBuf ∧ u.mbx.staging = s.mbx.staging ∧
      regsKeptOnly [] s u ∧ memKept s u) ∧
  (∀ (t : Nat) (b : BitVec 16) (s : State), s.seq.body.active = true →
    (s.mbxAdmits (mbpBox b) 1 = true → s.mbxRx (mbpBox b) ≠ 4 → answers (exec (.mbpPost t b) s) fun u =>
      postedIn s u (mbpBox b) 1 (BitVec.ofNat 2048 (s.le (s.mbpAddr b) 256)) ∧ regsKeptOnly (postRegs (mbpBox b)) s u ∧
      memKept s u) ∧
    (s.mbxAdmits (mbpBox b) 1 = false → (mbpBox b).val ≠ 40 → answers (exec (.mbpPost t b) s) fun u =>
      u.mbx.box[mbpBox b] = s.mbx.box[mbpBox b] ∧ u.bit (Reg.IRQ_STS (0x90 + mbxPageOf (mbpBox b))) 4 = true ∧
      regsKeptW (0x90 + mbxPageOf (mbpBox b)) [] s u ∧ memKept s u)) ∧
  (∀ (t : Nat) (b : BitVec 16) (s : State), s.seq.body.active = true →
    (s.pathReceives .mbp (mbpBox b) = true → answers (exec (.mbpFetch t b) s) fun u =>
      fetchedInto s u (mbpBox b) .mbp ∧ u.bytes (s.mbpAddr b) 256 = leBytes 256 u.mbx.readBuf[pathIdx .mbp].toNat ∧
      regsKeptOnly [Reg.MBX_FETCH_SEQ (mbpBox b)] s u ∧ memKeptOutside [(s.mbpAddr b, 256)] s u) ∧
    (s.pathReceives .mbp (mbpBox b) = false → answers (exec (.mbpFetch t b) s) fun u =>
      u.byte (s.mbpAddr b) = 0xFF ∧ u.byte (s.mbpAddr b + 1) = 0xFF ∧ u.mbx.box = s.mbx.box ∧ regsKeptOnly [] s u ∧
      memKeptOutside [(s.mbpAddr b, 256)] s u)) ∧
  (∀ (t : Nat) (b : BitVec 16) (s : State), s.seq.body.active = true → s.mayAck .mbp (mbpBox b) = true → apart s (mbpBox b) →
    admits s mbpWriter (Reg.MBX_ACK (mbpBox b)) 32 (s.le (s.mbpAddr b) 2) = true →
    answers (exec (.mbpAck t b) s) fun u =>
      ackedWith s u (mbpBox b) (s.le (s.mbpAddr b) 2) ∧ regsKeptW (0x90 + mbxPageOf (mbpBox b)) (ackRegs (mbpBox b)) s u ∧
      memKept s u) ∧
  (∀ (t : Nat) (n : Fin 64) (s : State), s.baseUp = true → s.pulseUp = true → s.mbxRx n = 2 → s.bit (Reg.MBX_STS n) 0 = true →
    let m := s.mbx.box[n].msg.toNat
    (s.coefCode m ≠ 0 → answers (exec (.cleCoefLoad t n) s) fun u =>
      u.cle = s.cle ∧ u.reg (Reg.MBX_ACK_CODE n) = s.coefCode m ∧ u.bit (Reg.MBX_STS n) 0 = false ∧
      regsKeptOnly (Reg.MBX_FETCH_SEQ n :: ackRegs n) s u ∧ memKept s u) ∧
    (s.coefCode m = 0 → answers (exec (.cleCoefLoad t n) s) fun u =>
      (∀ j, j < fieldOf m 24 8 →
        u.coef (fieldOf m 0 8) (fieldOf m 8 8 = 1) (fieldOf m 16 8 + j) = fieldOf m (64 + 32 * j) 32) ∧
      u.reg (Reg.MBX_ACK_CODE n) = 0 ∧ u.reg (Reg.MBX_ACK_SEQ n) = s.reg (Reg.MBX_SEQ n) ∧ u.bit (Reg.MBX_STS n) 0 = false ∧
      memKept s u))

/-- R350, R353 to R355, R360, R361: doorbell operations carry out a session's post, fetch and acknowledgement with a RESULT, the
1,001st within a second is BUSY; a handshake opens the lowest free session or is refused; Redfish answers 503 until ready; a
watchdog or RESTART ends every session; SLEEP gates the cores, or powers a standby down. -/
def Obligations.SessionsDoorbellsAndNugensCores : Prop :=
  (∀ (t : Nat) (i n : Fin 64) (m : Message) (c : BitVec 16) (e : SessSt) (s : State), s.nug.sess[i] = some e → e.doorbell = true →
    s.baseUp = true → s.mgmtUp = true → s.bit Reg.MGP_CTL 2 = true →
    (1000 ≤ ((s.at t).recentOps e).length → ∀ k ∈ [Instr.doorbellPost t i n m, .doorbellFetch t i n, .doorbellAck t i n c],
      answers (exec k s) fun u => resultOf u i = some 0x0100 ∧ u.mbx = s.mbx ∧ regsKeptOnly [] s u ∧ memKept s u) ∧
    (((s.at t).recentOps e).length < 1000 →
      (s.mbxAdmits n 3 = true → s.mbxRx n ≠ 4 → answers (exec (.doorbellPost t i n m) s) fun u =>
        postedIn s u n 3 m ∧ u.mbx.box[n].poster = some i ∧ resultOf u i = some 0 ∧ regsKeptOnly (postRegs n) s u ∧ memKept s u) ∧
      (s.mbxAdmits n 3 = false → answers (exec (.doorbellPost t i n m) s) fun u =>
        resultOf u i = some 0x0242 ∧ u.mbx.box = s.mbx.box ∧ regsKeptOnly [] s u ∧ memKept s u) ∧
      (s.mbxRx n = 3 → answers (exec (.doorbellFetch t i n) s) fun u =>
        fetchedInto s u n .mgmt ∧ resultOf u i = some 0 ∧ regsKeptOnly [Reg.MBX_FETCH_SEQ n] s u ∧ memKept s u) ∧
      (s.mbxRx n ≠ 3 → answers (exec (.doorbellFetch t i n) s) fun u =>
        resultOf u i = some 0x0242 ∧ u.mbx = s.mbx ∧ regsKeptOnly [] s u ∧ memKept s u) ∧
      (s.mayAck .mgmt n = true → answers (exec (.doorbellAck t i n c) s) fun u =>
        ackedWith s u n c.toNat ∧ resultOf u i = some 0 ∧ regsKeptOnly (ackRegs n) s u ∧ memKept s u) ∧
      (s.mayAck .mgmt n = false → n.val ≠ 40 → answers (exec (.doorbellAck t i n c) s) fun u =>
        resultOf u i = some (if s.mbxRx n = 3 then 0x0247 else 0x0242) ∧ u.mbx.box[n] = s.mbx.box[n] ∧
        u.bit (Reg.IRQ_STS (0x90 + mbxPageOf n)) 4 = true ∧ regsKeptW (0x90 + mbxPageOf n) [] s u ∧ memKept s u))) ∧
  (∀ (t : Nat) (h : TlsHello) (s : State), s.nugRuns = true → s.mgmtUp = true →
    (admitRole s.lc h = none → answers (exec (.tlsHandshake t h) s) fun u =>
      counted s u Reg.MGP_TLS_FAIL ∧ u.nug.sess = s.nug.sess ∧ regsKept 0x88 [Reg.MGP_TLS_FAIL] s u ∧ memKept s u) ∧
    (∀ r i, admitRole s.lc h = some r → s.sessOpen < s.reg Reg.MGP_SESS_MAX → s.freeSess = some i →
      answers (exec (.tlsHandshake t h) s) fun u =>
        u.nug.sess[i] = some ⟨r, h.doorbell, false, [], 0, 200⟩ ∧ (∀ j : Fin 64, j ≠ i → u.nug.sess[j] = s.nug.sess[j]) ∧
        u.sessOpen = s.sessOpen + 1 ∧ u.fld Reg.MGP_STS 8 8 = u.sessOpen ∧ regsKeptOnly [Reg.MGP_STS] s u ∧ memKept s u) ∧
    (∀ r, admitRole s.lc h = some r → s.reg Reg.MGP_SESS_MAX ≤ s.sessOpen → answers (exec (.tlsHandshake t h) s) fun u =>
      u.nug = s.nug ∧ regsKeptOnly [] s u ∧ memKept s u)) ∧
  (∀ (t : Nat) (i : Fin 64) (s : State), answers (exec (.sessionClose t i) s) fun u =>
    u.nug.sess[i] = none ∧ (∀ j : Fin 64, j ≠ i → u.nug.sess[j] = s.nug.sess[j]) ∧ u.fld Reg.MGP_STS 8 8 = u.sessOpen ∧
    regsKeptOnly [Reg.MGP_STS] s u ∧ memKept s u) ∧
  (∀ (t : Nat) (i : Fin 64) (q : RedfishReq) (e : SessSt) (s : State), s.nug.sess[i] = some e → s.nugRuns = true →
    s.mgmtUp = true → s.bit Reg.MGP_CTL 1 = true →
    (s.bit Reg.NUG_STS 3 = false → answers (exec (.redfishRequest t i q) s) fun u =>
      u.nug.sess[i] = some { e with result := 0, http := 503 } ∧ regsKeptOnly [Reg.NUG_STS] s u ∧ memKept s u) ∧
    (s.bit Reg.NUG_STS 3 = true → q.tenant = true → answers (exec (.redfishRequest t i q) s) fun u =>
      u.nug.sess[i] = some { e with result := 0x0246, http := 403 } ∧ regsKeptOnly [Reg.NUG_STS] s u ∧ memKept s u) ∧
    (s.bit Reg.NUG_STS 3 = true → q.tenant = false →
      (q.ask = .get → answers (exec (.redfishRequest t i q) s) fun u =>
        u.nug.sess[i] = some { e with result := 0, http := 200 } ∧ regsKeptOnly [Reg.NUG_STS] s u ∧ memKept s u) ∧
      (∀ on, q.ask = .subscribe on → answers (exec (.redfishRequest t i q) s) fun u =>
        u.nug.sess[i] = some { e with subscribed := on, result := 0, http := 200 } ∧ regsKeptOnly [Reg.NUG_STS] s u ∧ memKept s u) ∧
      (∀ g c, q.ask = .write g c → svcRole s.lc c e.role = false → answers (exec (.redfishRequest t i q) s) fun u =>
        u.nug.sess[i] = some { e with result := 0x0242, http := 403 } ∧ regsKeptOnly [Reg.NUG_STS] s u ∧ memKept s u))) ∧
  (∀ (t : Nat) (s : State), s.baseUp = true → s.bit Reg.NUG_STS 0 = true →
    (s.nug.kickAt + s.reg Reg.NUG_WDOG * 1000000 ≤ max s.now t → answers (exec (.nugenWatchdogExpire t) s) fun u =>
      (∀ i : Fin 64, u.nug.sess[i] = none) ∧ u.nug.jobs = [] ∧ u.bit Reg.NUG_STS 0 = true ∧ u.bit Reg.NUG_STS 3 = false ∧
      counted s u Reg.NUG_RESTART_CNT ∧ u.nug.kickAt = max s.now t ∧
      regsKept 0xB0 [Reg.NUG_STS, Reg.SIG_STS, Reg.MGP_STS, Reg.NUG_RESTART_CNT] s u ∧ memKept s u) ∧
    (max s.now t < s.nug.kickAt + s.reg Reg.NUG_WDOG * 1000000 → answers (exec (.nugenWatchdogExpire t) s) fun u =>
      u.nug = s.nug ∧ regsKeptOnly [] s u ∧ memKept s u)) ∧
  (∀ (t : Nat) (w : Writer) (v : Word) (s : State), admits s w Reg.NUG_WDOG_KICK 32 v.toNat = true →
    answers (exec (.nugWdogKick t w v) s) fun u =>
      u.nug.kickAt = max s.now t ∧ regsKeptW 0xB0 [Reg.NUG_WDOG_KICK] s u ∧ memKept s u) ∧
  (∀ (t : Nat) (w : Writer) (s : State), admits s w Reg.NUG_CTL 32 2 = true → s.baseUp = true →
    answers (exec (.nugCtlRestart t w) s) fun u =>
      (∀ i : Fin 64, u.nug.sess[i] = none) ∧ u.nug.jobs = [] ∧ u.pw.nugSleep = false ∧ u.bit Reg.NUG_STS 0 = true ∧
      counted s u Reg.NUG_RESTART_CNT ∧
      regsKeptW 0xB0 [Reg.NUG_CTL, Reg.SIG_STS, Reg.MGP_STS, Reg.NUG_RESTART_CNT] s u ∧ memKept s u) ∧
  (∀ (t : Nat) (w : Writer) (s : State), admits s w Reg.NUG_CTL 32 1 = true → s.baseUp = true →
    (s.clp.role ≠ 1 ∨ s.clp.peerValid = false → answers (exec (.nugCtlSleep t w) s) fun u =>
      u.pw.nugSleep = true ∧ u.bit Reg.NUG_STS 0 = false ∧ u.pw.base = .up ∧ regsKeptW 0xB0 [Reg.NUG_CTL] s u ∧ memKept s u) ∧
    (s.clp.role = 1 → s.clp.peerValid = true → answers (exec (.nugCtlSleep t w) s) fun u =>
      u.pw.base = .off ∧ u.pw.standby = true ∧ u.pw.island = true ∧ u.clp.role = 1 ∧ u.pw.pulse = s.pw.pulse)) ∧
  (∀ (t : Nat) (s : State), s.baseUp = true → s.clp.role = 1 → s.clp.peerValid = true →
    (s.pw.lastService + 600000000000 ≤ max s.now t → answers (exec (.standbyServiceTimeout t) s) fun u =>
      u.pw.base = .off ∧ u.pw.standby = true ∧ u.pw.island = true ∧ u.clp.role = 1 ∧ u.pw.pulse = s.pw.pulse) ∧
    (max s.now t < s.pw.lastService + 600000000000 → answers (exec (.standbyServiceTimeout t) s) fun u =>
      u.pw = s.pw ∧ regsKeptOnly [] s u ∧ memKept s u))

/-! ## Service commands, boot, Signet, the life cycle and keys (R61, R66, R179, R274, R313, R321, R363 to R378) -/

/-- Is this the command of the table that brings a service command to Nugen? -/
def isSvc (i : Instr) (t : Nat) (o : SvcOrigin) (tag : Word) (c : SvcCmd) : Prop :=
  match c with
  | .patternStage g => i = .patternStage t o tag g
  | .patternSwap b => i = .patternSwap t o tag b
  | .policyCommit r => i = .policyCommit t o tag r
  | .standingPolicy r => i = .standingPolicy t o tag r
  | .limitOverride l => i = .limitOverride t o tag l
  | .wiringLoad p g => i = .wiringLoad t o tag p g
  | .shipEnter => i = .shipEnter t o tag
  | .shipExit => i = .shipExit t o tag
  | .imageStage x => i = .imageStage t o tag x
  | .imageActivate => i = .imageActivate t o tag
  | .attest n => i = .attest t o tag n
  | .lcNonce => i = .lcNonce t o tag
  | .lcTransition a k => i = .lcTransition t o tag a k
  | .ownerEnroll k => i = .ownerEnroll t o tag k
  | .hmkKeygen => i = .hmkKeygen t o tag

/-- Nugen runs and takes a command of role `r` from its origin: a session's or the peer's message stands in a mailbox of Nugen, or the
UART console may command (R353, R363, R379). -/
def svcTaken (s : State) (o : SvcOrigin) (r : Role) : Prop :=
  s.nugRuns = true ∧
  match o with
  | .session i box => (∃ e, s.nug.sess[i] = some e ∧ e.role = r) ∧ s.boxRole 3 box = true ∧ s.mbx.box[box].poster = some i
  | .peer q box => q = r ∧ s.boxRole 4 box = true
  | .uart => r = .admin ∧ lcUartCmd s.lc = true

/-- The command's return code has gone to where it came from (R359, R363, R364). -/
def svcAnswered (u : State) (o : SvcOrigin) (code : Nat) : Prop :=
  match o with
  | .session _ b | .peer _ b =>
    u.reg (Reg.MBX_ACK_CODE b) = code ∧ u.reg (Reg.MBX_ACK_STAMP b) = u.now % 2 ^ 64 ∧ u.bit (Reg.MBX_STS b) 2 = true
  | .uart => u.nug.uartCode = code

/-- Where the code goes. -/
def ackDest : SvcOrigin → AckTo
  | .session _ b | .peer _ b => .box b
  | .uart => .uart

/-- The registers that a service command's transport moves. -/
def svcRegs : SvcOrigin → List Nat
  | .session _ b | .peer _ b => Reg.NUG_STS :: Reg.MBX_FETCH_SEQ b :: ackRegs b
  | .uart => [Reg.NUG_STS]

/-- A long command is in hand with its Signet jobs, and the sender has ACCEPTED (R363, R365). -/
def longBegun (s u : State) (o : SvcOrigin) (tag : Word) (c : LongCmd) (prio : Nat) (l : List SigEngine) : Prop :=
  svcAnswered u o 1 ∧ u.nug.jobs = s.nug.jobs ++ [⟨tag, c, l.length⟩] ∧
  u.nug.sigJobs = s.nug.sigJobs ++ l.map (fun e => ⟨e, prio, tag⟩) ∧ u.fld Reg.SIG_STS 8 8 = min 255 u.nug.sigJobs.length ∧ memKept s u

/-- A command is answered with a code and has no effect. -/
def svcRefused (s u : State) (o : SvcOrigin) (code : Nat) : Prop :=
  svcAnswered u o code ∧ u.lc = s.lc ∧ u.nug.jobs = s.nug.jobs ∧ u.arb = s.arb ∧ u.wiringNext = s.wiringNext ∧ u.seq = s.seq ∧
  u.jnl = s.jnl ∧ u.hmk = s.hmk ∧ regsKeptOnly (svcRegs o) s u ∧ memKept s u

/-- R363, R364, R378, R384: a command of a role that may not send it is answered 0x0242, one that the life cycle closes 0x0243, and one
that comes while Nugen does not run changes nothing. Each of the 15 commands has its effect and its code. -/
def Obligations.ServiceCommandsHaveTheirEffects : Prop :=
  (∀ (t : Nat) (o : SvcOrigin) (tag : Word) (c : SvcCmd) (r : Role) (i : Instr) (s : State), isSvc i t o tag c →
    svcTaken s o r →
    (svcRole s.lc c r = false → answers (exec i s) fun u => svcRefused s u o 0x0242) ∧
    (svcRole s.lc c r = true → svcOpen s.lc c = false → answers (exec i s) fun u => svcRefused s u o 0x0243)) ∧
  (∀ (t : Nat) (o : SvcOrigin) (tag : Word) (c : SvcCmd) (i : Instr) (s : State), isSvc i t o tag c → s.nugRuns = false →
    answers (exec i s) fun u => u.nug = s.nug ∧ u.mbx = s.mbx ∧ regsKeptOnly [] s u ∧ memKept s u) ∧
  (∀ (t : Nat) (o : SvcOrigin) (tag : Word) (g : SigVerdict) (s : State), svcTaken s o .admin →
    let total := (readHdr (memSrc s stageAddr)).total
    (2 ^ 32 < total → answers (exec (.patternStage t o tag g) s) fun u => svcRefused s u o 0x0241) ∧
    (total ≤ 2 ^ 32 → (s.seqBusy = true ∨ s.seq.loadBusy = true) → answers (exec (.patternStage t o tag g) s) fun u =>
      svcAnswered u o 0x0214 ∧ u.seq = s.seq ∧ u.fld Reg.SEQ_LOAD_STS 8 8 = 0x14 ∧ memKept s u) ∧
    (total ≤ 2 ^ 32 → s.seqBusy = false → s.seq.loadBusy = false → answers (exec (.patternStage t o tag g) s) fun u =>
      longBegun s u o tag .stage 3 [] ∧ u.seq.loadBusy = true ∧ u.seq.loadCheckOnly = false ∧ u.reg Reg.SEQ_LOAD_ADDR = stageAddr ∧
      u.reg Reg.SEQ_LOAD_LEN = min total (2 ^ 32 - 1) ∧ u.reg Reg.SEQ_LOAD_STS = 1)) ∧
  (∀ (t : Nat) (o : SvcOrigin) (tag : Word) (b : Bool) (s : State), svcTaken s o .admin →
    (s.seqBusy = true → answers (exec (.patternSwap t o tag b) s) fun u =>
      svcAnswered u o 0x0214 ∧ u.seq = s.seq ∧ memKept s u) ∧
    (s.seqBusy = false → swapGoOk b s = false → answers (exec (.patternSwap t o tag b) s) fun u => svcRefused s u o 0x0247) ∧
    (s.seqBusy = false → swapGoOk b s = true → answers (exec (.patternSwap t o tag b) s) fun u =>
      svcAnswered u o 0 ∧ u.seq.swapDue = some (alignUp 1000000 (max s.now t + 20000)) ∧ u.bit Reg.SEQ_STS 3 = true ∧
      memKept s u)) ∧
  (∀ (t : Nat) (o : SvcOrigin) (tag : Word) (r : Role) (l : List Byte) (s : State), svcTaken s o r → r = .operator ∨ r = .admin →
    lcOwnerData s.lc = true →
    (s.policyOk l = false → answers (exec (.policyCommit t o tag l) s) fun u => svcRefused s u o 0x0241) ∧
    (s.policyOk l = true → s.jnlRefuses = true → answers (exec (.policyCommit t o tag l) s) fun u => svcRefused s u o 0x0100) ∧
    (s.policyOk l = true → s.jnlRefuses = false → answers (exec (.policyCommit t o tag l) s) fun u =>
      u.arb.pendingPolicy = some l ∧ u.arb.policy = s.arb.policy ∧ (s.isOwner = true → queuedRec s u 0x10 0x7000 true l) ∧
      u.nug.acks = s.nug.acks ++ [⟨ackDest o, 0x10, l, s.reg Reg.JNL_SEQ⟩] ∧ memKept s u)) ∧
  (∀ (t : Nat) (o : SvcOrigin) (tag : Word) (l : List Byte) (s : State), svcTaken s o .admin → lcOwnerData s.lc = true →
    s.jnlRefuses = false →
    (s.policyOk l = false → answers (exec (.standingPolicy t o tag l) s) fun u => svcRefused s u o 0x0241) ∧
    (s.policyOk l = true → answers (exec (.standingPolicy t o tag l) s) fun u =>
      u.arb.standing = some l ∧ u.arb.pendingPolicy = s.arb.pendingPolicy ∧ (s.isOwner = true → queuedRec s u 0x11 0x7000 true l) ∧
      u.nug.acks = s.nug.acks ++ [⟨ackDest o, 0x11, l, s.reg Reg.JNL_SEQ⟩] ∧ memKept s u)) ∧
  (∀ (t : Nat) (o : SvcOrigin) (tag : Word) (r : Role) (l : LimitRec) (s : State), svcTaken s o r → r = .operator ∨ r = .admin →
    (s.jrjMember = false → answers (exec (.limitOverride t o tag l) s) fun u => svcRefused s u o 0x0101) ∧
    (s.jrjMember = true → answers (exec (.limitOverride t o tag l) s) fun u =>
      svcAnswered u o 0 ∧ memKept s u ∧ ∃ x : LimitSt, u.chn.limits.getLast? = some x ∧ x.l = l.limit.toNat ∧
        x.effect = l.effect.toNat ∧ x.leaseEnd = l.leaseEnd.toNat ∧ x.stamp = max s.now t)) ∧
  (∀ (t : Nat) (o : SvcOrigin) (tag : Word) (l : List Byte) (g : SigVerdict) (s : State), svcTaken s o .admin →
    lcOwnerData s.lc = true →
    ((g.rsa && g.slh) = false → answers (exec (.wiringLoad t o tag l g) s) fun u =>
      svcAnswered u o 0x0244 ∧ counted s u Reg.SIG_VERIFY_FAIL ∧ u.wiringNext = s.wiringNext ∧ u.jnl = s.jnl ∧ memKept s u) ∧
    ((g.rsa && g.slh) = true → wirFormat l = false → answers (exec (.wiringLoad t o tag l g) s) fun u => svcRefused s u o 0x0244) ∧
    ((g.rsa && g.slh) = true → wirFormat l = true → (∀ p, s.wiring = some p → wirVersion p < wirVersion l) → s.jnlRefuses = false →
      answers (exec (.wiringLoad t o tag l g) s) fun u =>
        u.wiringNext = some l ∧ u.wiring = s.wiring ∧ u.bit Reg.JRJ_STS 9 = true ∧
        u.nug.acks = s.nug.acks ++ [⟨ackDest o, 0x12, s.commitPayload l [], s.reg Reg.JNL_SEQ⟩] ∧ memKept s u)) ∧
  (∀ (t : Nat) (o : SvcOrigin) (tag : Word) (r : Role) (s : State), svcTaken s o r → r = .admin ∨ r = .service →
    (s.ship = true → answers (exec (.shipEnter t o tag) s) fun u => svcRefused s u o 0x0002) ∧
    (s.ship = false → admits s nugWriter Reg.CTC_SHIP 32 2 = true → answers (exec (.shipEnter t o tag) s) fun u =>
      svcAnswered u o 0 ∧ u.prt.ship = 1 ∧ (∀ x : Fin 2, u.bit (Reg.CTC_CTL x) 0 = false) ∧ memKept s u) ∧
    (lcShipForced s.lc = false → s.shipExitOk = false → answers (exec (.shipExit t o tag) s) fun u => svcRefused s u o 0x0247) ∧
    (s.shipExitOk = true → admits s nugWriter Reg.CTC_SHIP 32 4 = true → answers (exec (.shipExit t o tag) s) fun u =>
      svcAnswered u o 0 ∧ u.prt.ship = 2 ∧ (∀ (x : Fin 2) (j : Fin 15), (u.bead x j).awake = true) ∧ memKept s u)) ∧
  (∀ (t : Nat) (o : SvcOrigin) (tag : Word) (i : BootImage) (s : State), svcTaken s o .admin →
    (s.busyWith LongCmd.isImage = true → answers (exec (.imageStage t o tag i) s) fun u => svcRefused s u o 0x0100) ∧
    (s.busyWith LongCmd.isImage = false → answers (exec (.imageStage t o tag i) s) fun u =>
      longBegun s u o tag (.image i) 1 [.rsa, .slh] ∧ regsKeptOnly (Reg.SIG_STS :: svcRegs o) s u)) ∧
  (∀ (t : Nat) (o : SvcOrigin) (tag : Word) (s : State), svcTaken s o .admin →
    ((s.image (!s.nug.runB)).isNone = true → answers (exec (.imageActivate t o tag) s) fun u => svcRefused s u o 0x0247) ∧
    ((s.image (!s.nug.runB)).isSome = true → s.isOwner = false → s.clp.drive = false →
      answers (exec (.imageActivate t o tag) s) fun u =>
        u.nug.nextB = !s.nug.runB ∧ u.nug.nextTrial = true ∧ u.pw.base ≠ .up ∧ (∀ i : Fin 64, u.nug.sess[i] = none)) ∧
    ((s.image (!s.nug.runB)).isSome = true → s.clp.role = 4 → s.clp.drive = true → (s.at t).peerReady = true →
      s.clp.peerContest = false → s.clp.yieldDue = none → answers (exec (.imageActivate t o tag) s) fun u =>
        svcAnswered u o 0 ∧ u.nug.nextB = !s.nug.runB ∧ u.nug.nextTrial = true ∧ u.nug.restartDue = true ∧ u.pw.base = .up ∧
        u.clp.yieldDue = some (alignUp 1000000 (max s.now t + 20000)) ∧ memKept s u) ∧
    ((s.image (!s.nug.runB)).isSome = true → s.clp.drive = true → (s.at t).peerReady = false → s.bit Reg.NUG_BOOT 3 = false →
      answers (exec (.imageActivate t o tag) s) fun u => svcRefused s u o 0x0247)) ∧
  (∀ (t : Nat) (o : SvcOrigin) (tag : Word) (r : Role) (n : BitVec 256) (s : State), svcTaken s o r → r ≠ .service →
    (s.pufFail = true → answers (exec (.attest t o tag n) s) fun u => svcRefused s u o 0x0247) ∧
    (s.pufFail = false → s.trngFail = true → answers (exec (.attest t o tag n) s) fun u => svcRefused s u o 0x0101) ∧
    (s.pufFail = false → s.trngFail = false → answers (exec (.attest t o tag n) s) fun u =>
      longBegun s u o tag (.attest n) 5 [.rsa, .slh] ∧ u.nug.drbg = (s.nug.drbg + 1) % 2 ^ 20)) ∧
  (∀ (t : Nat) (o : SvcOrigin) (tag : Word) (s : State), svcTaken s o .admin →
    (s.trngFail = true → answers (exec (.lcNonce t o tag) s) fun u => svcRefused s u o 0x0101) ∧
    (s.trngFail = false → answers (exec (.lcNonce t o tag) s) fun u =>
      svcAnswered u o 0 ∧ u.nug.nonceOk = true ∧ u.reg Reg.LCS_NONCE_STAMP = max s.now t % 2 ^ 64 ∧
      (∀ k : Fin 8, u.reg (Reg.LCS_NONCE k) = Config.freeValue s.free k % 2 ^ 32) ∧ u.lc = s.lc ∧ memKept s u)) ∧
  (∀ (t : Nat) (o : SvcOrigin) (tag : Word) (a : LifeCycle) (k : List LcToken) (s : State), svcTaken s o .admin →
    ((s.at t).transCode a k ≠ 0 → answers (exec (.lcTransition t o tag a k) s) fun u =>
      svcAnswered u o ((s.at t).transCode a k) ∧ u.lc = s.lc ∧ counted s u Reg.LCS_REJ_CNT ∧ u.nug.nonceOk = !s.trngFail ∧
      memKept s u) ∧
    ((s.at t).transCode a k = 0 → answers (exec (.lcTransition t o tag a k) s) fun u =>
      u.lc = a ∧ u.fld Reg.LKT_CNT 24 8 = min 255 (s.fld Reg.LKT_CNT 24 8 + 1) ∧
      (a = .field → svcAnswered u o 0 ∧ memKept s u) ∧ (a ≠ .field → u.pw.base ≠ .up) ∧
      (s.lc = .field → u.nug.owner = none ∧ u.seq.store = [] ∧ u.arb.policy = none ∧ u.wiring = none))) ∧
  (∀ (t : Nat) (o : SvcOrigin) (tag : Word) (k : OwnerKeys) (s : State), svcTaken s o .admin → lcOwnerData s.lc = true →
    (k.wellFormed = false → answers (exec (.ownerEnroll t o tag k) s) fun u => svcRefused s u o 0x0241) ∧
    (k.wellFormed = true → s.lc = .field → (s.nug.owner = none ∨ k.signed = none) → answers (exec (.ownerEnroll t o tag k) s) fun u =>
      svcAnswered u o 0x0244 ∧ counted s u Reg.SIG_VERIFY_FAIL ∧ u.nug.owner = s.nug.owner ∧ memKept s u) ∧
    (k.wellFormed = true → (s.lc ≠ .field ∨ (s.nug.owner.isSome = true ∧ ∃ v, k.signed = some v ∧ v.rsa = true ∧ v.slh = true)) →
      answers (exec (.ownerEnroll t o tag k) s) fun u =>
        svcAnswered u o 0 ∧ u.nug.owner = some (k.rsaId, k.slhId) ∧ u.bit Reg.LKT_STS 2 = true ∧
        (∀ i : Fin 8, u.reg (Reg.LKT_OWNER_ID i) = fieldOf k.rsaId.toNat (32 * i) 32) ∧ memKept s u)) ∧
  (∀ (t : Nat) (o : SvcOrigin) (tag : Word) (s : State), svcTaken s o .admin → lcOwnerData s.lc = true →
    ((255 ≤ s.fld Reg.LKT_CNT 16 8 ∨ s.pufFail = true) → answers (exec (.hmkKeygen t o tag) s) fun u => svcRefused s u o 0x0247) ∧
    (s.fld Reg.LKT_CNT 16 8 < 255 → s.pufFail = false → s.trngFail = false → s.busyWith LongCmd.isKeygen = false →
      answers (exec (.hmkKeygen t o tag) s) fun u => longBegun s u o tag .keygen 5 [.rsa, .slh]))

/-- A notice stands in mailbox 40 (R363, log 46). -/
def noticed (u : State) (cmd : Nat) (tag : Word) (code : Nat) : Prop := u.mbx.box[(40 : Fin 64)].msg = noticeOf cmd tag code []

/-- R363, R365, R367 to R372, R376: a long command ends with its effect and its notice; Signet takes the most urgent job of an engine;
nonces and the entropy source; the boot ROM starts the selected image, else the other, else stays; a trial that is not confirmed
within 120 s is undone; CONFIRM and ACTIVATE. -/
def Obligations.LongCommandsBootImagesAndSignet : Prop :=
  (∀ (t : Nat) (j : SvcJob) (s : State), s.nugRuns = true → s.nug.jobs.find? s.longMayEnd = some j → s.mbxAdmits 40 0 = true →
    s.mbxRx 40 ≠ 4 →
    (j.cmd = .stage → s.fld Reg.SEQ_LOAD_STS 0 2 = 3 → answers (exec (.serviceCmdComplete t) s) fun u =>
      u.nug.jobs = s.nug.jobs.erase j ∧ noticed u 1 j.tag (0x0200 + s.fld Reg.SEQ_LOAD_STS 8 8) ∧ memKept s u) ∧
    (j.cmd = .stage → s.fld Reg.SEQ_LOAD_STS 0 2 ≠ 3 → answers (exec (.serviceCmdComplete t) s) fun u =>
      u.nug.jobs = s.nug.jobs.erase j ∧ noticed u 1 j.tag 0 ∧ memKept s u) ∧
    (∀ i, j.cmd = .image i → answers (exec (.serviceCmdComplete t) s) fun u =>
      u.nug.jobs = s.nug.jobs.erase j ∧ u.image s.nug.runB = s.image s.nug.runB ∧ memKept s u ∧
      (i.sig.rsa = false ∨ i.sig.slh = false → u.image (!s.nug.runB) = none ∧ counted s u Reg.SIG_VERIFY_FAIL ∧
        noticed u 0x40 j.tag 0x0244) ∧
      (i.sig.rsa = true → i.sig.slh = true → i.rollback < s.fld Reg.LKT_CNT 0 8 →
        u.image (!s.nug.runB) = none ∧ noticed u 0x40 j.tag 0x0245) ∧
      (i.sig.rsa = true → i.sig.slh = true → s.fld Reg.LKT_CNT 0 8 ≤ i.rollback → i.rollback ≤ 255 → i.size ≤ 96 * 2 ^ 20 →
        i.parts = true → i.writeOk = true →
        u.image (!s.nug.runB) = some ⟨i.rollback, i.header, i.pulse⟩ ∧ noticed u 0x40 j.tag 0)) ∧
    (∀ n, j.cmd = .attest n → s.trngFail = false → answers (exec (.serviceCmdComplete t) s) fun u =>
      u.nug.jobs = s.nug.jobs.erase j ∧ u.nug.quote.length = 320 ∧ (u.nug.quote.drop 8).take 32 = leBytes 32 n.toNat ∧
      (u.nug.quote.drop 40).take 8 = leBytes 8 (max s.now t) ∧ noticed u 0x50 j.tag 0 ∧ memKept s u) ∧
    (j.cmd = .keygen → s.trngFail = false → answers (exec (.serviceCmdComplete t) s) fun u =>
      u.nug.jobs = s.nug.jobs.erase j ∧ u.fld Reg.LKT_CNT 16 8 = min 255 (s.fld Reg.LKT_CNT 16 8 + 1) ∧ u.bit Reg.LKT_STS 3 = true ∧
      u.hmk.keyGen = min 255 (s.fld Reg.LKT_CNT 16 8 + 1) ∧ u.nug.statements.length = s.nug.statements.length + 1 ∧
      noticed u 0x63 j.tag 0 ∧ memKept s u)) ∧
  (∀ (t : Nat) (e : SigEngine) (j : SigJob) (s : State), nextJob e s.nug.sigJobs = some j →
    answers (exec (.signetJob t e) s) fun u =>
      j ∈ s.nug.sigJobs ∧ j.engine = e ∧ (∀ k ∈ s.nug.sigJobs, k.engine = e → j.prio ≤ k.prio) ∧
      u.nug.sigJobs = s.nug.sigJobs.erase j ∧ u.nug.jobs = lessWait j.tag s.nug.jobs ∧ counted s u Reg.SIG_JOBS ∧
      regsKept 0xA0 [Reg.SIG_STS, Reg.SIG_JOBS] s u ∧ memKept s u) ∧
  (∀ (t : Nat) (s : State), s.nug.nonceOk = true →
    (s.reg Reg.LCS_NONCE_STAMP + 3600000000000 ≤ max s.now t → answers (exec (.nonceExpire t) s) fun u =>
      u.nug.nonceOk = false ∧ regsKeptOnly [] s u ∧ memKept s u) ∧
    (max s.now t < s.reg Reg.LCS_NONCE_STAMP + 3600000000000 → answers (exec (.nonceExpire t) s) fun u =>
      u.nug.nonceOk = true ∧ regsKeptOnly [] s u ∧ memKept s u)) ∧
  (∀ (t : Nat) (s : State), s.basePowered = true → answers (exec (.trngHealthFail t) s) fun u =>
    u.bit Reg.SIG_STS 1 = true ∧ u.bit Reg.SIG_STS 0 = false ∧ counted s u Reg.SIG_TRNG_FAIL_CNT ∧ u.nug.jobs = s.nug.jobs ∧ regsKept 0xA0 [Reg.SIG_STS, Reg.SIG_TRNG_FAIL_CNT] s u ∧ memKept s u) ∧
  (∀ (t good : Nat) (s : State), s.trngFail = true →
    (1024 ≤ good → answers (exec (.trngRecover t good) s) fun u =>
      u.bit Reg.SIG_STS 1 = false ∧ u.bit Reg.SIG_STS 0 = true ∧ regsKeptOnly [Reg.SIG_STS] s u ∧ memKept s u) ∧
    (good < 1024 → answers (exec (.trngRecover t good) s) fun u => regsKeptOnly [] s u ∧ memKept s u)) ∧
  (∀ (t : Nat) (a b : ImgVerdict) (s : State), s.pw.base = .rom →
    let first := if s.nug.nextTrial then s.nug.nextB else s.nug.confirmedB
    let ok (x : Bool) : Bool := s.bootImgOk x (if x then b else a)
    (ok first = true → answers (exec (.bootRomVerify t a b) s) fun u =>
      u.pw.base = .up ∧ u.nug.runB = first ∧ u.bit Reg.NUG_STS 0 = true ∧
      u.bit Reg.NUG_STS 1 = s.nug.nextTrial ∧ u.bit Reg.NUG_STS 2 = first ∧ u.nug.kickAt = max s.now t ∧
      u.mbx.heldMsgs = [] ∧ u.nug.trialAt = (if s.nug.nextTrial then some (max s.now t) else none)) ∧
    (ok first = false → ok (!first) = true → answers (exec (.bootRomVerify t a b) s) fun u =>
      u.pw.base = .up ∧ u.nug.runB = !first ∧ u.nug.nextTrial = false ∧ counted s u Reg.SIG_VERIFY_FAIL) ∧
    (ok first = false → ok (!first) = false → answers (exec (.bootRomVerify t a b) s) fun u =>
      u.pw.base = .rom ∧ counted s u Reg.SIG_VERIFY_FAIL ∧ memKept s u)) ∧
  (∀ (t a : Nat) (s : State), s.nug.trialAt = some a → s.baseUp = true → s.bit Reg.NUG_STS 1 = true →
    (a + 120000000000 ≤ max s.now t → answers (exec (.trialTimeout t) s) fun u =>
      u.nug.trialAt = none ∧ u.nug.nextB = s.nug.confirmedB ∧ u.nug.nextTrial = false ∧ u.pw.base ≠ .up ∧
      counted s u Reg.NUG_REVERT_CNT ∧ posted 0xB0 u) ∧
    (max s.now t < a + 120000000000 → answers (exec (.trialTimeout t) s) fun u =>
      u.nug = s.nug ∧ u.pw = s.pw ∧ regsKeptOnly [] s u ∧ memKept s u)) ∧
  (∀ (t : Nat) (w : Writer) (s : State), admits s w Reg.NUG_BOOT 32 (8 * s.fld Reg.NUG_BOOT 3 1 + 4) = true →
    (s.bit Reg.NUG_STS 1 = true → answers (exec (.nugBootConfirm t w) s) fun u =>
      u.nug.confirmedB = s.nug.runB ∧ u.nug.nextB = s.nug.runB ∧ u.nug.trialAt = none ∧ u.bit Reg.NUG_STS 1 = false ∧
      (∀ i, s.image s.nug.runB = some i →
        u.fld Reg.LKT_CNT 0 8 = max (min 255 i.rollback) (s.fld Reg.LKT_CNT 0 8) ∧
        u.fld Reg.LKT_CNT 8 8 = max (min 255 i.rollback) (s.fld Reg.LKT_CNT 8 8)) ∧
      regsKeptW 0xB0 [Reg.NUG_BOOT, Reg.LKT_CNT] s u ∧ memKept s u) ∧
    (s.bit Reg.NUG_STS 1 = false → answers (exec (.nugBootConfirm t w) s) fun u =>
      u.nug.confirmedB = s.nug.confirmedB ∧ u.nug.nextB = s.nug.nextB ∧ regsKeptW 0xB0 [Reg.NUG_BOOT] s u ∧ memKept s u)) ∧
  (∀ (t : Nat) (w : Writer) (s : State), admits s w Reg.NUG_BOOT 32 (8 * s.fld Reg.NUG_BOOT 3 1 + 2) = true →
    ((s.image (!s.nug.runB)).isSome = true → answers (exec (.nugBootActivate t w) s) fun u =>
      u.nug.nextB = !s.nug.runB ∧ u.nug.nextTrial = true ∧ u.bit Reg.NUG_BOOT 0 = !s.nug.runB ∧
      regsKeptW 0xB0 [Reg.NUG_BOOT] s u ∧ memKept s u) ∧
    ((s.image (!s.nug.runB)).isNone = true → answers (exec (.nugBootActivate t w) s) fun u =>
      u.nug.nextB = s.nug.nextB ∧ u.nug.nextTrial = s.nug.nextTrial ∧ regsKeptW 0xB0 [Reg.NUG_BOOT] s u ∧ memKept s u))

/-! ## The journal, its Pocket, Cameos and the event recorder (R381 to R403, R448) -/

/-- R381 to R389, R393, R403: a record is queued under the next SEQ, refused, or counted; a page takes whole records in their order and
holds them once programmed; the mount numbers what follows above every record and empties the Pocket; a compaction copies
what it keeps and releases the segments before it. -/
def Obligations.TheJournalQueuesProgramsAndCompacts : Prop :=
  (∀ (t : Nat) (r : JNew) (s : State), s.baseUp = true →
    (s.jnlRefuses = true → answers (exec (.jnlRecordQueue t r) s) fun u =>
      u.jnl = s.jnl ∧ regsKeptOnly [] s u ∧ memKept s u) ∧
    (s.jnlRefuses = false → spareType r.ty = true → s.jnlCrit = true → answers (exec (.jnlRecordQueue t r) s) fun u =>
      u.jnl = s.jnl ∧ counted s u Reg.JNL_REFUSED ∧ regsKept 0xC0 [Reg.JNL_REFUSED] s u ∧ memKept s u) ∧
    (s.jnlRefuses = false → (spareType r.ty = false ∨ s.jnlCrit = false) → s.isOwner = true →
      answers (exec (.jnlRecordQueue t r) s) fun u =>
        queuedRec s u r.ty r.src r.sync r.payload ∧ u.jnl.log = s.jnl.log ∧
        regsKeptOnly [Reg.JNL_SEQ, Reg.JNL_STS, Reg.SLK_JNL_LAG] s u ∧ memKept s u) ∧
    (s.jnlRefuses = false → (spareType r.ty = false ∨ s.jnlCrit = false) → s.isOwner = false → s.slkUp = true →
      s.clp.peerValid = true → answers (exec (.jnlRecordQueue t r) s) fun u =>
        u.jnl = { s.jnl with toOwner := s.jnl.toOwner ++ [r] } ∧ regsKeptOnly [] s u ∧ memKept s u)) ∧
  (∀ (t : Nat) (s : State), s.bit Reg.JNL_STS 0 = true → s.jnl.prog = none → s.jnl.queue ≠ [] → s.jnlRoom = true →
    (1800 ≤ s.reg Reg.JNL_HOLDUP → answers (exec (.pageProgram t) s) fun u =>
      (∃ l : List JRec, u.jnl.prog = some l ∧ l ++ u.jnl.queue.map (·.item) = s.jnl.queue.map (·.item) ∧
        (l.map recSize).foldl (· + ·) 0 ≤ 16384) ∧
      u.jnl.gen = (if 4 ≤ s.jnl.pages then s.jnl.gen + 1 else s.jnl.gen) ∧ u.jnl.log = s.jnl.log ∧
      regsKeptOnly [Reg.JNL_FILL, Reg.JNL_LIVE, Reg.JNL_STS] s u ∧ memKept s u) ∧
    (s.reg Reg.JNL_HOLDUP < 1800 → answers (exec (.pageProgram t) s) fun u =>
      u.jnl = s.jnl ∧ regsKeptOnly [] s u ∧ memKept s u)) ∧
  (∀ (t us : Nat) (l : List JRec) (s : State), s.jnl.prog = some l →
    answers (exec (.pageProgramDone t us) s) fun u =>
      u.jnl.prog = none ∧ u.jnl.pages = s.jnl.pages + 1 ∧ u.jnl.log = s.jnl.log ++ l.map (fun r => (s.jnl.gen, r)) ∧
      u.reg Reg.JNL_PROG_MAX = max (s.reg Reg.JNL_PROG_MAX) us % 2 ^ 64 ∧ u.jnl.queue = s.jnl.queue ∧ memKept s u ∧
      (∀ r, l = [r] → r.copy = false → r.ty = 0x60 → u.reg Reg.JNL_CAMEO_SEQ = r.seq % 2 ^ 64 ∧ counted s u Reg.JNL_CAMEO_CNT) ∧
      (∀ r, l = [r] → r.copy = false → r.ty = 0x50 → u.reg Reg.AUD_JNL_SEQ = r.seq % 2 ^ 32) ∧
      (∀ r q, l = [r] → s.nug.acks = [⟨.uart, r.ty, r.payload, q⟩] → q ≤ r.seq → (s.at t).mirrorOn = false →
        u.nug.acks = [] ∧ u.nug.uartCode = 0) ∧
      (s.nug.acks = [] → regsKept 0xC0 [Reg.JNL_FILL, Reg.JNL_LIVE, Reg.JNL_STS, Reg.JNL_PROG_MAX, Reg.JNL_CAMEO_SEQ,
        Reg.JNL_CAMEO_CNT, Reg.AUD_JNL_SEQ] s u)) ∧
  (∀ (t bad : Nat) (s : State), s.baseUp = true → (s.bit Reg.JNL_STS 0 = false ∨ s.bit Reg.NUG_STS 3 = false) →
    answers (exec (.jnlMount t bad) s) fun u =>
      u.bit Reg.JNL_STS 0 = true ∧ u.bit Reg.NUG_STS 3 = true ∧ memKept s u ∧
      (s.bit Reg.JNL_STS 0 = false → (∀ k : Fin 4, u.jnl.pocket[k] = none) ∧ u.bit Reg.JNL_STS 3 = false ∧ u.pw.resetNew = 0 ∧
        (bad ≠ 0 → u.reg Reg.JNL_CRC_ERR = min (s.reg Reg.JNL_CRC_ERR + bad) (2 ^ 32 - 1)) ∧
        (0 < s.topSeq → s.topSeq + s.jnl.queue.length + s.pw.resetLog.length + 1 < 2 ^ 64 →
          ∀ x ∈ s.jnl.log, x.2.seq < u.reg Reg.JNL_SEQ)) ∧
      (s.arb.policy = none → s.arb.pendingPolicy = none → ∀ r, s.bit Reg.JNL_STS 0 = true → newestOf 0x10 s.jnlRecs = some r →
        u.arb.policy = some r.payload)) ∧
  (∀ (t : Nat) (s : State), s.bit Reg.JNL_STS 0 = true → s.jnl.compact = none → s.jnl.prog = none →
    ((s.jnl.compactReq = true ∨ s.reg Reg.JNL_COMPACT_AT * 4096 ≤ s.jnlLive * 1000) →
      answers (exec (.compactionStart t) s) fun u =>
        u.jnl.compact = some (s.reg Reg.JNL_SEQ, s.jnl.gen + 1) ∧ u.bit Reg.JNL_STS 1 = true ∧ u.jnl.compactReq = false ∧
        u.jnl.pages = 4 ∧ u.jnl.log = s.jnl.log ∧
        (∀ e ∈ u.jnl.queue, e ∈ s.jnl.queue ∨ (e.item.copy = true ∧ e.item.seq < s.reg Reg.JNL_SEQ)) ∧
        (∀ e ∈ s.jnl.queue, e ∈ u.jnl.queue) ∧ regsKeptOnly [Reg.JNL_STS] s u ∧ memKept s u) ∧
    (s.jnl.compactReq = false → s.jnlLive * 1000 < s.reg Reg.JNL_COMPACT_AT * 4096 →
      answers (exec (.compactionStart t) s) fun u => u.jnl = s.jnl ∧ regsKeptOnly [] s u ∧ memKept s u)) ∧
  (∀ (t c g : Nat) (s : State), s.jnl.compact = some (c, g) →
    (s.jnl.prog = none → (∀ e ∈ s.jnl.queue, e.item.copy = false) → answers (exec (.compactionCommit t) s) fun u =>
      u.jnl = { s.jnl with compact := none, first := g, log := s.jnl.log.filter (fun x => g ≤ x.1) } ∧
      u.bit Reg.JNL_STS 1 = false ∧ counted s u Reg.JNL_COMPACT_CNT ∧
      regsKept 0xC0 [Reg.JNL_STS, Reg.JNL_COMPACT_CNT, Reg.JNL_FILL, Reg.JNL_LIVE] s u ∧ memKept s u) ∧
    ((∃ e ∈ s.jnl.queue, e.item.copy = true) → answers (exec (.compactionCommit t) s) fun u =>
      u.jnl = s.jnl ∧ regsKeptOnly [] s u ∧ memKept s u)) ∧
  (∀ (t : Nat) (w : Writer) (s : State), admits s w Reg.JNL_CTL 32 (s.reg Reg.JNL_CTL % 2 + 2) = true →
    answers (exec (.jnlCtlCompact t w) s) fun u =>
      u.jnl = (if s.bit Reg.JNL_STS 1 then s.jnl else { s.jnl with compactReq := true }) ∧
      u.bit Reg.JNL_CTL 0 = s.bit Reg.JNL_CTL 0 ∧ regsKeptW 0xC0 [Reg.JNL_CTL] s u ∧ memKept s u) ∧
  (∀ (t : Nat) (w : Writer) (on : Bool) (s : State), admits s w Reg.JNL_CTL 32 (b2n on) = true →
    answers (exec (.jnlCtlEnable t w on) s) fun u =>
      u.jnl = s.jnl ∧ u.bit Reg.JNL_CTL 0 = on ∧ (on = false → u.jnlRefuses = true) ∧ regsKeptW 0xC0 [Reg.JNL_CTL] s u ∧
      memKept s u)

/-- R39, R390 to R392, R395, R396, R399 to R402: a brown-out drops what may be dropped and keeps the rest; a record without the time for a
page goes to its Pocket slot or is counted lost; the audit ring is copied; a Cameo is journalled or its omission counted; the
recorder's sets become records each second, and minutes and hours are derived from them. -/
def Obligations.BrownoutsCopiesCameosAndRecords : Prop :=
  (∀ (t holdUs : Nat) (s : State), s.pw.kaOk = false → s.pw.mainOk = false →
    answers (exec (.brownout t holdUs) s) fun u =>
      u.reg Reg.JNL_HOLDUP = min holdUs (2 ^ 32 - 1) ∧
      (∀ e ∈ u.jnl.queue, e.item.ty ≠ 0x08 ∧ e.item.ty ≠ 0x70 ∧ e.item.ty ≠ 0x50) ∧
      (∀ e ∈ s.jnl.queue, e.item.ty ≠ 0x08 → e.item.ty ≠ 0x70 → e.item.ty ≠ 0x50 → e ∈ u.jnl.queue) ∧
      (s.bit Reg.EVT_CTL 0 = true → s.isOwner = true → s.jnlRefuses = false →
        ∃ e : JEnt, u.jnl.queue.getLast? = some e ∧ e.item.ty = 0x51 ∧ e.item.src = 0xC0 ∧ e.item.payload.length = 32) ∧
      (let n := (s.jnl.queue.filter (fun e => e.item.ty = 0x08 || e.item.ty = 0x70 || e.item.ty = 0x50)).length
       n ≠ 0 → u.reg Reg.JNL_REFUSED = min (s.reg Reg.JNL_REFUSED + n) (2 ^ 32 - 1)) ∧ memKept s u) ∧
  (∀ (t holdUs : Nat) (s : State), (s.pw.kaOk = true ∨ s.pw.mainOk = true) →
    ∀ k ∈ [Instr.brownout t holdUs, .pocketDivert t holdUs], answers (exec k s) fun u =>
      u.jnl = s.jnl ∧ regsKeptOnly [] s u ∧ memKept s u) ∧
  (∀ (t holdUs : Nat) (e : JEnt) (rest : List JEnt) (s : State), s.pw.kaOk = false → s.pw.mainOk = false → holdUs < 1800 →
    s.jnl.queue = e :: rest →
    (∀ k, pocketSlot e.item = some k → 500 ≤ holdUs → answers (exec (.pocketDivert t holdUs) s) fun u =>
      u.jnl = { s.jnl with queue := rest, pocket := s.jnl.pocket.set k (some e.item) } ∧ counted s u Reg.JNL_POCKET_CNT ∧
      u.bit Reg.JNL_STS 3 = true ∧ u.reg Reg.JNL_HOLDUP = holdUs ∧
      regsKept 0xC0 [Reg.JNL_POCKET_CNT, Reg.JNL_STS, Reg.JNL_HOLDUP] s u ∧ memKept s u) ∧
    ((pocketSlot e.item = none ∨ holdUs < 500) → answers (exec (.pocketDivert t holdUs) s) fun u =>
      u.jnl = { s.jnl with queue := rest } ∧ counted s u Reg.JNL_POCKET_LOST ∧
      regsKept 0xC0 [Reg.JNL_POCKET_LOST, Reg.JNL_HOLDUP] s u ∧ memKept s u)) ∧
  (∀ (t : Nat) (s : State), s.baseUp = true → 0 < s.aud.sinceCopy → s.aud.sinceCopy ≤ 511 → s.aud.ring ≠ [] →
    s.jnlRefuses = false → s.jnlCrit = false → s.isOwner = true →
    answers (exec (.auditJournalCopy t) s) fun u =>
      u.aud = { s.aud with sinceCopy := 0 } ∧
      queuedRec s u 0x50 0x7000 false ((lastN s.aud.sinceCopy s.aud.ring).map audBytes).flatten ∧
      regsKeptOnly [Reg.JNL_SEQ, Reg.JNL_STS, Reg.SLK_JNL_LAG] s u ∧ memKept s u) ∧
  (∀ (t : Nat) (complete : Bool) (c : CameoSt) (s : State), max s.now t / 1000000 % 10000 = 0 → 50 ≤ max s.now t / 10000 % 100 →
    s.baseUp = true → s.bit Reg.JNL_STS 6 = false → s.jnl.snap = some c →
    ((complete = false ∨ s.jnl.spoilt = true ∨ c.frame ≠ max s.now t / 1000000 ∨ s.blk 0x10 ≠ stRunning) →
      answers (exec (.cameoCapture t complete) s) fun u =>
        u.jnl = { s.jnl with snap := none } ∧ counted s u Reg.JNL_CAMEO_SKIP ∧ regsKept 0xC0 [Reg.JNL_CAMEO_SKIP] s u ∧
        memKept s u) ∧
    (∀ p, complete = true → s.jnl.spoilt = false → c.frame = max s.now t / 1000000 → s.blk 0x10 = stRunning →
      s.runningPat = some p → p.id.toNat = c.pattern → s.actBank.variant = c.variant → s.jnlCrit = false → s.jnlRefuses = false →
      s.isOwner = true → answers (exec (.cameoCapture t complete) s) fun u =>
        (∃ e : JEnt, u.jnl.queue.getLast? = some e ∧ e.item.ty = 0x60 ∧ e.item.sync = true ∧
          e.item.payload = s.commitPayload (s.bytes stagingAddr c.data.length) (cameoExtra c)) ∧
        u.jnl.snap = none ∧ u.reg Reg.JNL_CAMEO_SKIP = s.reg Reg.JNL_CAMEO_SKIP ∧ memKept s u)) ∧
  (∀ (t : Nat) (s : State), s.bit Reg.EVR_CTL 0 = true → s.baseUp = true → s.blk 0x10 = stRunning → 1000000000 ≤ max s.now t →
    let start := max s.now t / 1000000000 * 1000000000 - 1000000000
    ((s.reg Reg.EVR_LAST_1S = 0 ∨ s.reg Reg.EVR_LAST_1S < start) → answers (exec (.recorder1s t) s) fun u =>
      u.reg Reg.EVR_LAST_1S = start % 2 ^ 64 ∧ u.bit Reg.EVR_STS 0 = true ∧
      (∀ c, c < 54 → ∃ r ∈ u.jnl.evr, r.interval = 0 ∧ r.channel = c ∧ r.start = start ∧
        ∀ h, sparseFind s.eng.hst c = some h → r.count = h.count ∧ r.nan = h.nan ∧ r.bins = h.bins) ∧
      (∀ x ∈ u.eng.hst, 54 ≤ x.1) ∧ memKept s u) ∧
    (s.reg Reg.EVR_LAST_1S ≠ 0 → start < s.reg Reg.EVR_LAST_1S + 1 → answers (exec (.recorder1s t) s) fun u =>
      u.jnl = s.jnl ∧ u.eng = s.eng ∧ regsKeptOnly [] s u ∧ memKept s u) ∧
    (s.reg Reg.EVR_LAST_1S ≠ 0 → s.reg Reg.EVR_LAST_1S + 2000000000 ≤ start → answers (exec (.recorder1s t) s) fun u =>
      u.bit Reg.EVR_STS 1 = true ∧
      u.reg Reg.EVR_GAP_CNT = min (s.reg Reg.EVR_GAP_CNT + ((start - s.reg Reg.EVR_LAST_1S) / 1000000000 - 1)) (2 ^ 32 - 1))) ∧
  (∀ (t : Nat) (s : State), s.bit Reg.EVR_CTL 0 = true → s.baseUp = true → 120 ≤ s.reg Reg.EVR_RET_1M →
    (60000000000 ≤ max s.now t → let start := max s.now t / 60000000000 * 60000000000 - 60000000000
      (∀ r ∈ s.jnl.evr, r.interval = 1 → r.start ≠ start) → answers (exec (.recorderDerive t) s) fun u =>
        (∀ r ∈ deriveEvr s.jnl.evr 1 start, r ∈ u.jnl.evr) ∧ memKept s u) ∧
    (3600000000000 ≤ max s.now t → let start := max s.now t / 3600000000000 * 3600000000000 - 3600000000000
      ∀ r ∈ s.jnl.evr, r.interval = 1 → r.channel < 54 → start ≤ r.start → r.start < start + 3600000000000 →
        (∀ q ∈ s.jnl.evr, q.interval = 2 → q.start ≠ start) → answers (exec (.recorderDerive t) s) fun u =>
          ∃ q ∈ u.jnl.evr, q.interval = 2 ∧ q.channel = r.channel ∧ q.start = start))

/-! ## Power, cooling, resets and Seams (R404 to R420, R425, R446, R450) -/

/-- A reset stands newest in RESET_LOG and is shown in LIN_RST_CAUSE (R406, R416). -/
def loggedReset (u : State) (kind detail : Nat) : Prop :=
  (∃ r : ResetRec, u.pw.resetLog.getLast? = some r ∧ r.kind = kind ∧ r.detail = detail ∧ r.stamp.toNat = u.now % 2 ^ 64) ∧
  u.reg Reg.LIN_RST_CAUSE = kind + 256 * detail

/-- The registers that show the power record. -/
def showRegs : List Nat := [Reg.LIN_STS, Reg.PWR_STS]

/-- The die that starts again is the pulse die: it is powered, its firmware is not yet verified, and Clasp is at its reset (R415). -/
def pulseRestarted (u : State) (kind detail : Nat) : Prop :=
  u.pw.pulse = .powered ∧ u.clp = State.reset.clp ∧ loggedReset u kind detail

/-- The base die is down with its memory, its sessions and the stacks' power (R415). -/
def baseLost (u : State) : Prop :=
  u.pw.base = .off ∧ u.mem = [] ∧ (∀ i : Fin 64, u.nug.sess[i] = none) ∧ u.seq.body.active = false

/-- R404 to R409, R411, R425: the supplies are judged by their bounds and times; the dies start one after the other; a standby and a
parked module power down; each wake source wakes where its enable is set; the owner is never parked or reset by LIN_CTL. -/
def Obligations.SuppliesStartsParkAndWake : Prop :=
  (∀ (t hold : Nat) (v : F32) (ok : Bool) (s : State), s.pw.kaOk = false → withinCv v 930 1400 = true →
    (10000000 ≤ hold → answers (exec (.keepaliveInRange t v hold ok) s) fun u =>
      u.pw.kaOk = true ∧ u.pw.linUp = true ∧ u.reg Reg.LIN_VKA = v.toNat ∧ u.bit Reg.LIN_STS 4 = true ∧ u.pw.pulse = s.pw.pulse ∧
      (s.pw.linUp = true → regsKeptOnly (Reg.LIN_VKA :: showRegs) s u) ∧
      (s.pw.linUp = false → u.pw.pocketOk = ok ∧ loggedReset u (if ok then 1 else 0) 0 ∧
        (ok = false → u.time.rtcValid = false) ∧ (ok = true → u.time = s.time)) ∧ memKept s u) ∧
    (hold < 10000000 → answers (exec (.keepaliveInRange t v hold ok) s) fun u =>
      u.pw = s.pw ∧ regsKeptOnly [] s u ∧ memKept s u)) ∧
  (∀ (t hold : Nat) (v : F32) (s : State), s.pw.kaOk = true → (f32 v.toNat).lt (Fv.ofNat 9) = true →
    (20000 ≤ hold → answers (exec (.keepaliveLoss t v hold) s) fun u =>
      u.pw.kaOk = false ∧ u.pw.lastRole = s.clp.role ∧ u.pw.onHoldup = !s.pw.mainOk ∧ u.reg Reg.LIN_VKA = v.toNat ∧
      (s.clp.role = 4 → (s.at t).peerStandby = true → s.clp.peerContest = false → s.clp.yieldDue = none → s.bit Reg.CLP_CTL 1 = true →
        u.clp.yieldDue = some (alignUp 1000000 (max s.now t + 20000)) ∧ u.clp.yieldCause = 3) ∧
      (s.clp.role ≠ 4 → u.clp = s.clp) ∧ regsKeptOnly (Reg.LIN_VKA :: showRegs) s u ∧ memKept s u) ∧
    (hold < 20000 → answers (exec (.keepaliveLoss t v hold) s) fun u => u.pw = s.pw ∧ regsKeptOnly [] s u ∧ memKept s u)) ∧
  (∀ (t hold : Nat) (v : F32) (s : State), s.pw.mainOk = false → withinCv v 1100 1300 = true → 10000000 ≤ hold →
    answers (exec (.mainInRange t v hold) s) fun u =>
      u.pw.mainOk = true ∧ u.pw.island = true ∧ u.pw.baseReady = max s.now t ∧ u.pw.base = s.pw.base ∧ u.reg Reg.LIN_VMAIN = v.toNat ∧
      (s.pw.standby = true → s.bit Reg.LIN_WAKE_EN 0 = true → u.pw.wakeReq = true) ∧
      regsKeptOnly (Reg.LIN_VMAIN :: Reg.LIN_WAKE_SRC :: showRegs) s u ∧ memKept s u) ∧
  (∀ (t hold : Nat) (v : F32) (s : State),
    (s.pw.mainOk = true → withinCv v 1080 1320 = false → 20000 ≤ hold → answers (exec (.mainLoss t v hold) s) fun u =>
      u.pw.mainOk = false ∧ u.pw.island = false ∧ u.pw.base = .off ∧ u.slkUp = false ∧ u.pw.pulse = s.pw.pulse ∧
      u.reg Reg.LIN_VMAIN = v.toNat ∧ (s.basePowered = true → baseLost u ∧ loggedReset u 3 0)) ∧
    (s.pw.pwrGood = true → s.pulseUp = true → s.dinActive 2 = false → s.basePowered = true →
      answers (exec (.mainLoss t v hold) s) fun u => u.pw.pwrGood = false ∧ baseLost u ∧ loggedReset u 3 0) ∧
    (s.pw.mainOk = true → withinCv v 1080 1320 = true → s.dinActive 2 = true → answers (exec (.mainLoss t v hold) s) fun u =>
      u.pw = s.pw ∧ regsKeptOnly [] s u ∧ memKept s u)) ∧
  (∀ (t k : Nat) (level : Bool) (s : State), s.pw.linUp = true → s.pw.pulse = .off → s.pw.parked = false → s.pw.pdFailed = false →
    answers (exec (.pulseDiePowerUp t level k) s) fun u =>
      u.pw.pulse = .powered ∧ u.slotB = (if s.pw.slotKnown then s.slotB else level || decide (2 < k)) ∧ u.pw.slotKnown = true ∧
      u.reg Reg.CLP_LISTEN = (if u.slotB then 50 else 1) ∧ regsKeptOnly (Reg.CLP_LISTEN :: Reg.DIN_STS 0 :: showRegs) s u ∧
      memKept s u) ∧
  (∀ (t : Nat) (a b : ImgVerdict) (s : State), s.pw.pulse = .powered →
    let ok (x : Bool) : Bool := s.pulseImgOk x (if x then b else a)
    (∀ x, (ok s.nug.pulseB = true ∧ x = s.nug.pulseB) ∨ (ok s.nug.pulseB = false ∧ ok (!s.nug.pulseB) = true ∧ x = !s.nug.pulseB) →
      answers (exec (.pulseFwVerified t a b) s) fun u =>
        u.pw.pulse = .up ∧ u.nug.pulseB = x ∧ u.clp.role = 1 ∧ u.clp.listenAt = some (max s.now t) ∧
        u.time.tstate = (if s.time.rtcValid then .rtc else .unset) ∧ u.bit Reg.LIN_PD_IMG 0 = x) ∧
    (ok true = false → ok false = false → answers (exec (.pulseFwVerified t a b) s) fun u =>
      u.pw.pulse = .off ∧ u.pw.pdFailed = true ∧ u.clp = s.clp ∧ regsKeptOnly showRegs s u ∧ memKept s u)) ∧
  (∀ (t : Nat) (s : State),
    ((s.at t).baseMayStart = true → answers (exec (.baseDiePowerUp t) s) fun u =>
      u.pw.base = .rom ∧ u.pw.standby = false ∧ u.pw.wakeReq = false ∧ u.reg Reg.NUG_BOOT_STAMP = max s.now t % 2 ^ 64 ∧
      regsKept 0x111 (Reg.NUG_BOOT_STAMP :: Reg.LIN_WAKE_SRC :: showRegs) s u ∧ memKept s u) ∧
    ((s.at t).baseMayStart = false → answers (exec (.baseDiePowerUp t) s) fun u =>
      u.pw = s.pw ∧ regsKeptOnly [] s u ∧ memKept s u)) ∧
  (∀ (t : Nat) (s : State), s.clp.role = 1 → s.clp.peerValid = true → s.baseUp = true → s.bit Reg.JNL_STS 0 = true →
    s.bit Reg.NUG_STS 3 = true → s.lc ≠ .void → answers (exec (.standbyEntry t) s) fun u =>
      baseLost u ∧ u.pw.standby = true ∧ u.pw.island = true ∧ u.pw.pulse = s.pw.pulse ∧ u.clp = s.clp ∧
      u.jnl.queue = s.jnl.queue ∧ u.jnl.log = s.jnl.log ∧ (s.pulseUp = true → u.fld Reg.LIN_STS 8 2 = 1)) ∧
  (∀ (t : Nat) (s : State), s.pw.linUp = true → answers (exec (.crystalFail t) s) fun u =>
    u.time.rtcValid = false ∧ u.pw.lxtFail = true ∧ u.bit Reg.LIN_STS 2 = true ∧ regsKeptOnly showRegs s u ∧ memKept s u) ∧
  (∀ (t : Nat) (w : Writer) (s : State), admits s w Reg.LIN_CTL 32 1 = true →
    (s.isOwner = false → s.clp.drive = false → answers (exec (.linPark t w) s) fun u =>
      u.pw.parked = true ∧ u.pw.pulse = .off ∧ u.pw.base = .off ∧ u.pw.linUp = s.pw.linUp) ∧
    (s.isOwner = true ∨ s.clp.drive = true → answers (exec (.linPark t w) s) fun u =>
      u.pw.parked = s.pw.parked ∧ u.pw.pulse = s.pw.pulse ∧ u.pw.base = s.pw.base ∧ u.bit (Reg.IRQ_STS 0x112) 4 = true ∧
      regsKeptW 0x112 [] s u ∧ memKept s u)) ∧
  (∀ (t : Nat) (w : Writer) (s : State), admits s w Reg.LIN_CTL 32 8 = true →
    (w.path = .lining → s.pw.parked = true → answers (exec (.linUnpark t w) s) fun u =>
      u.pw.parked = false ∧ u.pw.pulse = s.pw.pulse ∧ regsKeptW 0x112 (Reg.LIN_CTL :: showRegs) s u ∧ memKept s u) ∧
    (w.path ≠ .lining → answers (exec (.linUnpark t w) s) fun u =>
      u.pw.parked = s.pw.parked ∧ u.bit (Reg.IRQ_STS 0x112) 4 = true ∧ regsKeptW 0x112 [] s u ∧ memKept s u)) ∧
  (∀ (t : Nat) (s : State), s.pw.linUp = true →
    (s.pw.parked = true → answers (exec (.uartBreak t) s) fun u =>
      u.pw.parked = false ∧ u.pw.wakeReq = s.pw.wakeReq ∧ regsKeptOnly showRegs s u ∧ memKept s u) ∧
    (s.pw.parked = false → s.bit Reg.LIN_WAKE_EN 4 = true → s.basePowered = false → answers (exec (.uartBreak t) s) fun u =>
      u.pw.wakeReq = true ∧ u.bit Reg.LIN_WAKE_SRC 4 = true ∧ regsKeptOnly [Reg.LIN_WAKE_SRC] s u ∧ memKept s u) ∧
    (s.pw.parked = false → (s.bit Reg.LIN_WAKE_EN 4 = false ∨ s.basePowered = true) → answers (exec (.uartBreak t) s) fun u =>
      u.pw = s.pw ∧ regsKeptOnly [] s u ∧ memKept s u)) ∧
  (∀ (t : Nat) (w : Writer) (s : State), admits s w Reg.LIN_CTL 32 2 = true →
    (s.isOwner = false → s.clp.drive = false → s.pulseUp = true → answers (exec (.linPdReset t w) s) fun u =>
      pulseRestarted u 2 1 ∧ u.pw.base = s.pw.base ∧ memKept s u) ∧
    (s.isOwner = true ∨ s.clp.drive = true → answers (exec (.linPdReset t w) s) fun u =>
      u.pw.pulse = s.pw.pulse ∧ u.bit (Reg.IRQ_STS 0x112) 4 = true ∧ regsKeptW 0x112 [] s u ∧ memKept s u)) ∧
  (∀ (t : Nat) (w : Writer) (s : State), admits s w Reg.LIN_CTL 32 4 = true →
    (s.bit Reg.LIN_WAKE_EN 3 = true → s.basePowered = false → answers (exec (.linBaseWake t w) s) fun u =>
      u.pw.wakeReq = true ∧ u.bit Reg.LIN_WAKE_SRC 3 = true ∧ regsKeptW 0x112 [Reg.LIN_CTL, Reg.LIN_WAKE_SRC] s u ∧ memKept s u) ∧
    (s.bit Reg.LIN_WAKE_EN 3 = false ∨ s.basePowered = true → answers (exec (.linBaseWake t w) s) fun u =>
      u.pw.wakeReq = s.pw.wakeReq ∧ regsKeptW 0x112 [Reg.LIN_CTL] s u ∧ memKept s u))

/-- R412, R414 to R416, R419, R420, R446, R450: AIR is entered on its causes and left after its minute; stacks wake; each reset reaches what its row
names and is logged; the Seam flushes on the order code it belongs to. -/
def Obligations.CoolingResetsAndSeams : Prop :=
  (∀ (t : Nat) (c : TempIn) (s : State), s.pulseUp = true →
    ((!s.dinActive 1 || hotDie c 0 || hotDimm c 0) = true → answers (exec (.coolingAirEntry t c) s) fun u =>
      u.pw.air = true ∧ u.pw.causeFlow = (s.pw.causeFlow || !s.dinActive 1) ∧ u.pw.causeDie = (s.pw.causeDie || hotDie c 0) ∧
      u.pw.causeDimm = (s.pw.causeDimm || hotDimm c 0) ∧
      (s.basePowered = true → s.pw.air = false → s.bit Reg.FR_CTL 0 = true → u.frAir = true ∧
        ∀ k ∈ [2, 3], s.bit (Reg.DDC_STS k) 2 = true → u.bit (Reg.DDC_STS k) 3 = true)) ∧
    ((!s.dinActive 1 || hotDie c 0 || hotDimm c 0) = false → answers (exec (.coolingAirEntry t c) s) fun u =>
      u.pw = s.pw ∧ regsKeptOnly (Reg.PWR_TEMP_BASE :: Reg.PWR_TEMP_PULSE :: (List.range 4).map Reg.PWR_TEMP_CD) s u ∧
      memKept s u)) ∧
  (∀ (t a hold : Nat) (c : TempIn) (s : State), s.pw.air = true → s.dinActive 1 = true → sparseFind s.din.since 1 = some a →
    a + 60000000000 ≤ max s.now t → hotDie c 10 = false → hotDimm c 10 = false → 60000000000 ≤ hold →
    (s.bit Reg.PWR_CTL 0 = false → answers (exec (.coolingLiquidReturn t c hold) s) fun u =>
      u.pw.air = false ∧ u.pw.causeFlow = false ∧ u.pw.causeDie = false ∧ u.pw.causeDimm = false ∧
      (∀ d : Fin 4, s.pw.stack[d] = .retention → u.pw.stack[d] = .on) ∧
      (∀ d : Fin 4, s.pw.stack[d] ≠ .retention → u.pw.stack[d] = s.pw.stack[d])) ∧
    (s.bit Reg.PWR_CTL 0 = true → answers (exec (.coolingLiquidReturn t c hold) s) fun u => u.pw = s.pw ∧ memKept s u)) ∧
  (∀ (t : Nat) (w : Writer) (v : Word) (s : State), admits s w Reg.PWR_CTL 32 v.toNat = true →
    answers (exec (.pwrForceAir t w v) s) fun u =>
      u.bit Reg.PWR_CTL 0 = bitOf v.toNat 0 ∧ (bitOf v.toNat 0 = true → u.pw.air = true) ∧
      (bitOf v.toNat 0 = false → u.pw.air = s.pw.air ∧ regsKeptW 0x5 (Reg.PWR_CTL :: showRegs) s u ∧ memKept s u)) ∧
  (∀ (t : Nat) (d : Fin 4) (s : State),
    (s.pw.stack[d] = .retention → answers (exec (.stackWake t d) s) fun u =>
      u.pw.stack[d] = .on ∧ (∀ e : Fin 4, e ≠ d → u.pw.stack[e] = s.pw.stack[e]) ∧ regsKeptOnly showRegs s u ∧ memKept s u) ∧
    (s.pw.stack[d] ≠ .retention → answers (exec (.stackWake t d) s) fun u =>
      u.pw = s.pw ∧ regsKeptOnly [] s u ∧ memKept s u)) ∧
  (∀ (t : Nat) (d : Fin 4) (s : State), pagePresent s.fx (0x30 + d.val) = true → s.basePowered = true → s.stackFailed d = false →
    answers (exec (.computeDieOvertemp t d) s) fun u => u.stackFailed d = true ∧ u.bit (Reg.VEC_STS d) 0 = true) ∧
  (∀ (t : Nat) (s : State), s.pw.linUp = true →
    (answers (exec (.liningReset t true) s) fun u =>
      u.pw.linUp = true ∧ u.pw.parked = false ∧ u.pw.pulse = .off ∧ u.pw.base = .off ∧
      loggedReset u (if s.pw.pocketOk then 1 else 0) 0) ∧
    (s.pw.kaOk = false → answers (exec (.liningReset t false) s) fun u =>
      u.pw.linUp = false ∧ u.pw.pulse = .off ∧ u.pw.base = .off) ∧
    (s.pw.kaOk = true → answers (exec (.liningReset t false) s) fun u =>
      u.pw = s.pw ∧ regsKeptOnly [] s u ∧ memKept s u)) ∧
  (∀ (t quiet : Nat) (s : State), s.pulseUp = true →
    (1000000 ≤ quiet → answers (exec (.pulseDieWatchdog t quiet) s) fun u =>
      pulseRestarted u 2 0 ∧ u.pw.base = s.pw.base ∧ memKept s u) ∧
    (quiet < 1000000 → answers (exec (.pulseDieWatchdog t quiet) s) fun u =>
      u.pw = s.pw ∧ u.clp = s.clp ∧ regsKeptOnly [] s u ∧ memKept s u)) ∧
  (∀ (t : Nat) (k : BaseCause) (s : State), s.basePowered = true →
    answers (exec (.baseDieReset t k) s) fun u =>
      loggedReset u 3 (baseDetail k) ∧ u.mem = [] ∧ (∀ i : Fin 64, u.nug.sess[i] = none) ∧ u.pw.pulse = s.pw.pulse ∧
      (k = .mainLost → u.pw.base = .off) ∧ (k = .overTemp → u.pw.base = .off ∧ u.pw.base115 = true) ∧
      (k ≠ .mainLost → k ≠ .overTemp → u.pw.base = if s.pw.mainOk && s.pw.pwrGood then .rom else .off)) ∧
  (∀ (t : Nat) (w : Writer) (v : Word) (s : State), admits s w Reg.GLB_RESET 32 v.toNat = true →
    (v.toNat = 0xC3A5 → answers (exec (.glbReset t w v) s) fun u =>
      u.pw.glbResetAt = some (max s.now t) ∧ u.pw.base = s.pw.base ∧ regsKeptW 0 [Reg.GLB_RESET] s u ∧ memKept s u) ∧
    (v.toNat ≠ 0xC3A5 → answers (exec (.glbReset t w v) s) fun u =>
      u.pw.glbResetAt = s.pw.glbResetAt ∧ u.bit (Reg.IRQ_STS 0) 4 = true ∧ regsKeptW 0 [] s u ∧ memKept s u)) ∧
  (∀ (t : Nat) (side : Bool) (s : State), s.pulseUp = true →
    (s.fx.full = false → s.basePowered = true → answers (exec (.seamRecoverHandshake t side) s) fun u =>
      u.eng.refOut = none ∧ u.eng.planOut = [] ∧ counted s u Reg.LIN_SEAM_CNT ∧
      regsKept 0x112 [Reg.LIN_SEAM_CNT] s u ∧ memKept s u) ∧
    (s.fx.full = true → answers (exec (.seamRecoverHandshake t side) s) fun u =>
      u.eng = s.eng ∧ u.mbx = s.mbx ∧ regsKeptOnly [] s u ∧ memKept s u) ∧
    (s.fx.full = true → answers (exec (.seamRecoverIndication t side true) s) fun u =>
      u.eng.refOut = none ∧ u.eng.planOut = [] ∧ u.mbx.heldMsgs = [] ∧ u.pw.seamHeld = true ∧ regsKeptOnly [] s u ∧ memKept s u) ∧
    (s.fx.full = true → s.pw.seamHeld = true → answers (exec (.seamRecoverIndication t side false) s) fun u =>
      u.pw.seamHeld = false ∧ counted s u Reg.LIN_SEAM_CNT ∧ regsKept 0x112 [Reg.LIN_SEAM_CNT] s u ∧ memKept s u))

/-! ## Discrete inputs, blocks, events and the front panel (R69, R72, R421 to R426, R434 to R445, R448, R453, R456) -/

/-- An input has entered a mode (R423, R424): shown, counted and posted, and its value in use is the safe one, where it has one. -/
def modeEntered (s u : State) (n : Fin 88) (mode : Nat) : Prop :=
  u.dinMode n = mode ∧ u.bit (Reg.DIN_STS n) 2 = (safeActive n).getD (s.bit (Reg.DIN_STS n) 1) ∧ counted s u Reg.DIN_MODE_CNT ∧
  posted 0x113 u ∧ memKept s u

/-- R421 to R426: edges of 20 ns count and too many enter CHATTER; a level held for the deglitch time becomes the filtered value; an
input active beyond its timeout enters STUCK; both are left by DIN_CLR once their cause is gone, and PWR_GOOD's CHATTER after 10 s. -/
def Obligations.InputsAreFilteredAndJudged : Prop :=
  (∀ (t width : Nat) (n : Fin 88) (level : Bool) (s : State), s.pulseUp = true →
    (width < 20 → answers (exec (.dinEdge t n level width) s) fun u =>
      u.bit (Reg.DIN_STS n) 0 = level ∧ u.din = s.din ∧ regsKeptOnly [Reg.DIN_STS n] s u ∧ memKept s u) ∧
    (20 ≤ width → (s.dinMode n ≠ 0 ∨ s.bit (Reg.DIN_CFG n) 14 = false ∨
        ((s.at t).dinEdges n).length + 1 ≤ s.reg Reg.DIN_CHAT_EDGES) → answers (exec (.dinEdge t n level width) s) fun u =>
      u.bit (Reg.DIN_STS n) 0 = level ∧ u.fld (Reg.DIN_STS n) 8 8 = min 255 (((s.at t).dinEdges n).length + 1) ∧
      sparseFind u.din.last n = some (max s.now t) ∧ u.dinMode n = s.dinMode n ∧
      regsKeptOnly [Reg.DIN_STS n] s u ∧ memKept s u) ∧
    (20 ≤ width → s.dinMode n = 0 → s.bit (Reg.DIN_CFG n) 14 = true →
      s.reg Reg.DIN_CHAT_EDGES < ((s.at t).dinEdges n).length + 1 → answers (exec (.dinEdge t n level width) s) fun u =>
        modeEntered s u n 1 ∧ u.bit (Reg.DIN_CHATTER (n / 32)) (n % 32) = true)) ∧
  (∀ (t hold : Nat) (n : Fin 88) (level : Bool) (s : State), s.pulseUp = true → n.val ≠ 0 →
    let act : Bool := level == activeHigh n
    (100 * s.fld (Reg.DIN_CFG n) 0 14 ≤ hold → s.bit (Reg.DIN_STS n) 1 ≠ act →
      answers (exec (.dinFilteredChange t n level hold) s) fun u =>
        u.bit (Reg.DIN_STS n) 0 = level ∧ u.bit (Reg.DIN_STS n) 1 = act ∧ (s.dinMode n = 0 → u.bit (Reg.DIN_STS n) 2 = act) ∧
        sparseFind u.din.since n = (if act then some (max s.now t) else none) ∧
        (n.val < 56 → regsKeptOnly (Reg.DIN_STS n :: showRegs) s u) ∧ memKept s u) ∧
    (hold < 100 * s.fld (Reg.DIN_CFG n) 0 14 → answers (exec (.dinFilteredChange t n level hold) s) fun u =>
      u.din = s.din ∧ regsKeptOnly [] s u ∧ memKept s u)) ∧
  (∀ (t a : Nat) (n : Fin 88) (s : State), sparseFind s.din.since n = some a → s.pulseUp = true → s.dinMode n = 0 →
    (s.fld (Reg.DIN_CFG n) 16 16 ≠ 0 → a + s.fld (Reg.DIN_CFG n) 16 16 * 1000000 < max s.now t →
      answers (exec (.dinStuck t n) s) fun u => modeEntered s u n 2 ∧ u.bit (Reg.DIN_STUCK (n / 32)) (n % 32) = true) ∧
    ((s.fld (Reg.DIN_CFG n) 16 16 = 0 ∨ max s.now t ≤ a + s.fld (Reg.DIN_CFG n) 16 16 * 1000000) →
      answers (exec (.dinStuck t n) s) fun u => u.din = s.din ∧ regsKeptOnly [] s u ∧ memKept s u)) ∧
  (∀ (t e : Nat) (s : State), s.dinMode 2 = 1 → sparseFind s.din.last 2 = some e →
    (e + 10000000000 ≤ max s.now t → answers (exec (.pwrGoodChatterClear t) s) fun u =>
      u.dinMode 2 = 0 ∧ u.bit (Reg.DIN_STS 2) 2 = s.bit (Reg.DIN_STS 2) 1 ∧ u.bit (Reg.DIN_CHATTER 0) 2 = false ∧
      regsKeptOnly (Reg.DIN_STS 2 :: Reg.DIN_CHATTER 0 :: Reg.DIN_STUCK 0 :: showRegs) s u ∧ memKept s u) ∧
    (max s.now t < e + 10000000000 → answers (exec (.pwrGoodChatterClear t) s) fun u => regsKeptOnly [] s u ∧ memKept s u)) ∧
  (∀ (t : Nat) (w : Writer) (n : Fin 88) (v : Word) (s : State), v.toNat = n.val → admits s w Reg.DIN_CLR 32 v.toNat = true →
    s.dinMode n ≠ 0 →
    (dinClrOk (s.at t) n.val = true → answers (exec (.dinClr t w v) s) fun u =>
      u.dinMode n = 0 ∧ u.bit (Reg.DIN_STS n) 2 = s.bit (Reg.DIN_STS n) 1 ∧ memKept s u) ∧
    (dinClrOk (s.at t) n.val = false → answers (exec (.dinClr t w v) s) fun u =>
      u.dinMode n = s.dinMode n ∧ u.bit (Reg.IRQ_STS 0x113) 4 = true ∧ regsKeptW 0x113 [] s u ∧ memKept s u))

/-- The blocks that hold no functions with a STATE of their own: every page but those of the bricks, the stages, the contactors and the
sequencer. -/
def plainBlock (p : Nat) : Prop := p ≠ 0x102 ∧ p ≠ 0x108 ∧ p ≠ 0x10E ∧ p ≠ 0x10

/-- R69, R72, R434 to R440, R445, R448: ENABLE starts and stops a block and is rejected in FAULT; QUIESCE is stored, and awaited by the
sequencer; SOFT_RESET clears counters and leaves FAULT; IRQ_SET sets, WR_LOCK stays; the lost counts, the warm variant and the
failed units follow their registers. -/
def Obligations.BlocksStartStopAndReset : Prop :=
  (∀ (t : Nat) (w : Writer) (page : BitVec 12) (v : Word) (s : State), admits s w (Reg.BLK_CTL page.toNat) 32 v.toNat = true →
    let p := page.toNat
    bitOf v.toNat 2 = false →
    (bitOf v.toNat 0 = true → s.blk p = stFault → ∀ i ∈ [Instr.blkCtlEnable t w page v, .blkCtlQuiesce t w page v],
      answers (exec i s) fun u =>
        u.blk p = stFault ∧ u.bit (Reg.IRQ_STS p) 4 = true ∧ regsKeptW p [] s u ∧ memKept s u) ∧
    (plainBlock p → bitOf v.toNat 0 = true → s.blk p = stOff → s.bit (Reg.BLK_STS p) 4 = false →
      answers (exec (.blkCtlEnable t w page v) s) fun u =>
        u.blk p = stRunning ∧ posted p u ∧ u.bit (Reg.IRQ_STS p) 0 = true ∧
        regsKeptW p [Reg.BLK_CTL p, Reg.BLK_STS p] s u ∧ memKept s u) ∧
    (plainBlock p → bitOf v.toNat 0 = false → s.blk p = stRunning → s.bit (Reg.BLK_STS p) 4 = false →
      answers (exec (.blkCtlEnable t w page v) s) fun u =>
        u.blk p = stOff ∧ posted p u ∧ regsKeptW p [Reg.BLK_CTL p, Reg.BLK_STS p] s u ∧ memKept s u) ∧
    (p = 0x10 → bitOf v.toNat 0 = true → s.blk p = stOff → bitOf v.toNat 1 = false →
      answers (exec (.blkCtlEnable t w page v) s) fun u =>
        u.blk p = stStarting ∧ posted p u ∧ u.seq = s.seq ∧ memKept s u) ∧
    (p = 0x10 → bitOf v.toNat 0 = true → s.blk p = stRunning → bitOf v.toNat 1 = true →
      answers (exec (.blkCtlQuiesce t w page v) s) fun u =>
        (s.seq.body.active = true → u.blk p = stRunning ∧ u.bit (Reg.BLK_STS p) 5 = true) ∧
        (s.seq.body.active = false → u.blk p = stQuiesced ∧ u.bit (Reg.BLK_STS p) 5 = false ∧ posted p u) ∧
        u.seq = s.seq ∧ memKept s u) ∧
    (plainBlock p → bitOf v.toNat 0 = true → s.blk p = stRunning → answers (exec (.blkCtlQuiesce t w page v) s) fun u =>
      u.bit (Reg.BLK_CTL p) 1 = bitOf v.toNat 1 ∧ u.blk p = stRunning ∧ regsKeptW p [Reg.BLK_CTL p] s u ∧ memKept s u)) ∧
  (∀ (t : Nat) (w : Writer) (page : BitVec 12) (v : Word) (s : State),
    admits s w (Reg.BLK_CTL page.toNat) 32 (v.toNat ||| 4) = true →
    let p := page.toNat
    (plainBlock p → bitOf v.toNat 0 = true → s.blk p = stRunning → answers (exec (.blkCtlSoftReset t w page v) s) fun u =>
      u.blk p = stRunning ∧
      (∀ a, governs p (a / 4096) = true → isCounter a = true → writeReg p a = false → eventReg p a = false →
        u.reg a = regReset s.fx a % 2 ^ 64) ∧
      (∀ a, governs p (a / 4096) = false → writeReg p a = false → eventReg p a = false → u.reg a = s.reg a) ∧ memKept s u) ∧
    (plainBlock p → bitOf v.toNat 0 = false → s.blk p = stFault → answers (exec (.blkCtlSoftReset t w page v) s) fun u =>
      u.blk p = stOff ∧ posted p u ∧ memKept s u)) ∧
  (∀ (t : Nat) (w : Writer) (page : BitVec 12) (v : Word) (s : State), admits s w (Reg.IRQ_SET page.toNat) 32 v.toNat = true →
    answers (exec (.irqSetWrite t w page v) s) fun u =>
      (∀ b : Fin 5, bitOf v.toNat b = true → u.bit (Reg.IRQ_STS page.toNat) b = true) ∧
      (∀ b : Fin 64, s.bit (Reg.IRQ_STS page.toNat) b = true → u.bit (Reg.IRQ_STS page.toNat) b = true) ∧
      regsKeptW page.toNat [Reg.IRQ_SET page.toNat] s u ∧ memKept s u) ∧
  (∀ (t : Nat) (w : Writer) (page : BitVec 12) (v : Word) (s : State), admits s w (Reg.LOCK page.toNat) 32 v.toNat = true →
    answers (exec (.lockWrLock t w page v) s) fun u =>
      u.bit (Reg.LOCK page.toNat) 0 = (s.bit (Reg.LOCK page.toNat) 0 || bitOf v.toNat 0) ∧
      regsKeptW page.toNat [Reg.LOCK page.toNat] s u ∧ memKept s u) ∧
  (∀ (t : Nat) (w : Writer) (v : Word) (s : State),
    (admits s w Reg.EVT_CTL 32 v.toNat = true → bitOf v.toNat 1 = true → answers (exec (.evtClrLost t w v) s) fun u =>
      u.reg Reg.EVT_LOST = 0 ∧ u.evt = s.evt ∧ regsKeptW 2 [Reg.EVT_CTL, Reg.EVT_LOST] s u ∧ memKept s u) ∧
    (admits s w Reg.AUD_CTL 32 v.toNat = true → bitOf v.toNat 0 = true → answers (exec (.audClrLost t w v) s) fun u =>
      u.reg Reg.AUD_LOST = 0 ∧ regsKeptW 3 [Reg.AUD_CTL] s u ∧ memKept s u) ∧
    (admits s w Reg.SEQ_WARM 32 v.toNat = true → answers (exec (.seqWarmWrite t w v) s) fun u =>
      u.fld Reg.SEQ_WARM 0 8 = v.toNat % 256 ∧
      (s.inactBank.kind = .warm → s.inactBank.variant ≠ v.toNat % 256 → s.seq.sw = .none → u.inactBank.kind = .empty) ∧
      (s.inactBank.kind ≠ .warm → u.inactBank = s.inactBank) ∧ memKept s u) ∧
    (admits s w Reg.SEQ_FAILED 32 v.toNat = true → answers (exec (.seqFailedWrite t w v) s) fun u =>
      (∀ k : Fin 16, bitOf v.toNat k = true → u.bit Reg.SEQ_FAILED k = false ∧ u.bit (Reg.MAC_STS k) 0 = false) ∧
      (∀ d : Fin 4, bitOf v.toNat (16 + d) = true → u.stackFailed d = false ∧ u.bit (Reg.VEC_STS d) 0 = false) ∧
      (∀ k : Fin 20, bitOf v.toNat k = false → u.bit Reg.SEQ_FAILED k = s.bit Reg.SEQ_FAILED k)))

/-- The 32-byte record of an event (R441). -/
def recordOf (u : State) (e : EventIn) (r : EvRec) : Prop :=
  r.stamp.toNat = u.now % 2 ^ 64 ∧ r.src.toNat = e.page.toNat ∧ r.sev.toNat = e.sev.val ∧ r.code = e.code ∧ r.rep = 0 ∧ r.unit = e.unit ∧
  r.cause = e.cause ∧ r.v0 = e.v0 ∧ r.v1 = e.v1 ∧ r.v2 = e.v2

/-- R439, R441, R442, R453, R456: an event becomes a record of its die's buffer, or counts in the record that takes it; a full ring loses its
oldest; closed windows are journalled; a plug above its class is held with its lanes DOWN; the lever's switch makes an owner yield. -/
def Obligations.EventsAndTheFrontPanel : Prop :=
  (∀ (t : Nat) (e : EventIn) (s : State), pagePresent s.fx e.page.toNat = true → s.bit Reg.EVT_CTL 0 = true →
    (onPulseDie e.page.toNat = false → s.basePowered = true → (e.sev.val = 2 ∨ s.reg Reg.EVT_COAL_MS = 0) →
      answers (exec (.eventPost t e) s) fun u =>
        posted e.page.toNat u ∧ (1 ≤ e.sev.val → u.bit (Reg.IRQ_STS e.page.toNat) 2 = true) ∧
        (∃ r, u.evt.ring = lastN 4096 (s.evt.ring ++ [r]) ∧ recordOf u e r) ∧ u.evt.pd = s.evt.pd ∧
        u.reg Reg.EVT_HEAD = (s.reg Reg.EVT_HEAD + 1) % 2 ^ 32 ∧
        (4096 ≤ s.evt.ring.length → counted s u Reg.EVT_LOST) ∧ (s.evt.ring.length < 4096 → u.reg Reg.EVT_LOST = s.reg Reg.EVT_LOST) ∧
        regsKept e.page.toNat [] s u ∧ memKept s u) ∧
    (onPulseDie e.page.toNat = true → s.pw.pulse ≠ .off → e.sev.val = 2 → answers (exec (.eventPost t e) s) fun u =>
      posted e.page.toNat u ∧ (∃ r, u.evt.pd = lastN 128 (s.evt.pd ++ [r]) ∧ recordOf u e r ∧
        ∃ j : JRec, u.jnl.pocket[(3 : Fin 4)] = some j ∧ j.ty = 0x51 ∧ j.payload = evBytes r) ∧ u.evt.ring = s.evt.ring ∧
      regsKept e.page.toNat [] s u ∧ memKept s u) ∧
    (∀ (r : EvRec) (l : List EvRec), onPulseDie e.page.toNat = false → s.basePowered = true → e.sev.val < 2 → s.evt.pd = [] →
      s.evt.ring = l ++ [r] → r.src.toNat = e.page.toNat → r.code = e.code → r.sev.toNat < 2 → s.reg Reg.EVT_COAL_MS ≠ 0 →
      max s.now t < r.stamp.toNat + s.reg Reg.EVT_COAL_MS * 1000000 → answers (exec (.eventPost t e) s) fun u =>
        u.evt.ring = l ++ [{ r with rep := BitVec.ofNat 16 (min (r.rep.toNat + 1) 65535) }] ∧
        u.reg Reg.EVT_HEAD = s.reg Reg.EVT_HEAD ∧ posted e.page.toNat u ∧ regsKept e.page.toNat [] s u ∧ memKept s u)) ∧
  (∀ (t : Nat) (s : State), s.baseUp = true → answers (exec (.eventCoalesceEnd t) s) fun u =>
    (∀ e ∈ u.evt.ring, u.evDue e = false) ∧ u.evt.ring.length = s.evt.ring.length ∧ u.evt.pd = s.evt.pd ∧
    u.evt.announced = s.evt.announced + (s.evt.ring.filter (s.at t).evDue).length ∧
    (s.isOwner = true → s.jnlRefuses = false →
      u.jnl.queue.length = s.jnl.queue.length + (s.evt.ring.filter (s.at t).evDue).length) ∧
    regsKeptOnly [Reg.JNL_SEQ, Reg.JNL_STS, Reg.SLK_JNL_LAG] s u ∧ memKept s u) ∧
  (∀ (t cls : Nat) (g : Fin 11) (s : State), s.basePowered = true → pagePresent s.fx (cagePage g) = true →
    (cageClass g < cls → answers (exec (.pluggableOverclass t g cls) s) fun u =>
      u.plugHeld g = true ∧ posted (cagePage g) u ∧
      (∀ p : Fin 32, p.val / 4 = g.val → s.bit (Reg.STR_STS p) 3 = true →
        u.fld (Reg.STR_STS p) 0 3 = lkDown ∧ u.bit (Reg.STR_STS p) 3 = false) ∧
      (∀ p : Fin 32, p.val / 4 ≠ g.val → u.reg (Reg.STR_STS p) = s.reg (Reg.STR_STS p)) ∧ memKept s u) ∧
    (cls ≤ cageClass g → answers (exec (.pluggableOverclass t g cls) s) fun u =>
      u.plugHeld g = false ∧ regsKeptOnly [] s u ∧ memKept s u)) ∧
  (∀ (t hold : Nat) (s : State), s.isOwner = true → s.pulseUp = true →
    (10000000 ≤ hold → (s.at t).peerReady = true → s.clp.role = 4 → s.clp.peerContest = false → s.clp.yieldDue = none →
      answers (exec (.leverSwitchOpen t hold) s) fun u =>
        u.clp = { s.clp with yieldCause := 1, yieldDue := some (alignUp 1000000 (max s.now t + 20000)) } ∧ regsKeptOnly [] s u ∧
        memKept s u) ∧
    (10000000 ≤ hold → (s.at t).peerReady = false → answers (exec (.leverSwitchOpen t hold) s) fun u =>
      u.clp = s.clp ∧ posted 0x111 u ∧ regsKept 0x111 [] s u ∧ memKept s u) ∧
    (hold < 10000000 → answers (exec (.leverSwitchOpen t hold) s) fun u =>
      u.clp = s.clp ∧ regsKeptOnly [] s u ∧ memKept s u))
end

