-- ==== Sys2Proof/Laws/Sparse.lean ====
section
/-!
SUPPORT. The laws of the sparse tables: what a read after a write gives, and that a write keeps the canonical form.
-/
namespace Sys2Proof.Machine

theorem sparseFind_erase_same {α : Type} (l : List (Nat × α)) (a : Nat) : sparseFind (sparseErase l a) a = none := by
  induction l with
  | nil => rfl
  | cons p r ih =>
    unfold sparseErase
    by_cases h : a = p.1 <;> simp [h, sparseFind] <;> simpa [h] using ih

theorem sparseFind_erase_ne {α : Type} (l : List (Nat × α)) (a b : Nat) (hab : b ≠ a) :
    sparseFind (sparseErase l a) b = sparseFind l b := by
  induction l with
  | nil => rfl
  | cons p r ih =>
    unfold sparseErase
    by_cases h : a = p.1
    · have : ¬ b = p.1 := by omega
      simp [h, sparseFind, this]; simpa [h] using ih
    · simp [h, sparseFind, ih]

theorem sparseFind_ins_same {α : Type} (l : List (Nat × α)) (a : Nat) (x : α) (h : sparseFind l a = none) :
    sparseFind (sparseIns l a x) a = some x := by
  induction l with
  | nil => simp [sparseIns, sparseFind]
  | cons p r ih =>
    unfold sparseIns
    unfold sparseFind at h
    by_cases h1 : a = p.1
    · simp [h1] at h
    · simp only [h1, if_false] at h
      by_cases h2 : a < p.1
      · simp [h2, sparseFind]
      · simp [h2, sparseFind, h1, ih h]

theorem sparseFind_ins_ne {α : Type} (l : List (Nat × α)) (a b : Nat) (x : α) (hab : b ≠ a) :
    sparseFind (sparseIns l a x) b = sparseFind l b := by
  induction l with
  | nil => simp [sparseIns, sparseFind, hab]
  | cons p r ih =>
    unfold sparseIns
    by_cases h2 : a < p.1
    · simp [h2, sparseFind, hab]
    · simp [h2, sparseFind, ih]

/-- A read of the key written gives the value written. -/
theorem sparseGet_set_same {α : Type} [DecidableEq α] (d : Nat → α) (l : List (Nat × α)) (a : Nat) (x : α) :
    sparseGet d (sparseSet d l a x) a = x := by
  unfold sparseSet sparseGet
  by_cases hx : x = d a
  · simp [hx, sparseFind_erase_same]
  · simp [hx, sparseFind_ins_same _ _ _ (sparseFind_erase_same l a)]

/-- A read of another key is not changed by a write. -/
theorem sparseGet_set_ne {α : Type} [DecidableEq α] (d : Nat → α) (l : List (Nat × α)) (a b : Nat) (x : α) (hab : b ≠ a) :
    sparseGet d (sparseSet d l a x) b = sparseGet d l b := by
  unfold sparseSet sparseGet
  by_cases hx : x = d a
  · simp [hx, sparseFind_erase_ne l a b hab]
  · simp [hx, sparseFind_ins_ne _ a b x hab, sparseFind_erase_ne l a b hab]

theorem sparseWfFrom_mono {α : Type} [DecidableEq α] (d : Nat → α) (l : List (Nat × α)) (lo lo' : Nat) (hl : lo' ≤ lo)
    (h : sparseWfFrom d lo l = true) : sparseWfFrom d lo' l = true := by
  cases l with
  | nil => rfl
  | cons p r =>
    simp only [sparseWfFrom, Bool.and_eq_true, decide_eq_true_eq] at h ⊢
    exact ⟨⟨by omega, h.1.2⟩, h.2⟩

theorem sparseWfFrom_erase {α : Type} [DecidableEq α] (d : Nat → α) (l : List (Nat × α)) (lo a : Nat)
    (h : sparseWfFrom d lo l = true) : sparseWfFrom d lo (sparseErase l a) = true := by
  induction l generalizing lo with
  | nil => rfl
  | cons p r ih =>
    simp only [sparseWfFrom, Bool.and_eq_true, decide_eq_true_eq] at h
    obtain ⟨⟨hk, hv⟩, hr⟩ := h
    unfold sparseErase
    by_cases h1 : a = p.1
    · simp only [h1, if_true]
      exact sparseWfFrom_mono d _ (p.1 + 1) lo (by omega) (by simpa [h1] using ih (p.1 + 1) hr)
    · simp only [h1, if_false, sparseWfFrom, Bool.and_eq_true, decide_eq_true_eq]
      exact ⟨⟨hk, hv⟩, ih (p.1 + 1) hr⟩

theorem sparseWfFrom_ins {α : Type} [DecidableEq α] (d : Nat → α) (l : List (Nat × α)) (lo a : Nat) (x : α)
    (ha : lo ≤ a) (hx : x ≠ d a) (hn : sparseFind l a = none) (h : sparseWfFrom d lo l = true) :
    sparseWfFrom d lo (sparseIns l a x) = true := by
  induction l generalizing lo with
  | nil => simp [sparseIns, sparseWfFrom, ha, hx]
  | cons p r ih =>
    simp only [sparseWfFrom, Bool.and_eq_true, decide_eq_true_eq] at h
    obtain ⟨⟨hk, hv⟩, hr⟩ := h
    unfold sparseFind at hn
    by_cases h1 : a = p.1
    · simp [h1] at hn
    · simp only [h1, if_false] at hn
      unfold sparseIns
      by_cases h2 : a < p.1
      · simp only [h2, if_true, sparseWfFrom, Bool.and_eq_true, decide_eq_true_eq]
        exact ⟨⟨ha, hx⟩, ⟨by omega, hv⟩, hr⟩
      · simp only [h2, if_false, sparseWfFrom, Bool.and_eq_true, decide_eq_true_eq]
        exact ⟨⟨hk, hv⟩, ih (p.1 + 1) (by omega) hn hr⟩

/-- A write keeps the canonical form. -/
theorem sparseWf_set {α : Type} [DecidableEq α] (d : Nat → α) (l : List (Nat × α)) (a : Nat) (x : α)
    (h : sparseWf d l = true) : sparseWf d (sparseSet d l a x) = true := by
  unfold sparseSet sparseWf
  by_cases hx : x = d a
  · simp only [hx, if_true]; exact sparseWfFrom_erase d l 0 a h
  · simp only [hx, if_false]
    exact sparseWfFrom_ins d _ 0 a x (Nat.zero_le _) hx (sparseFind_erase_same l a) (sparseWfFrom_erase d l 0 a h)

end Sys2Proof.Machine
end

