-- ==== Sys2Proof/Laws/State.lean ====
section
/-!
SUPPORT. What the plain updates of the state leave alone and what they change: one lemma per field and update, true by unfolding.
-/
namespace Sys2Proof.Machine

/-! ### setReg -/

@[simp] theorem setReg_pending (s : State) (a v : Nat) : (s.setReg a v).pending = s.pending := (rfl)
@[simp] theorem setReg_now (s : State) (a v : Nat) : (s.setReg a v).now = s.now := (rfl)
@[simp] theorem setReg_free (s : State) (a v : Nat) : (s.setReg a v).free = s.free := (rfl)
@[simp] theorem setReg_fx (s : State) (a v : Nat) : (s.setReg a v).fx = s.fx := (rfl)
@[simp] theorem setReg_lc (s : State) (a v : Nat) : (s.setReg a v).lc = s.lc := (rfl)
@[simp] theorem setReg_slotB (s : State) (a v : Nat) : (s.setReg a v).slotB = s.slotB := (rfl)
@[simp] theorem setReg_grid (s : State) (a v : Nat) : (s.setReg a v).grid = s.grid := (rfl)
@[simp] theorem setReg_time (s : State) (a v : Nat) : (s.setReg a v).time = s.time := (rfl)
@[simp] theorem setReg_mem (s : State) (a v : Nat) : (s.setReg a v).mem = s.mem := (rfl)
@[simp] theorem setReg_poison (s : State) (a v : Nat) : (s.setReg a v).poison = s.poison := (rfl)
@[simp] theorem setReg_evt (s : State) (a v : Nat) : (s.setReg a v).evt = s.evt := (rfl)
@[simp] theorem setReg_aud (s : State) (a v : Nat) : (s.setReg a v).aud = s.aud := (rfl)
@[simp] theorem setReg_mbx (s : State) (a v : Nat) : (s.setReg a v).mbx = s.mbx := (rfl)
@[simp] theorem setReg_seq (s : State) (a v : Nat) : (s.setReg a v).seq = s.seq := (rfl)
@[simp] theorem setReg_mac (s : State) (a v : Nat) : (s.setReg a v).mac = s.mac := (rfl)
@[simp] theorem setReg_eng (s : State) (a v : Nat) : (s.setReg a v).eng = s.eng := (rfl)
@[simp] theorem setReg_fr (s : State) (a v : Nat) : (s.setReg a v).fr = s.fr := (rfl)
@[simp] theorem setReg_scrub (s : State) (a v : Nat) : (s.setReg a v).scrub = s.scrub := (rfl)
@[simp] theorem setReg_ep (s : State) (a v : Nat) : (s.setReg a v).ep = s.ep := (rfl)
@[simp] theorem setReg_port (s : State) (a v : Nat) : (s.setReg a v).port = s.port := (rfl)
@[simp] theorem setReg_arb (s : State) (a v : Nat) : (s.setReg a v).arb = s.arb := (rfl)
@[simp] theorem setReg_pd (s : State) (a v : Nat) : (s.setReg a v).pd = s.pd := (rfl)
@[simp] theorem setReg_cle (s : State) (a v : Nat) : (s.setReg a v).cle = s.cle := (rfl)
@[simp] theorem setReg_vm (s : State) (a v : Nat) : (s.setReg a v).vm = s.vm := (rfl)
@[simp] theorem setReg_gov (s : State) (a v : Nat) : (s.setReg a v).gov = s.gov := (rfl)
@[simp] theorem setReg_prt (s : State) (a v : Nat) : (s.setReg a v).prt = s.prt := (rfl)
@[simp] theorem setReg_ctc (s : State) (a v : Nat) : (s.setReg a v).ctc = s.ctc := (rfl)
@[simp] theorem setReg_loop (s : State) (a v : Nat) : (s.setReg a v).loop = s.loop := (rfl)
@[simp] theorem setReg_est (s : State) (a v : Nat) : (s.setReg a v).est = s.est := (rfl)
@[simp] theorem setReg_hmk (s : State) (a v : Nat) : (s.setReg a v).hmk = s.hmk := (rfl)
@[simp] theorem setReg_wiring (s : State) (a v : Nat) : (s.setReg a v).wiring = s.wiring := (rfl)
@[simp] theorem setReg_wiringNext (s : State) (a v : Nat) : (s.setReg a v).wiringNext = s.wiringNext := (rfl)
@[simp] theorem setReg_chn (s : State) (a v : Nat) : (s.setReg a v).chn = s.chn := (rfl)
@[simp] theorem setReg_clp (s : State) (a v : Nat) : (s.setReg a v).clp = s.clp := (rfl)
@[simp] theorem setReg_nug (s : State) (a v : Nat) : (s.setReg a v).nug = s.nug := (rfl)
@[simp] theorem setReg_jnl (s : State) (a v : Nat) : (s.setReg a v).jnl = s.jnl := (rfl)
@[simp] theorem setReg_pw (s : State) (a v : Nat) : (s.setReg a v).pw = s.pw := (rfl)
@[simp] theorem setReg_din (s : State) (a v : Nat) : (s.setReg a v).din = s.din := (rfl)

/-! ### setFld -/

@[simp] theorem setFld_pending (s : State) (a lo w x : Nat) : (s.setFld a lo w x).pending = s.pending := setReg_pending s a _
@[simp] theorem setFld_now (s : State) (a lo w x : Nat) : (s.setFld a lo w x).now = s.now := setReg_now s a _
@[simp] theorem setFld_free (s : State) (a lo w x : Nat) : (s.setFld a lo w x).free = s.free := setReg_free s a _
@[simp] theorem setFld_fx (s : State) (a lo w x : Nat) : (s.setFld a lo w x).fx = s.fx := setReg_fx s a _
@[simp] theorem setFld_lc (s : State) (a lo w x : Nat) : (s.setFld a lo w x).lc = s.lc := setReg_lc s a _
@[simp] theorem setFld_slotB (s : State) (a lo w x : Nat) : (s.setFld a lo w x).slotB = s.slotB := setReg_slotB s a _
@[simp] theorem setFld_grid (s : State) (a lo w x : Nat) : (s.setFld a lo w x).grid = s.grid := setReg_grid s a _
@[simp] theorem setFld_time (s : State) (a lo w x : Nat) : (s.setFld a lo w x).time = s.time := setReg_time s a _
@[simp] theorem setFld_mem (s : State) (a lo w x : Nat) : (s.setFld a lo w x).mem = s.mem := setReg_mem s a _
@[simp] theorem setFld_poison (s : State) (a lo w x : Nat) : (s.setFld a lo w x).poison = s.poison := setReg_poison s a _
@[simp] theorem setFld_evt (s : State) (a lo w x : Nat) : (s.setFld a lo w x).evt = s.evt := setReg_evt s a _
@[simp] theorem setFld_aud (s : State) (a lo w x : Nat) : (s.setFld a lo w x).aud = s.aud := setReg_aud s a _
@[simp] theorem setFld_mbx (s : State) (a lo w x : Nat) : (s.setFld a lo w x).mbx = s.mbx := setReg_mbx s a _
@[simp] theorem setFld_seq (s : State) (a lo w x : Nat) : (s.setFld a lo w x).seq = s.seq := setReg_seq s a _
@[simp] theorem setFld_mac (s : State) (a lo w x : Nat) : (s.setFld a lo w x).mac = s.mac := setReg_mac s a _
@[simp] theorem setFld_eng (s : State) (a lo w x : Nat) : (s.setFld a lo w x).eng = s.eng := setReg_eng s a _
@[simp] theorem setFld_fr (s : State) (a lo w x : Nat) : (s.setFld a lo w x).fr = s.fr := setReg_fr s a _
@[simp] theorem setFld_scrub (s : State) (a lo w x : Nat) : (s.setFld a lo w x).scrub = s.scrub := setReg_scrub s a _
@[simp] theorem setFld_ep (s : State) (a lo w x : Nat) : (s.setFld a lo w x).ep = s.ep := setReg_ep s a _
@[simp] theorem setFld_port (s : State) (a lo w x : Nat) : (s.setFld a lo w x).port = s.port := setReg_port s a _
@[simp] theorem setFld_arb (s : State) (a lo w x : Nat) : (s.setFld a lo w x).arb = s.arb := setReg_arb s a _
@[simp] theorem setFld_pd (s : State) (a lo w x : Nat) : (s.setFld a lo w x).pd = s.pd := setReg_pd s a _
@[simp] theorem setFld_cle (s : State) (a lo w x : Nat) : (s.setFld a lo w x).cle = s.cle := setReg_cle s a _
@[simp] theorem setFld_vm (s : State) (a lo w x : Nat) : (s.setFld a lo w x).vm = s.vm := setReg_vm s a _
@[simp] theorem setFld_gov (s : State) (a lo w x : Nat) : (s.setFld a lo w x).gov = s.gov := setReg_gov s a _
@[simp] theorem setFld_prt (s : State) (a lo w x : Nat) : (s.setFld a lo w x).prt = s.prt := setReg_prt s a _
@[simp] theorem setFld_ctc (s : State) (a lo w x : Nat) : (s.setFld a lo w x).ctc = s.ctc := setReg_ctc s a _
@[simp] theorem setFld_loop (s : State) (a lo w x : Nat) : (s.setFld a lo w x).loop = s.loop := setReg_loop s a _
@[simp] theorem setFld_est (s : State) (a lo w x : Nat) : (s.setFld a lo w x).est = s.est := setReg_est s a _
@[simp] theorem setFld_hmk (s : State) (a lo w x : Nat) : (s.setFld a lo w x).hmk = s.hmk := setReg_hmk s a _
@[simp] theorem setFld_wiring (s : State) (a lo w x : Nat) : (s.setFld a lo w x).wiring = s.wiring := setReg_wiring s a _
@[simp] theorem setFld_wiringNext (s : State) (a lo w x : Nat) : (s.setFld a lo w x).wiringNext = s.wiringNext := setReg_wiringNext s a _
@[simp] theorem setFld_chn (s : State) (a lo w x : Nat) : (s.setFld a lo w x).chn = s.chn := setReg_chn s a _
@[simp] theorem setFld_clp (s : State) (a lo w x : Nat) : (s.setFld a lo w x).clp = s.clp := setReg_clp s a _
@[simp] theorem setFld_nug (s : State) (a lo w x : Nat) : (s.setFld a lo w x).nug = s.nug := setReg_nug s a _
@[simp] theorem setFld_jnl (s : State) (a lo w x : Nat) : (s.setFld a lo w x).jnl = s.jnl := setReg_jnl s a _
@[simp] theorem setFld_pw (s : State) (a lo w x : Nat) : (s.setFld a lo w x).pw = s.pw := setReg_pw s a _
@[simp] theorem setFld_din (s : State) (a lo w x : Nat) : (s.setFld a lo w x).din = s.din := setReg_din s a _

/-! ### setBit -/

@[simp] theorem setBit_pending (s : State) (a i : Nat) (b : Bool) : (s.setBit a i b).pending = s.pending := setFld_pending s a i 1 _
@[simp] theorem setBit_now (s : State) (a i : Nat) (b : Bool) : (s.setBit a i b).now = s.now := setFld_now s a i 1 _
@[simp] theorem setBit_free (s : State) (a i : Nat) (b : Bool) : (s.setBit a i b).free = s.free := setFld_free s a i 1 _
@[simp] theorem setBit_fx (s : State) (a i : Nat) (b : Bool) : (s.setBit a i b).fx = s.fx := setFld_fx s a i 1 _
@[simp] theorem setBit_lc (s : State) (a i : Nat) (b : Bool) : (s.setBit a i b).lc = s.lc := setFld_lc s a i 1 _
@[simp] theorem setBit_slotB (s : State) (a i : Nat) (b : Bool) : (s.setBit a i b).slotB = s.slotB := setFld_slotB s a i 1 _
@[simp] theorem setBit_grid (s : State) (a i : Nat) (b : Bool) : (s.setBit a i b).grid = s.grid := setFld_grid s a i 1 _
@[simp] theorem setBit_time (s : State) (a i : Nat) (b : Bool) : (s.setBit a i b).time = s.time := setFld_time s a i 1 _
@[simp] theorem setBit_mem (s : State) (a i : Nat) (b : Bool) : (s.setBit a i b).mem = s.mem := setFld_mem s a i 1 _
@[simp] theorem setBit_poison (s : State) (a i : Nat) (b : Bool) : (s.setBit a i b).poison = s.poison := setFld_poison s a i 1 _
@[simp] theorem setBit_evt (s : State) (a i : Nat) (b : Bool) : (s.setBit a i b).evt = s.evt := setFld_evt s a i 1 _
@[simp] theorem setBit_aud (s : State) (a i : Nat) (b : Bool) : (s.setBit a i b).aud = s.aud := setFld_aud s a i 1 _
@[simp] theorem setBit_mbx (s : State) (a i : Nat) (b : Bool) : (s.setBit a i b).mbx = s.mbx := setFld_mbx s a i 1 _
@[simp] theorem setBit_seq (s : State) (a i : Nat) (b : Bool) : (s.setBit a i b).seq = s.seq := setFld_seq s a i 1 _
@[simp] theorem setBit_mac (s : State) (a i : Nat) (b : Bool) : (s.setBit a i b).mac = s.mac := setFld_mac s a i 1 _
@[simp] theorem setBit_eng (s : State) (a i : Nat) (b : Bool) : (s.setBit a i b).eng = s.eng := setFld_eng s a i 1 _
@[simp] theorem setBit_fr (s : State) (a i : Nat) (b : Bool) : (s.setBit a i b).fr = s.fr := setFld_fr s a i 1 _
@[simp] theorem setBit_scrub (s : State) (a i : Nat) (b : Bool) : (s.setBit a i b).scrub = s.scrub := setFld_scrub s a i 1 _
@[simp] theorem setBit_ep (s : State) (a i : Nat) (b : Bool) : (s.setBit a i b).ep = s.ep := setFld_ep s a i 1 _
@[simp] theorem setBit_port (s : State) (a i : Nat) (b : Bool) : (s.setBit a i b).port = s.port := setFld_port s a i 1 _
@[simp] theorem setBit_arb (s : State) (a i : Nat) (b : Bool) : (s.setBit a i b).arb = s.arb := setFld_arb s a i 1 _
@[simp] theorem setBit_pd (s : State) (a i : Nat) (b : Bool) : (s.setBit a i b).pd = s.pd := setFld_pd s a i 1 _
@[simp] theorem setBit_cle (s : State) (a i : Nat) (b : Bool) : (s.setBit a i b).cle = s.cle := setFld_cle s a i 1 _
@[simp] theorem setBit_vm (s : State) (a i : Nat) (b : Bool) : (s.setBit a i b).vm = s.vm := setFld_vm s a i 1 _
@[simp] theorem setBit_gov (s : State) (a i : Nat) (b : Bool) : (s.setBit a i b).gov = s.gov := setFld_gov s a i 1 _
@[simp] theorem setBit_prt (s : State) (a i : Nat) (b : Bool) : (s.setBit a i b).prt = s.prt := setFld_prt s a i 1 _
@[simp] theorem setBit_ctc (s : State) (a i : Nat) (b : Bool) : (s.setBit a i b).ctc = s.ctc := setFld_ctc s a i 1 _
@[simp] theorem setBit_loop (s : State) (a i : Nat) (b : Bool) : (s.setBit a i b).loop = s.loop := setFld_loop s a i 1 _
@[simp] theorem setBit_est (s : State) (a i : Nat) (b : Bool) : (s.setBit a i b).est = s.est := setFld_est s a i 1 _
@[simp] theorem setBit_hmk (s : State) (a i : Nat) (b : Bool) : (s.setBit a i b).hmk = s.hmk := setFld_hmk s a i 1 _
@[simp] theorem setBit_wiring (s : State) (a i : Nat) (b : Bool) : (s.setBit a i b).wiring = s.wiring := setFld_wiring s a i 1 _
@[simp] theorem setBit_wiringNext (s : State) (a i : Nat) (b : Bool) : (s.setBit a i b).wiringNext = s.wiringNext := setFld_wiringNext s a i 1 _
@[simp] theorem setBit_chn (s : State) (a i : Nat) (b : Bool) : (s.setBit a i b).chn = s.chn := setFld_chn s a i 1 _
@[simp] theorem setBit_clp (s : State) (a i : Nat) (b : Bool) : (s.setBit a i b).clp = s.clp := setFld_clp s a i 1 _
@[simp] theorem setBit_nug (s : State) (a i : Nat) (b : Bool) : (s.setBit a i b).nug = s.nug := setFld_nug s a i 1 _
@[simp] theorem setBit_jnl (s : State) (a i : Nat) (b : Bool) : (s.setBit a i b).jnl = s.jnl := setFld_jnl s a i 1 _
@[simp] theorem setBit_pw (s : State) (a i : Nat) (b : Bool) : (s.setBit a i b).pw = s.pw := setFld_pw s a i 1 _
@[simp] theorem setBit_din (s : State) (a i : Nat) (b : Bool) : (s.setBit a i b).din = s.din := setFld_din s a i 1 _

/-! ### clrReg -/

@[simp] theorem clrReg_pending (s : State) (a : Nat) : (s.clrReg a).pending = s.pending := setReg_pending s a _
@[simp] theorem clrReg_now (s : State) (a : Nat) : (s.clrReg a).now = s.now := setReg_now s a _
@[simp] theorem clrReg_free (s : State) (a : Nat) : (s.clrReg a).free = s.free := setReg_free s a _
@[simp] theorem clrReg_fx (s : State) (a : Nat) : (s.clrReg a).fx = s.fx := setReg_fx s a _
@[simp] theorem clrReg_lc (s : State) (a : Nat) : (s.clrReg a).lc = s.lc := setReg_lc s a _
@[simp] theorem clrReg_slotB (s : State) (a : Nat) : (s.clrReg a).slotB = s.slotB := setReg_slotB s a _
@[simp] theorem clrReg_grid (s : State) (a : Nat) : (s.clrReg a).grid = s.grid := setReg_grid s a _
@[simp] theorem clrReg_time (s : State) (a : Nat) : (s.clrReg a).time = s.time := setReg_time s a _
@[simp] theorem clrReg_mem (s : State) (a : Nat) : (s.clrReg a).mem = s.mem := setReg_mem s a _
@[simp] theorem clrReg_poison (s : State) (a : Nat) : (s.clrReg a).poison = s.poison := setReg_poison s a _
@[simp] theorem clrReg_evt (s : State) (a : Nat) : (s.clrReg a).evt = s.evt := setReg_evt s a _
@[simp] theorem clrReg_aud (s : State) (a : Nat) : (s.clrReg a).aud = s.aud := setReg_aud s a _
@[simp] theorem clrReg_mbx (s : State) (a : Nat) : (s.clrReg a).mbx = s.mbx := setReg_mbx s a _
@[simp] theorem clrReg_seq (s : State) (a : Nat) : (s.clrReg a).seq = s.seq := setReg_seq s a _
@[simp] theorem clrReg_mac (s : State) (a : Nat) : (s.clrReg a).mac = s.mac := setReg_mac s a _
@[simp] theorem clrReg_eng (s : State) (a : Nat) : (s.clrReg a).eng = s.eng := setReg_eng s a _
@[simp] theorem clrReg_fr (s : State) (a : Nat) : (s.clrReg a).fr = s.fr := setReg_fr s a _
@[simp] theorem clrReg_scrub (s : State) (a : Nat) : (s.clrReg a).scrub = s.scrub := setReg_scrub s a _
@[simp] theorem clrReg_ep (s : State) (a : Nat) : (s.clrReg a).ep = s.ep := setReg_ep s a _
@[simp] theorem clrReg_port (s : State) (a : Nat) : (s.clrReg a).port = s.port := setReg_port s a _
@[simp] theorem clrReg_arb (s : State) (a : Nat) : (s.clrReg a).arb = s.arb := setReg_arb s a _
@[simp] theorem clrReg_pd (s : State) (a : Nat) : (s.clrReg a).pd = s.pd := setReg_pd s a _
@[simp] theorem clrReg_cle (s : State) (a : Nat) : (s.clrReg a).cle = s.cle := setReg_cle s a _
@[simp] theorem clrReg_vm (s : State) (a : Nat) : (s.clrReg a).vm = s.vm := setReg_vm s a _
@[simp] theorem clrReg_gov (s : State) (a : Nat) : (s.clrReg a).gov = s.gov := setReg_gov s a _
@[simp] theorem clrReg_prt (s : State) (a : Nat) : (s.clrReg a).prt = s.prt := setReg_prt s a _
@[simp] theorem clrReg_ctc (s : State) (a : Nat) : (s.clrReg a).ctc = s.ctc := setReg_ctc s a _
@[simp] theorem clrReg_loop (s : State) (a : Nat) : (s.clrReg a).loop = s.loop := setReg_loop s a _
@[simp] theorem clrReg_est (s : State) (a : Nat) : (s.clrReg a).est = s.est := setReg_est s a _
@[simp] theorem clrReg_hmk (s : State) (a : Nat) : (s.clrReg a).hmk = s.hmk := setReg_hmk s a _
@[simp] theorem clrReg_wiring (s : State) (a : Nat) : (s.clrReg a).wiring = s.wiring := setReg_wiring s a _
@[simp] theorem clrReg_wiringNext (s : State) (a : Nat) : (s.clrReg a).wiringNext = s.wiringNext := setReg_wiringNext s a _
@[simp] theorem clrReg_chn (s : State) (a : Nat) : (s.clrReg a).chn = s.chn := setReg_chn s a _
@[simp] theorem clrReg_clp (s : State) (a : Nat) : (s.clrReg a).clp = s.clp := setReg_clp s a _
@[simp] theorem clrReg_nug (s : State) (a : Nat) : (s.clrReg a).nug = s.nug := setReg_nug s a _
@[simp] theorem clrReg_jnl (s : State) (a : Nat) : (s.clrReg a).jnl = s.jnl := setReg_jnl s a _
@[simp] theorem clrReg_pw (s : State) (a : Nat) : (s.clrReg a).pw = s.pw := setReg_pw s a _
@[simp] theorem clrReg_din (s : State) (a : Nat) : (s.clrReg a).din = s.din := setReg_din s a _

/-! ### stampReg -/

@[simp] theorem stampReg_pending (s : State) (a : Nat) : (s.stampReg a).pending = s.pending := setReg_pending s a _
@[simp] theorem stampReg_now (s : State) (a : Nat) : (s.stampReg a).now = s.now := setReg_now s a _
@[simp] theorem stampReg_free (s : State) (a : Nat) : (s.stampReg a).free = s.free := setReg_free s a _
@[simp] theorem stampReg_fx (s : State) (a : Nat) : (s.stampReg a).fx = s.fx := setReg_fx s a _
@[simp] theorem stampReg_lc (s : State) (a : Nat) : (s.stampReg a).lc = s.lc := setReg_lc s a _
@[simp] theorem stampReg_slotB (s : State) (a : Nat) : (s.stampReg a).slotB = s.slotB := setReg_slotB s a _
@[simp] theorem stampReg_grid (s : State) (a : Nat) : (s.stampReg a).grid = s.grid := setReg_grid s a _
@[simp] theorem stampReg_time (s : State) (a : Nat) : (s.stampReg a).time = s.time := setReg_time s a _
@[simp] theorem stampReg_mem (s : State) (a : Nat) : (s.stampReg a).mem = s.mem := setReg_mem s a _
@[simp] theorem stampReg_poison (s : State) (a : Nat) : (s.stampReg a).poison = s.poison := setReg_poison s a _
@[simp] theorem stampReg_evt (s : State) (a : Nat) : (s.stampReg a).evt = s.evt := setReg_evt s a _
@[simp] theorem stampReg_aud (s : State) (a : Nat) : (s.stampReg a).aud = s.aud := setReg_aud s a _
@[simp] theorem stampReg_mbx (s : State) (a : Nat) : (s.stampReg a).mbx = s.mbx := setReg_mbx s a _
@[simp] theorem stampReg_seq (s : State) (a : Nat) : (s.stampReg a).seq = s.seq := setReg_seq s a _
@[simp] theorem stampReg_mac (s : State) (a : Nat) : (s.stampReg a).mac = s.mac := setReg_mac s a _
@[simp] theorem stampReg_eng (s : State) (a : Nat) : (s.stampReg a).eng = s.eng := setReg_eng s a _
@[simp] theorem stampReg_fr (s : State) (a : Nat) : (s.stampReg a).fr = s.fr := setReg_fr s a _
@[simp] theorem stampReg_scrub (s : State) (a : Nat) : (s.stampReg a).scrub = s.scrub := setReg_scrub s a _
@[simp] theorem stampReg_ep (s : State) (a : Nat) : (s.stampReg a).ep = s.ep := setReg_ep s a _
@[simp] theorem stampReg_port (s : State) (a : Nat) : (s.stampReg a).port = s.port := setReg_port s a _
@[simp] theorem stampReg_arb (s : State) (a : Nat) : (s.stampReg a).arb = s.arb := setReg_arb s a _
@[simp] theorem stampReg_pd (s : State) (a : Nat) : (s.stampReg a).pd = s.pd := setReg_pd s a _
@[simp] theorem stampReg_cle (s : State) (a : Nat) : (s.stampReg a).cle = s.cle := setReg_cle s a _
@[simp] theorem stampReg_vm (s : State) (a : Nat) : (s.stampReg a).vm = s.vm := setReg_vm s a _
@[simp] theorem stampReg_gov (s : State) (a : Nat) : (s.stampReg a).gov = s.gov := setReg_gov s a _
@[simp] theorem stampReg_prt (s : State) (a : Nat) : (s.stampReg a).prt = s.prt := setReg_prt s a _
@[simp] theorem stampReg_ctc (s : State) (a : Nat) : (s.stampReg a).ctc = s.ctc := setReg_ctc s a _
@[simp] theorem stampReg_loop (s : State) (a : Nat) : (s.stampReg a).loop = s.loop := setReg_loop s a _
@[simp] theorem stampReg_est (s : State) (a : Nat) : (s.stampReg a).est = s.est := setReg_est s a _
@[simp] theorem stampReg_hmk (s : State) (a : Nat) : (s.stampReg a).hmk = s.hmk := setReg_hmk s a _
@[simp] theorem stampReg_wiring (s : State) (a : Nat) : (s.stampReg a).wiring = s.wiring := setReg_wiring s a _
@[simp] theorem stampReg_wiringNext (s : State) (a : Nat) : (s.stampReg a).wiringNext = s.wiringNext := setReg_wiringNext s a _
@[simp] theorem stampReg_chn (s : State) (a : Nat) : (s.stampReg a).chn = s.chn := setReg_chn s a _
@[simp] theorem stampReg_clp (s : State) (a : Nat) : (s.stampReg a).clp = s.clp := setReg_clp s a _
@[simp] theorem stampReg_nug (s : State) (a : Nat) : (s.stampReg a).nug = s.nug := setReg_nug s a _
@[simp] theorem stampReg_jnl (s : State) (a : Nat) : (s.stampReg a).jnl = s.jnl := setReg_jnl s a _
@[simp] theorem stampReg_pw (s : State) (a : Nat) : (s.stampReg a).pw = s.pw := setReg_pw s a _
@[simp] theorem stampReg_din (s : State) (a : Nat) : (s.stampReg a).din = s.din := setReg_din s a _

/-! ### setByte -/

@[simp] theorem setByte_pending (s : State) (a : Nat) (b : Byte) : (s.setByte a b).pending = s.pending := (rfl)
@[simp] theorem setByte_now (s : State) (a : Nat) (b : Byte) : (s.setByte a b).now = s.now := (rfl)
@[simp] theorem setByte_free (s : State) (a : Nat) (b : Byte) : (s.setByte a b).free = s.free := (rfl)
@[simp] theorem setByte_fx (s : State) (a : Nat) (b : Byte) : (s.setByte a b).fx = s.fx := (rfl)
@[simp] theorem setByte_lc (s : State) (a : Nat) (b : Byte) : (s.setByte a b).lc = s.lc := (rfl)
@[simp] theorem setByte_slotB (s : State) (a : Nat) (b : Byte) : (s.setByte a b).slotB = s.slotB := (rfl)
@[simp] theorem setByte_grid (s : State) (a : Nat) (b : Byte) : (s.setByte a b).grid = s.grid := (rfl)
@[simp] theorem setByte_time (s : State) (a : Nat) (b : Byte) : (s.setByte a b).time = s.time := (rfl)
@[simp] theorem setByte_regs (s : State) (a : Nat) (b : Byte) : (s.setByte a b).regs = s.regs := (rfl)
@[simp] theorem setByte_poison (s : State) (a : Nat) (b : Byte) : (s.setByte a b).poison = s.poison := (rfl)
@[simp] theorem setByte_evt (s : State) (a : Nat) (b : Byte) : (s.setByte a b).evt = s.evt := (rfl)
@[simp] theorem setByte_aud (s : State) (a : Nat) (b : Byte) : (s.setByte a b).aud = s.aud := (rfl)
@[simp] theorem setByte_mbx (s : State) (a : Nat) (b : Byte) : (s.setByte a b).mbx = s.mbx := (rfl)
@[simp] theorem setByte_seq (s : State) (a : Nat) (b : Byte) : (s.setByte a b).seq = s.seq := (rfl)
@[simp] theorem setByte_mac (s : State) (a : Nat) (b : Byte) : (s.setByte a b).mac = s.mac := (rfl)
@[simp] theorem setByte_eng (s : State) (a : Nat) (b : Byte) : (s.setByte a b).eng = s.eng := (rfl)
@[simp] theorem setByte_fr (s : State) (a : Nat) (b : Byte) : (s.setByte a b).fr = s.fr := (rfl)
@[simp] theorem setByte_scrub (s : State) (a : Nat) (b : Byte) : (s.setByte a b).scrub = s.scrub := (rfl)
@[simp] theorem setByte_ep (s : State) (a : Nat) (b : Byte) : (s.setByte a b).ep = s.ep := (rfl)
@[simp] theorem setByte_port (s : State) (a : Nat) (b : Byte) : (s.setByte a b).port = s.port := (rfl)
@[simp] theorem setByte_arb (s : State) (a : Nat) (b : Byte) : (s.setByte a b).arb = s.arb := (rfl)
@[simp] theorem setByte_pd (s : State) (a : Nat) (b : Byte) : (s.setByte a b).pd = s.pd := (rfl)
@[simp] theorem setByte_cle (s : State) (a : Nat) (b : Byte) : (s.setByte a b).cle = s.cle := (rfl)
@[simp] theorem setByte_vm (s : State) (a : Nat) (b : Byte) : (s.setByte a b).vm = s.vm := (rfl)
@[simp] theorem setByte_gov (s : State) (a : Nat) (b : Byte) : (s.setByte a b).gov = s.gov := (rfl)
@[simp] theorem setByte_prt (s : State) (a : Nat) (b : Byte) : (s.setByte a b).prt = s.prt := (rfl)
@[simp] theorem setByte_ctc (s : State) (a : Nat) (b : Byte) : (s.setByte a b).ctc = s.ctc := (rfl)
@[simp] theorem setByte_loop (s : State) (a : Nat) (b : Byte) : (s.setByte a b).loop = s.loop := (rfl)
@[simp] theorem setByte_est (s : State) (a : Nat) (b : Byte) : (s.setByte a b).est = s.est := (rfl)
@[simp] theorem setByte_hmk (s : State) (a : Nat) (b : Byte) : (s.setByte a b).hmk = s.hmk := (rfl)
@[simp] theorem setByte_wiring (s : State) (a : Nat) (b : Byte) : (s.setByte a b).wiring = s.wiring := (rfl)
@[simp] theorem setByte_wiringNext (s : State) (a : Nat) (b : Byte) : (s.setByte a b).wiringNext = s.wiringNext := (rfl)
@[simp] theorem setByte_chn (s : State) (a : Nat) (b : Byte) : (s.setByte a b).chn = s.chn := (rfl)
@[simp] theorem setByte_clp (s : State) (a : Nat) (b : Byte) : (s.setByte a b).clp = s.clp := (rfl)
@[simp] theorem setByte_nug (s : State) (a : Nat) (b : Byte) : (s.setByte a b).nug = s.nug := (rfl)
@[simp] theorem setByte_jnl (s : State) (a : Nat) (b : Byte) : (s.setByte a b).jnl = s.jnl := (rfl)
@[simp] theorem setByte_pw (s : State) (a : Nat) (b : Byte) : (s.setByte a b).pw = s.pw := (rfl)
@[simp] theorem setByte_din (s : State) (a : Nat) (b : Byte) : (s.setByte a b).din = s.din := (rfl)

/-! ### setPoison -/

@[simp] theorem setPoison_pending (s : State) (a : Nat) (b : Bool) : (s.setPoison a b).pending = s.pending := (rfl)
@[simp] theorem setPoison_now (s : State) (a : Nat) (b : Bool) : (s.setPoison a b).now = s.now := (rfl)
@[simp] theorem setPoison_free (s : State) (a : Nat) (b : Bool) : (s.setPoison a b).free = s.free := (rfl)
@[simp] theorem setPoison_fx (s : State) (a : Nat) (b : Bool) : (s.setPoison a b).fx = s.fx := (rfl)
@[simp] theorem setPoison_lc (s : State) (a : Nat) (b : Bool) : (s.setPoison a b).lc = s.lc := (rfl)
@[simp] theorem setPoison_slotB (s : State) (a : Nat) (b : Bool) : (s.setPoison a b).slotB = s.slotB := (rfl)
@[simp] theorem setPoison_grid (s : State) (a : Nat) (b : Bool) : (s.setPoison a b).grid = s.grid := (rfl)
@[simp] theorem setPoison_time (s : State) (a : Nat) (b : Bool) : (s.setPoison a b).time = s.time := (rfl)
@[simp] theorem setPoison_regs (s : State) (a : Nat) (b : Bool) : (s.setPoison a b).regs = s.regs := (rfl)
@[simp] theorem setPoison_mem (s : State) (a : Nat) (b : Bool) : (s.setPoison a b).mem = s.mem := (rfl)
@[simp] theorem setPoison_evt (s : State) (a : Nat) (b : Bool) : (s.setPoison a b).evt = s.evt := (rfl)
@[simp] theorem setPoison_aud (s : State) (a : Nat) (b : Bool) : (s.setPoison a b).aud = s.aud := (rfl)
@[simp] theorem setPoison_mbx (s : State) (a : Nat) (b : Bool) : (s.setPoison a b).mbx = s.mbx := (rfl)
@[simp] theorem setPoison_seq (s : State) (a : Nat) (b : Bool) : (s.setPoison a b).seq = s.seq := (rfl)
@[simp] theorem setPoison_mac (s : State) (a : Nat) (b : Bool) : (s.setPoison a b).mac = s.mac := (rfl)
@[simp] theorem setPoison_eng (s : State) (a : Nat) (b : Bool) : (s.setPoison a b).eng = s.eng := (rfl)
@[simp] theorem setPoison_fr (s : State) (a : Nat) (b : Bool) : (s.setPoison a b).fr = s.fr := (rfl)
@[simp] theorem setPoison_scrub (s : State) (a : Nat) (b : Bool) : (s.setPoison a b).scrub = s.scrub := (rfl)
@[simp] theorem setPoison_ep (s : State) (a : Nat) (b : Bool) : (s.setPoison a b).ep = s.ep := (rfl)
@[simp] theorem setPoison_port (s : State) (a : Nat) (b : Bool) : (s.setPoison a b).port = s.port := (rfl)
@[simp] theorem setPoison_arb (s : State) (a : Nat) (b : Bool) : (s.setPoison a b).arb = s.arb := (rfl)
@[simp] theorem setPoison_pd (s : State) (a : Nat) (b : Bool) : (s.setPoison a b).pd = s.pd := (rfl)
@[simp] theorem setPoison_cle (s : State) (a : Nat) (b : Bool) : (s.setPoison a b).cle = s.cle := (rfl)
@[simp] theorem setPoison_vm (s : State) (a : Nat) (b : Bool) : (s.setPoison a b).vm = s.vm := (rfl)
@[simp] theorem setPoison_gov (s : State) (a : Nat) (b : Bool) : (s.setPoison a b).gov = s.gov := (rfl)
@[simp] theorem setPoison_prt (s : State) (a : Nat) (b : Bool) : (s.setPoison a b).prt = s.prt := (rfl)
@[simp] theorem setPoison_ctc (s : State) (a : Nat) (b : Bool) : (s.setPoison a b).ctc = s.ctc := (rfl)
@[simp] theorem setPoison_loop (s : State) (a : Nat) (b : Bool) : (s.setPoison a b).loop = s.loop := (rfl)
@[simp] theorem setPoison_est (s : State) (a : Nat) (b : Bool) : (s.setPoison a b).est = s.est := (rfl)
@[simp] theorem setPoison_hmk (s : State) (a : Nat) (b : Bool) : (s.setPoison a b).hmk = s.hmk := (rfl)
@[simp] theorem setPoison_wiring (s : State) (a : Nat) (b : Bool) : (s.setPoison a b).wiring = s.wiring := (rfl)
@[simp] theorem setPoison_wiringNext (s : State) (a : Nat) (b : Bool) : (s.setPoison a b).wiringNext = s.wiringNext := (rfl)
@[simp] theorem setPoison_chn (s : State) (a : Nat) (b : Bool) : (s.setPoison a b).chn = s.chn := (rfl)
@[simp] theorem setPoison_clp (s : State) (a : Nat) (b : Bool) : (s.setPoison a b).clp = s.clp := (rfl)
@[simp] theorem setPoison_nug (s : State) (a : Nat) (b : Bool) : (s.setPoison a b).nug = s.nug := (rfl)
@[simp] theorem setPoison_jnl (s : State) (a : Nat) (b : Bool) : (s.setPoison a b).jnl = s.jnl := (rfl)
@[simp] theorem setPoison_pw (s : State) (a : Nat) (b : Bool) : (s.setPoison a b).pw = s.pw := (rfl)
@[simp] theorem setPoison_din (s : State) (a : Nat) (b : Bool) : (s.setPoison a b).din = s.din := (rfl)

/-! ### unpoison -/

@[simp] theorem unpoison_pending (s : State) (a n : Nat) : (s.unpoison a n).pending = s.pending := (rfl)
@[simp] theorem unpoison_now (s : State) (a n : Nat) : (s.unpoison a n).now = s.now := (rfl)
@[simp] theorem unpoison_free (s : State) (a n : Nat) : (s.unpoison a n).free = s.free := (rfl)
@[simp] theorem unpoison_fx (s : State) (a n : Nat) : (s.unpoison a n).fx = s.fx := (rfl)
@[simp] theorem unpoison_lc (s : State) (a n : Nat) : (s.unpoison a n).lc = s.lc := (rfl)
@[simp] theorem unpoison_slotB (s : State) (a n : Nat) : (s.unpoison a n).slotB = s.slotB := (rfl)
@[simp] theorem unpoison_grid (s : State) (a n : Nat) : (s.unpoison a n).grid = s.grid := (rfl)
@[simp] theorem unpoison_time (s : State) (a n : Nat) : (s.unpoison a n).time = s.time := (rfl)
@[simp] theorem unpoison_regs (s : State) (a n : Nat) : (s.unpoison a n).regs = s.regs := (rfl)
@[simp] theorem unpoison_mem (s : State) (a n : Nat) : (s.unpoison a n).mem = s.mem := (rfl)
@[simp] theorem unpoison_evt (s : State) (a n : Nat) : (s.unpoison a n).evt = s.evt := (rfl)
@[simp] theorem unpoison_aud (s : State) (a n : Nat) : (s.unpoison a n).aud = s.aud := (rfl)
@[simp] theorem unpoison_mbx (s : State) (a n : Nat) : (s.unpoison a n).mbx = s.mbx := (rfl)
@[simp] theorem unpoison_seq (s : State) (a n : Nat) : (s.unpoison a n).seq = s.seq := (rfl)
@[simp] theorem unpoison_mac (s : State) (a n : Nat) : (s.unpoison a n).mac = s.mac := (rfl)
@[simp] theorem unpoison_eng (s : State) (a n : Nat) : (s.unpoison a n).eng = s.eng := (rfl)
@[simp] theorem unpoison_fr (s : State) (a n : Nat) : (s.unpoison a n).fr = s.fr := (rfl)
@[simp] theorem unpoison_scrub (s : State) (a n : Nat) : (s.unpoison a n).scrub = s.scrub := (rfl)
@[simp] theorem unpoison_ep (s : State) (a n : Nat) : (s.unpoison a n).ep = s.ep := (rfl)
@[simp] theorem unpoison_port (s : State) (a n : Nat) : (s.unpoison a n).port = s.port := (rfl)
@[simp] theorem unpoison_arb (s : State) (a n : Nat) : (s.unpoison a n).arb = s.arb := (rfl)
@[simp] theorem unpoison_pd (s : State) (a n : Nat) : (s.unpoison a n).pd = s.pd := (rfl)
@[simp] theorem unpoison_cle (s : State) (a n : Nat) : (s.unpoison a n).cle = s.cle := (rfl)
@[simp] theorem unpoison_vm (s : State) (a n : Nat) : (s.unpoison a n).vm = s.vm := (rfl)
@[simp] theorem unpoison_gov (s : State) (a n : Nat) : (s.unpoison a n).gov = s.gov := (rfl)
@[simp] theorem unpoison_prt (s : State) (a n : Nat) : (s.unpoison a n).prt = s.prt := (rfl)
@[simp] theorem unpoison_ctc (s : State) (a n : Nat) : (s.unpoison a n).ctc = s.ctc := (rfl)
@[simp] theorem unpoison_loop (s : State) (a n : Nat) : (s.unpoison a n).loop = s.loop := (rfl)
@[simp] theorem unpoison_est (s : State) (a n : Nat) : (s.unpoison a n).est = s.est := (rfl)
@[simp] theorem unpoison_hmk (s : State) (a n : Nat) : (s.unpoison a n).hmk = s.hmk := (rfl)
@[simp] theorem unpoison_wiring (s : State) (a n : Nat) : (s.unpoison a n).wiring = s.wiring := (rfl)
@[simp] theorem unpoison_wiringNext (s : State) (a n : Nat) : (s.unpoison a n).wiringNext = s.wiringNext := (rfl)
@[simp] theorem unpoison_chn (s : State) (a n : Nat) : (s.unpoison a n).chn = s.chn := (rfl)
@[simp] theorem unpoison_clp (s : State) (a n : Nat) : (s.unpoison a n).clp = s.clp := (rfl)
@[simp] theorem unpoison_nug (s : State) (a n : Nat) : (s.unpoison a n).nug = s.nug := (rfl)
@[simp] theorem unpoison_jnl (s : State) (a n : Nat) : (s.unpoison a n).jnl = s.jnl := (rfl)
@[simp] theorem unpoison_pw (s : State) (a n : Nat) : (s.unpoison a n).pw = s.pw := (rfl)
@[simp] theorem unpoison_din (s : State) (a n : Nat) : (s.unpoison a n).din = s.din := (rfl)

/-! ### at -/

@[simp] theorem at_pending (s : State) (t : Nat) : (s.at t).pending = s.pending := (rfl)
@[simp] theorem at_free (s : State) (t : Nat) : (s.at t).free = s.free := (rfl)
@[simp] theorem at_fx (s : State) (t : Nat) : (s.at t).fx = s.fx := (rfl)
@[simp] theorem at_lc (s : State) (t : Nat) : (s.at t).lc = s.lc := (rfl)
@[simp] theorem at_slotB (s : State) (t : Nat) : (s.at t).slotB = s.slotB := (rfl)
@[simp] theorem at_grid (s : State) (t : Nat) : (s.at t).grid = s.grid := (rfl)
@[simp] theorem at_time (s : State) (t : Nat) : (s.at t).time = s.time := (rfl)
@[simp] theorem at_regs (s : State) (t : Nat) : (s.at t).regs = s.regs := (rfl)
@[simp] theorem at_mem (s : State) (t : Nat) : (s.at t).mem = s.mem := (rfl)
@[simp] theorem at_poison (s : State) (t : Nat) : (s.at t).poison = s.poison := (rfl)
@[simp] theorem at_evt (s : State) (t : Nat) : (s.at t).evt = s.evt := (rfl)
@[simp] theorem at_aud (s : State) (t : Nat) : (s.at t).aud = s.aud := (rfl)
@[simp] theorem at_mbx (s : State) (t : Nat) : (s.at t).mbx = s.mbx := (rfl)
@[simp] theorem at_seq (s : State) (t : Nat) : (s.at t).seq = s.seq := (rfl)
@[simp] theorem at_mac (s : State) (t : Nat) : (s.at t).mac = s.mac := (rfl)
@[simp] theorem at_eng (s : State) (t : Nat) : (s.at t).eng = s.eng := (rfl)
@[simp] theorem at_fr (s : State) (t : Nat) : (s.at t).fr = s.fr := (rfl)
@[simp] theorem at_scrub (s : State) (t : Nat) : (s.at t).scrub = s.scrub := (rfl)
@[simp] theorem at_ep (s : State) (t : Nat) : (s.at t).ep = s.ep := (rfl)
@[simp] theorem at_port (s : State) (t : Nat) : (s.at t).port = s.port := (rfl)
@[simp] theorem at_arb (s : State) (t : Nat) : (s.at t).arb = s.arb := (rfl)
@[simp] theorem at_pd (s : State) (t : Nat) : (s.at t).pd = s.pd := (rfl)
@[simp] theorem at_cle (s : State) (t : Nat) : (s.at t).cle = s.cle := (rfl)
@[simp] theorem at_vm (s : State) (t : Nat) : (s.at t).vm = s.vm := (rfl)
@[simp] theorem at_gov (s : State) (t : Nat) : (s.at t).gov = s.gov := (rfl)
@[simp] theorem at_prt (s : State) (t : Nat) : (s.at t).prt = s.prt := (rfl)
@[simp] theorem at_ctc (s : State) (t : Nat) : (s.at t).ctc = s.ctc := (rfl)
@[simp] theorem at_loop (s : State) (t : Nat) : (s.at t).loop = s.loop := (rfl)
@[simp] theorem at_est (s : State) (t : Nat) : (s.at t).est = s.est := (rfl)
@[simp] theorem at_hmk (s : State) (t : Nat) : (s.at t).hmk = s.hmk := (rfl)
@[simp] theorem at_wiring (s : State) (t : Nat) : (s.at t).wiring = s.wiring := (rfl)
@[simp] theorem at_wiringNext (s : State) (t : Nat) : (s.at t).wiringNext = s.wiringNext := (rfl)
@[simp] theorem at_chn (s : State) (t : Nat) : (s.at t).chn = s.chn := (rfl)
@[simp] theorem at_clp (s : State) (t : Nat) : (s.at t).clp = s.clp := (rfl)
@[simp] theorem at_nug (s : State) (t : Nat) : (s.at t).nug = s.nug := (rfl)
@[simp] theorem at_jnl (s : State) (t : Nat) : (s.at t).jnl = s.jnl := (rfl)
@[simp] theorem at_pw (s : State) (t : Nat) : (s.at t).pw = s.pw := (rfl)
@[simp] theorem at_din (s : State) (t : Nat) : (s.at t).din = s.din := (rfl)

/-! ### updBox -/

@[simp] theorem updBox_pending (s : State) (n : Fin 64) (f : MbxSt → MbxSt) : (s.updBox n f).pending = s.pending := (rfl)
@[simp] theorem updBox_now (s : State) (n : Fin 64) (f : MbxSt → MbxSt) : (s.updBox n f).now = s.now := (rfl)
@[simp] theorem updBox_free (s : State) (n : Fin 64) (f : MbxSt → MbxSt) : (s.updBox n f).free = s.free := (rfl)
@[simp] theorem updBox_fx (s : State) (n : Fin 64) (f : MbxSt → MbxSt) : (s.updBox n f).fx = s.fx := (rfl)
@[simp] theorem updBox_lc (s : State) (n : Fin 64) (f : MbxSt → MbxSt) : (s.updBox n f).lc = s.lc := (rfl)
@[simp] theorem updBox_slotB (s : State) (n : Fin 64) (f : MbxSt → MbxSt) : (s.updBox n f).slotB = s.slotB := (rfl)
@[simp] theorem updBox_grid (s : State) (n : Fin 64) (f : MbxSt → MbxSt) : (s.updBox n f).grid = s.grid := (rfl)
@[simp] theorem updBox_time (s : State) (n : Fin 64) (f : MbxSt → MbxSt) : (s.updBox n f).time = s.time := (rfl)
@[simp] theorem updBox_regs (s : State) (n : Fin 64) (f : MbxSt → MbxSt) : (s.updBox n f).regs = s.regs := (rfl)
@[simp] theorem updBox_mem (s : State) (n : Fin 64) (f : MbxSt → MbxSt) : (s.updBox n f).mem = s.mem := (rfl)
@[simp] theorem updBox_poison (s : State) (n : Fin 64) (f : MbxSt → MbxSt) : (s.updBox n f).poison = s.poison := (rfl)
@[simp] theorem updBox_evt (s : State) (n : Fin 64) (f : MbxSt → MbxSt) : (s.updBox n f).evt = s.evt := (rfl)
@[simp] theorem updBox_aud (s : State) (n : Fin 64) (f : MbxSt → MbxSt) : (s.updBox n f).aud = s.aud := (rfl)
@[simp] theorem updBox_seq (s : State) (n : Fin 64) (f : MbxSt → MbxSt) : (s.updBox n f).seq = s.seq := (rfl)
@[simp] theorem updBox_mac (s : State) (n : Fin 64) (f : MbxSt → MbxSt) : (s.updBox n f).mac = s.mac := (rfl)
@[simp] theorem updBox_eng (s : State) (n : Fin 64) (f : MbxSt → MbxSt) : (s.updBox n f).eng = s.eng := (rfl)
@[simp] theorem updBox_fr (s : State) (n : Fin 64) (f : MbxSt → MbxSt) : (s.updBox n f).fr = s.fr := (rfl)
@[simp] theorem updBox_scrub (s : State) (n : Fin 64) (f : MbxSt → MbxSt) : (s.updBox n f).scrub = s.scrub := (rfl)
@[simp] theorem updBox_ep (s : State) (n : Fin 64) (f : MbxSt → MbxSt) : (s.updBox n f).ep = s.ep := (rfl)
@[simp] theorem updBox_port (s : State) (n : Fin 64) (f : MbxSt → MbxSt) : (s.updBox n f).port = s.port := (rfl)
@[simp] theorem updBox_arb (s : State) (n : Fin 64) (f : MbxSt → MbxSt) : (s.updBox n f).arb = s.arb := (rfl)
@[simp] theorem updBox_pd (s : State) (n : Fin 64) (f : MbxSt → MbxSt) : (s.updBox n f).pd = s.pd := (rfl)
@[simp] theorem updBox_cle (s : State) (n : Fin 64) (f : MbxSt → MbxSt) : (s.updBox n f).cle = s.cle := (rfl)
@[simp] theorem updBox_vm (s : State) (n : Fin 64) (f : MbxSt → MbxSt) : (s.updBox n f).vm = s.vm := (rfl)
@[simp] theorem updBox_gov (s : State) (n : Fin 64) (f : MbxSt → MbxSt) : (s.updBox n f).gov = s.gov := (rfl)
@[simp] theorem updBox_prt (s : State) (n : Fin 64) (f : MbxSt → MbxSt) : (s.updBox n f).prt = s.prt := (rfl)
@[simp] theorem updBox_ctc (s : State) (n : Fin 64) (f : MbxSt → MbxSt) : (s.updBox n f).ctc = s.ctc := (rfl)
@[simp] theorem updBox_loop (s : State) (n : Fin 64) (f : MbxSt → MbxSt) : (s.updBox n f).loop = s.loop := (rfl)
@[simp] theorem updBox_est (s : State) (n : Fin 64) (f : MbxSt → MbxSt) : (s.updBox n f).est = s.est := (rfl)
@[simp] theorem updBox_hmk (s : State) (n : Fin 64) (f : MbxSt → MbxSt) : (s.updBox n f).hmk = s.hmk := (rfl)
@[simp] theorem updBox_wiring (s : State) (n : Fin 64) (f : MbxSt → MbxSt) : (s.updBox n f).wiring = s.wiring := (rfl)
@[simp] theorem updBox_wiringNext (s : State) (n : Fin 64) (f : MbxSt → MbxSt) : (s.updBox n f).wiringNext = s.wiringNext := (rfl)
@[simp] theorem updBox_chn (s : State) (n : Fin 64) (f : MbxSt → MbxSt) : (s.updBox n f).chn = s.chn := (rfl)
@[simp] theorem updBox_clp (s : State) (n : Fin 64) (f : MbxSt → MbxSt) : (s.updBox n f).clp = s.clp := (rfl)
@[simp] theorem updBox_nug (s : State) (n : Fin 64) (f : MbxSt → MbxSt) : (s.updBox n f).nug = s.nug := (rfl)
@[simp] theorem updBox_jnl (s : State) (n : Fin 64) (f : MbxSt → MbxSt) : (s.updBox n f).jnl = s.jnl := (rfl)
@[simp] theorem updBox_pw (s : State) (n : Fin 64) (f : MbxSt → MbxSt) : (s.updBox n f).pw = s.pw := (rfl)
@[simp] theorem updBox_din (s : State) (n : Fin 64) (f : MbxSt → MbxSt) : (s.updBox n f).din = s.din := (rfl)

/-! ### updSess -/

@[simp] theorem updSess_pending (s : State) (i : Fin 64) (f : SessSt → SessSt) : (s.updSess i f).pending = s.pending := (rfl)
@[simp] theorem updSess_now (s : State) (i : Fin 64) (f : SessSt → SessSt) : (s.updSess i f).now = s.now := (rfl)
@[simp] theorem updSess_free (s : State) (i : Fin 64) (f : SessSt → SessSt) : (s.updSess i f).free = s.free := (rfl)
@[simp] theorem updSess_fx (s : State) (i : Fin 64) (f : SessSt → SessSt) : (s.updSess i f).fx = s.fx := (rfl)
@[simp] theorem updSess_lc (s : State) (i : Fin 64) (f : SessSt → SessSt) : (s.updSess i f).lc = s.lc := (rfl)
@[simp] theorem updSess_slotB (s : State) (i : Fin 64) (f : SessSt → SessSt) : (s.updSess i f).slotB = s.slotB := (rfl)
@[simp] theorem updSess_grid (s : State) (i : Fin 64) (f : SessSt → SessSt) : (s.updSess i f).grid = s.grid := (rfl)
@[simp] theorem updSess_time (s : State) (i : Fin 64) (f : SessSt → SessSt) : (s.updSess i f).time = s.time := (rfl)
@[simp] theorem updSess_regs (s : State) (i : Fin 64) (f : SessSt → SessSt) : (s.updSess i f).regs = s.regs := (rfl)
@[simp] theorem updSess_mem (s : State) (i : Fin 64) (f : SessSt → SessSt) : (s.updSess i f).mem = s.mem := (rfl)
@[simp] theorem updSess_poison (s : State) (i : Fin 64) (f : SessSt → SessSt) : (s.updSess i f).poison = s.poison := (rfl)
@[simp] theorem updSess_evt (s : State) (i : Fin 64) (f : SessSt → SessSt) : (s.updSess i f).evt = s.evt := (rfl)
@[simp] theorem updSess_aud (s : State) (i : Fin 64) (f : SessSt → SessSt) : (s.updSess i f).aud = s.aud := (rfl)
@[simp] theorem updSess_mbx (s : State) (i : Fin 64) (f : SessSt → SessSt) : (s.updSess i f).mbx = s.mbx := (rfl)
@[simp] theorem updSess_seq (s : State) (i : Fin 64) (f : SessSt → SessSt) : (s.updSess i f).seq = s.seq := (rfl)
@[simp] theorem updSess_mac (s : State) (i : Fin 64) (f : SessSt → SessSt) : (s.updSess i f).mac = s.mac := (rfl)
@[simp] theorem updSess_eng (s : State) (i : Fin 64) (f : SessSt → SessSt) : (s.updSess i f).eng = s.eng := (rfl)
@[simp] theorem updSess_fr (s : State) (i : Fin 64) (f : SessSt → SessSt) : (s.updSess i f).fr = s.fr := (rfl)
@[simp] theorem updSess_scrub (s : State) (i : Fin 64) (f : SessSt → SessSt) : (s.updSess i f).scrub = s.scrub := (rfl)
@[simp] theorem updSess_ep (s : State) (i : Fin 64) (f : SessSt → SessSt) : (s.updSess i f).ep = s.ep := (rfl)
@[simp] theorem updSess_port (s : State) (i : Fin 64) (f : SessSt → SessSt) : (s.updSess i f).port = s.port := (rfl)
@[simp] theorem updSess_arb (s : State) (i : Fin 64) (f : SessSt → SessSt) : (s.updSess i f).arb = s.arb := (rfl)
@[simp] theorem updSess_pd (s : State) (i : Fin 64) (f : SessSt → SessSt) : (s.updSess i f).pd = s.pd := (rfl)
@[simp] theorem updSess_cle (s : State) (i : Fin 64) (f : SessSt → SessSt) : (s.updSess i f).cle = s.cle := (rfl)
@[simp] theorem updSess_vm (s : State) (i : Fin 64) (f : SessSt → SessSt) : (s.updSess i f).vm = s.vm := (rfl)
@[simp] theorem updSess_gov (s : State) (i : Fin 64) (f : SessSt → SessSt) : (s.updSess i f).gov = s.gov := (rfl)
@[simp] theorem updSess_prt (s : State) (i : Fin 64) (f : SessSt → SessSt) : (s.updSess i f).prt = s.prt := (rfl)
@[simp] theorem updSess_ctc (s : State) (i : Fin 64) (f : SessSt → SessSt) : (s.updSess i f).ctc = s.ctc := (rfl)
@[simp] theorem updSess_loop (s : State) (i : Fin 64) (f : SessSt → SessSt) : (s.updSess i f).loop = s.loop := (rfl)
@[simp] theorem updSess_est (s : State) (i : Fin 64) (f : SessSt → SessSt) : (s.updSess i f).est = s.est := (rfl)
@[simp] theorem updSess_hmk (s : State) (i : Fin 64) (f : SessSt → SessSt) : (s.updSess i f).hmk = s.hmk := (rfl)
@[simp] theorem updSess_wiring (s : State) (i : Fin 64) (f : SessSt → SessSt) : (s.updSess i f).wiring = s.wiring := (rfl)
@[simp] theorem updSess_wiringNext (s : State) (i : Fin 64) (f : SessSt → SessSt) : (s.updSess i f).wiringNext = s.wiringNext := (rfl)
@[simp] theorem updSess_chn (s : State) (i : Fin 64) (f : SessSt → SessSt) : (s.updSess i f).chn = s.chn := (rfl)
@[simp] theorem updSess_clp (s : State) (i : Fin 64) (f : SessSt → SessSt) : (s.updSess i f).clp = s.clp := (rfl)
@[simp] theorem updSess_jnl (s : State) (i : Fin 64) (f : SessSt → SessSt) : (s.updSess i f).jnl = s.jnl := (rfl)
@[simp] theorem updSess_pw (s : State) (i : Fin 64) (f : SessSt → SessSt) : (s.updSess i f).pw = s.pw := (rfl)
@[simp] theorem updSess_din (s : State) (i : Fin 64) (f : SessSt → SessSt) : (s.updSess i f).din = s.din := (rfl)

/-! ### at and seal -/

@[simp] theorem at_now (s : State) (t : Nat) : (s.at t).now = max s.now t := (rfl)
@[simp] theorem seal_pending (s0 s1 : State) : (State.seal s0 s1).pending = s0.pending := (rfl)
@[simp] theorem seal_now (s0 s1 : State) : (State.seal s0 s1).now = s0.now := (rfl)
@[simp] theorem seal_free (s0 s1 : State) : (State.seal s0 s1).free = s1.free := (rfl)
@[simp] theorem seal_fx (s0 s1 : State) : (State.seal s0 s1).fx = s0.fx := (rfl)
@[simp] theorem seal_lc (s0 s1 : State) : (State.seal s0 s1).lc = s1.lc := (rfl)
@[simp] theorem seal_slotB (s0 s1 : State) : (State.seal s0 s1).slotB = s1.slotB := (rfl)
@[simp] theorem seal_grid (s0 s1 : State) : (State.seal s0 s1).grid = s1.grid := (rfl)
@[simp] theorem seal_time (s0 s1 : State) : (State.seal s0 s1).time = s1.time := (rfl)
@[simp] theorem seal_regs (s0 s1 : State) : (State.seal s0 s1).regs = s1.regs := (rfl)
@[simp] theorem seal_mem (s0 s1 : State) : (State.seal s0 s1).mem = s1.mem := (rfl)
@[simp] theorem seal_poison (s0 s1 : State) : (State.seal s0 s1).poison = s1.poison := (rfl)
@[simp] theorem seal_evt (s0 s1 : State) : (State.seal s0 s1).evt = s1.evt := (rfl)
@[simp] theorem seal_aud (s0 s1 : State) : (State.seal s0 s1).aud = s1.aud := (rfl)
@[simp] theorem seal_mbx (s0 s1 : State) : (State.seal s0 s1).mbx = s1.mbx := (rfl)
@[simp] theorem seal_seq (s0 s1 : State) : (State.seal s0 s1).seq = s1.seq := (rfl)
@[simp] theorem seal_mac (s0 s1 : State) : (State.seal s0 s1).mac = s1.mac := (rfl)
@[simp] theorem seal_eng (s0 s1 : State) : (State.seal s0 s1).eng = s1.eng := (rfl)
@[simp] theorem seal_fr (s0 s1 : State) : (State.seal s0 s1).fr = s1.fr := (rfl)
@[simp] theorem seal_scrub (s0 s1 : State) : (State.seal s0 s1).scrub = s1.scrub := (rfl)
@[simp] theorem seal_ep (s0 s1 : State) : (State.seal s0 s1).ep = s1.ep := (rfl)
@[simp] theorem seal_port (s0 s1 : State) : (State.seal s0 s1).port = s1.port := (rfl)
@[simp] theorem seal_arb (s0 s1 : State) : (State.seal s0 s1).arb = s1.arb := (rfl)
@[simp] theorem seal_pd (s0 s1 : State) : (State.seal s0 s1).pd = s1.pd := (rfl)
@[simp] theorem seal_cle (s0 s1 : State) : (State.seal s0 s1).cle = s1.cle := (rfl)
@[simp] theorem seal_vm (s0 s1 : State) : (State.seal s0 s1).vm = s1.vm := (rfl)
@[simp] theorem seal_gov (s0 s1 : State) : (State.seal s0 s1).gov = s1.gov := (rfl)
@[simp] theorem seal_prt (s0 s1 : State) : (State.seal s0 s1).prt = s1.prt := (rfl)
@[simp] theorem seal_ctc (s0 s1 : State) : (State.seal s0 s1).ctc = s1.ctc := (rfl)
@[simp] theorem seal_loop (s0 s1 : State) : (State.seal s0 s1).loop = s1.loop := (rfl)
@[simp] theorem seal_est (s0 s1 : State) : (State.seal s0 s1).est = s1.est := (rfl)
@[simp] theorem seal_hmk (s0 s1 : State) : (State.seal s0 s1).hmk = s1.hmk := (rfl)
@[simp] theorem seal_wiring (s0 s1 : State) : (State.seal s0 s1).wiring = s1.wiring := (rfl)
@[simp] theorem seal_wiringNext (s0 s1 : State) : (State.seal s0 s1).wiringNext = s1.wiringNext := (rfl)
@[simp] theorem seal_chn (s0 s1 : State) : (State.seal s0 s1).chn = s1.chn := (rfl)
@[simp] theorem seal_clp (s0 s1 : State) : (State.seal s0 s1).clp = s1.clp := (rfl)
@[simp] theorem seal_nug (s0 s1 : State) : (State.seal s0 s1).nug = s1.nug := (rfl)
@[simp] theorem seal_jnl (s0 s1 : State) : (State.seal s0 s1).jnl = s1.jnl := (rfl)
@[simp] theorem seal_pw (s0 s1 : State) : (State.seal s0 s1).pw = s1.pw := (rfl)
@[simp] theorem seal_din (s0 s1 : State) : (State.seal s0 s1).din = s1.din := (rfl)

end Sys2Proof.Machine
end

