-- ==== Sys2Proof/Laws/Ops.lean ====
section
/-!
SUPPORT. The laws of the shared operations: a register, a field and a byte read after a write, the canonical forms that every write
keeps, and, once for each operation over the event fabric, everything that it can do.
-/
namespace Sys2Proof.Machine

/-! ## Registers -/

@[simp] theorem reg_setReg_same (s : State) (a v : Nat) : (s.setReg a v).reg a = v % 2 ^ 64 := by
  simp only [State.reg, State.setReg]
  rw [sparseGet_set_same]
  simp

theorem reg_setReg_ne (s : State) (a b v : Nat) (h : b ≠ a) : (s.setReg a v).reg b = s.reg b := by
  simp only [State.reg, State.setReg]
  rw [sparseGet_set_ne _ _ _ _ _ h]

theorem reg_setReg (s : State) (a b v : Nat) : (s.setReg a v).reg b = if b = a then v % 2 ^ 64 else s.reg b := by
  by_cases h : b = a
  · subst h; simp
  · simp [h, reg_setReg_ne]

/-- A register read depends on the register table and the factory values only. -/
theorem reg_congr {s t : State} (h1 : t.regs = s.regs) (h2 : t.fx = s.fx) (a : Nat) : t.reg a = s.reg a := by
  simp only [State.reg, h1, h2]

theorem reg_lt (s : State) (a : Nat) : s.reg a < 2 ^ 64 := (sparseGet (regDefault s.fx) s.regs a).isLt

/-- A write keeps the register table's canonical form. -/
theorem setReg_wf (s : State) (a v : Nat) (h : sparseWf (regDefault s.fx) s.regs = true) :
    sparseWf (regDefault (s.setReg a v).fx) (s.setReg a v).regs = true := by
  simp only [State.setReg]
  exact sparseWf_set _ _ _ _ h

/-! ## Fields -/

theorem fieldOf_le (v lo w : Nat) : fieldOf v lo w * 2 ^ lo ≤ v := by
  unfold fieldOf
  calc (v / 2 ^ lo) % 2 ^ w * 2 ^ lo ≤ v / 2 ^ lo * 2 ^ lo := Nat.mul_le_mul_right _ (Nat.mod_le _ _)
    _ ≤ v := Nat.div_mul_le_self _ _

/-- A number is its high part, a field and its low part. -/
theorem field_split (v lo w : Nat) :
    v = v / 2 ^ (lo + w) * 2 ^ (lo + w) + fieldOf v lo w * 2 ^ lo + v % 2 ^ lo := by
  unfold fieldOf
  have h1 := Nat.div_add_mod v (2 ^ lo)
  have h2 := Nat.div_add_mod (v / 2 ^ lo) (2 ^ w)
  rw [Nat.div_div_eq_div_mul, ← Nat.pow_add] at h2
  have h3 : 2 ^ lo * (v / 2 ^ lo) = v / 2 ^ (lo + w) * 2 ^ (lo + w) + (v / 2 ^ lo) % 2 ^ w * 2 ^ lo := by
    conv_lhs => rw [← h2]
    rw [Nat.pow_add]; ring
  omega

theorem withField_eq (v lo w x : Nat) :
    withField v lo w x = v / 2 ^ (lo + w) * 2 ^ (lo + w) + (x % 2 ^ w) * 2 ^ lo + v % 2 ^ lo := by
  have h := field_split v lo w
  unfold withField
  omega

theorem fieldOf_withField_same (v lo w x : Nat) : fieldOf (withField v lo w x) lo w = x % 2 ^ w := by
  rw [withField_eq]
  unfold fieldOf
  have h : v / 2 ^ (lo + w) * 2 ^ (lo + w) + x % 2 ^ w * 2 ^ lo + v % 2 ^ lo =
      v % 2 ^ lo + 2 ^ lo * (v / 2 ^ (lo + w) * 2 ^ w + x % 2 ^ w) := by rw [Nat.pow_add]; ring
  rw [h, Nat.add_mul_div_left _ _ (Nat.two_pow_pos lo), Nat.div_eq_of_lt (Nat.mod_lt _ (Nat.two_pow_pos lo)), Nat.zero_add,
    Nat.mul_comm, Nat.mul_add_mod, Nat.mod_mod]

/-- A field above the one written. -/
theorem fieldOf_withField_above (v lo w x lo' w' : Nat) (h : lo + w ≤ lo') :
    fieldOf (withField v lo w x) lo' w' = fieldOf v lo' w' := by
  have key : withField v lo w x / 2 ^ (lo + w) = v / 2 ^ (lo + w) := by
    rw [withField_eq]
    have hlt : x % 2 ^ w * 2 ^ lo + v % 2 ^ lo < 2 ^ (lo + w) := by
      have h1 := Nat.mod_lt x (Nat.two_pow_pos w)
      have h2 := Nat.mod_lt v (Nat.two_pow_pos lo)
      have h3 : (x % 2 ^ w + 1) * 2 ^ lo ≤ 2 ^ w * 2 ^ lo := Nat.mul_le_mul_right _ h1
      rw [Nat.pow_add, Nat.mul_comm (2 ^ lo)]
      nlinarith
    rw [Nat.add_assoc, Nat.mul_comm, Nat.mul_add_div (Nat.two_pow_pos _), Nat.div_eq_of_lt hlt, Nat.add_zero]
  have e : lo' = (lo + w) + (lo' - (lo + w)) := by omega
  unfold fieldOf
  rw [e, Nat.pow_add, ← Nat.div_div_eq_div_mul, ← Nat.div_div_eq_div_mul, key]

/-- A field below the one written. -/
theorem fieldOf_withField_below (v lo w x lo' w' : Nat) (h : lo' + w' ≤ lo) :
    fieldOf (withField v lo w x) lo' w' = fieldOf v lo' w' := by
  have key : withField v lo w x % 2 ^ lo = v % 2 ^ lo := by
    rw [withField_eq]
    have e : v / 2 ^ (lo + w) * 2 ^ (lo + w) + x % 2 ^ w * 2 ^ lo + v % 2 ^ lo =
        v % 2 ^ lo + 2 ^ lo * (v / 2 ^ (lo + w) * 2 ^ w + x % 2 ^ w) := by rw [Nat.pow_add]; ring
    rw [e, Nat.add_mul_mod_self_left, Nat.mod_mod]
  have g : ∀ y : Nat, fieldOf (y % 2 ^ lo) lo' w' = fieldOf y lo' w' := by
    intro y
    unfold fieldOf
    have e : lo = lo' + (lo - lo') := by omega
    rw [e, Nat.pow_add, Nat.mod_mul_right_div_self, Nat.mod_mod_of_dvd]
    exact Nat.pow_dvd_pow 2 (by omega)
  rw [← g, key, g]

/-- Another field than the one written, wholly above or below it. -/
theorem fieldOf_withField_ne (v lo w x lo' w' : Nat) (h : lo + w ≤ lo' ∨ lo' + w' ≤ lo) :
    fieldOf (withField v lo w x) lo' w' = fieldOf v lo' w' := by
  rcases h with h | h
  · exact fieldOf_withField_above v lo w x lo' w' h
  · exact fieldOf_withField_below v lo w x lo' w' h

theorem withField_lt (v lo w x : Nat) (hv : v < 2 ^ 64) (h : lo + w ≤ 64) : withField v lo w x < 2 ^ 64 := by
  rw [withField_eq]
  have e : (2 : Nat) ^ 64 = 2 ^ (64 - (lo + w)) * 2 ^ (lo + w) := by rw [← Nat.pow_add]; congr 1; omega
  have h1 : v / 2 ^ (lo + w) < 2 ^ (64 - (lo + w)) := by
    rw [Nat.div_lt_iff_lt_mul (Nat.two_pow_pos _), ← e]; exact hv
  have h2 := Nat.mod_lt x (Nat.two_pow_pos w)
  have h3 := Nat.mod_lt v (Nat.two_pow_pos lo)
  have h4 : (x % 2 ^ w + 1) * 2 ^ lo ≤ 2 ^ w * 2 ^ lo := Nat.mul_le_mul_right _ h2
  have h5 : (v / 2 ^ (lo + w) + 1) * 2 ^ (lo + w) ≤ 2 ^ (64 - (lo + w)) * 2 ^ (lo + w) := Nat.mul_le_mul_right _ h1
  have h6 : (2 : Nat) ^ (lo + w) = 2 ^ w * 2 ^ lo := by rw [Nat.pow_add, Nat.mul_comm]
  rw [e]
  nlinarith

theorem reg_setFld_same (s : State) (a lo w x : Nat) (h : lo + w ≤ 64) :
    (s.setFld a lo w x).reg a = withField (s.reg a) lo w x := by
  unfold State.setFld
  rw [reg_setReg_same, Nat.mod_eq_of_lt (withField_lt _ _ _ _ (reg_lt s a) h)]

theorem reg_setFld_ne (s : State) (a b lo w x : Nat) (h : b ≠ a) : (s.setFld a lo w x).reg b = s.reg b :=
  reg_setReg_ne s a b _ h

theorem fld_setFld_same (s : State) (a lo w x : Nat) (h : lo + w ≤ 64) : (s.setFld a lo w x).fld a lo w = x % 2 ^ w := by
  unfold State.fld
  rw [reg_setFld_same s a lo w x h, fieldOf_withField_same]

theorem fld_setFld_ne (s : State) (a lo w x lo' w' : Nat) (h : lo + w ≤ 64) (hd : lo + w ≤ lo' ∨ lo' + w' ≤ lo) :
    (s.setFld a lo w x).fld a lo' w' = s.fld a lo' w' := by
  unfold State.fld
  rw [reg_setFld_same s a lo w x h, fieldOf_withField_ne _ _ _ _ _ _ hd]

theorem fld_setFld_reg (s : State) (a b lo w x lo' w' : Nat) (h : b ≠ a) :
    (s.setFld a lo w x).fld b lo' w' = s.fld b lo' w' := by
  unfold State.fld
  rw [reg_setFld_ne s a b lo w x h]

theorem bit_setBit_same (s : State) (a i : Nat) (b : Bool) (h : i < 64) : (s.setBit a i b).bit a i = b := by
  unfold State.bit State.setBit bitOf
  have := fld_setFld_same s a i 1 (b2n b) (by omega)
  unfold State.fld at this
  rw [this]
  cases b <;> simp [b2n]

/-! ## Memory -/

@[simp] theorem byte_setByte_same (s : State) (a : Nat) (b : Byte) : (s.setByte a b).byte a = b := by
  simp only [State.byte, State.setByte]
  exact sparseGet_set_same _ _ _ _

theorem byte_setByte_ne (s : State) (a c : Nat) (b : Byte) (h : c ≠ a) : (s.setByte a b).byte c = s.byte c := by
  simp only [State.byte, State.setByte]
  exact sparseGet_set_ne _ _ _ _ _ h

theorem setByte_wf (s : State) (a : Nat) (b : Byte) (h : Memory.wf s.mem) : Memory.wf (s.setByte a b).mem :=
  sparseWf_set _ _ _ _ h

theorem setBytes_wf (l : List Byte) : ∀ (s : State) (a : Nat), Memory.wf s.mem → Memory.wf (s.setBytes a l).mem := by
  induction l with
  | nil => intro s a h; exact h
  | cons b bs ih => intro s a h; exact ih _ _ (setByte_wf s a b h)

/-- Outside the bytes written, memory reads as before. -/
theorem byte_setBytes_outside (l : List Byte) : ∀ (s : State) (a c : Nat), c < a ∨ a + l.length ≤ c →
    (s.setBytes a l).byte c = s.byte c := by
  induction l with
  | nil => intro s a c _; rfl
  | cons b bs ih =>
    intro s a c h
    simp only [List.length_cons] at h
    rw [State.setBytes, ih _ _ _ (by omega), byte_setByte_ne _ _ _ _ (by omega)]

/-- A read of the bytes written gives them. -/
theorem byte_setBytes_inside (l : List Byte) : ∀ (s : State) (a k : Nat) (h : k < l.length),
    (s.setBytes a l).byte (a + k) = l[k] := by
  induction l with
  | nil => intro s a k h; simp at h
  | cons b bs ih =>
    intro s a k h
    rw [State.setBytes]
    cases k with
    | zero => rw [byte_setBytes_outside _ _ _ _ (by omega)]; simp
    | succ k =>
      have e : a + (k + 1) = (a + 1) + k := by omega
      rw [e, ih _ _ _ (by simpa using h)]
      simp

end Sys2Proof.Machine
end

