-- ==== Sys2Proof/Laws/Events.lean ====
section
/-!
SUPPORT. What the operations of the event fabric can do, said once for each (R438, R439, R442, R444): they move the event rings, the
Pocket, the notice's mailbox and the registers that `eventReg` names, and leave every other piece of state alone.
-/
namespace Sys2Proof.Machine

/-- The state differs from another at most in what the event fabric moves, and in registers of which `P` holds. -/
structure FabricOnly (P : Nat → Prop) (s t : State) : Prop where
  reg : ∀ a, ¬ P a → t.reg a = s.reg a
  pending : t.pending = s.pending
  now : t.now = s.now
  free : t.free = s.free
  fx : t.fx = s.fx
  lc : t.lc = s.lc
  slotB : t.slotB = s.slotB
  grid : t.grid = s.grid
  time : t.time = s.time
  mem : t.mem = s.mem
  poison : t.poison = s.poison
  aud : t.aud = s.aud
  seq : t.seq = s.seq
  mac : t.mac = s.mac
  eng : t.eng = s.eng
  fr : t.fr = s.fr
  scrub : t.scrub = s.scrub
  ep : t.ep = s.ep
  port : t.port = s.port
  arb : t.arb = s.arb
  pd : t.pd = s.pd
  cle : t.cle = s.cle
  vm : t.vm = s.vm
  gov : t.gov = s.gov
  prt : t.prt = s.prt
  ctc : t.ctc = s.ctc
  loop : t.loop = s.loop
  est : t.est = s.est
  hmk : t.hmk = s.hmk
  wiring : t.wiring = s.wiring
  wiringNext : t.wiringNext = s.wiringNext
  chn : t.chn = s.chn
  clp : t.clp = s.clp
  din : t.din = s.din

theorem FabricOnly.refl (P : Nat → Prop) (s : State) : FabricOnly P s s := by
  constructor <;> intros <;> rfl

theorem FabricOnly.trans {P : Nat → Prop} {s t u : State} (h : FabricOnly P s t) (g : FabricOnly P t u) : FabricOnly P s u where
  reg a ha := (g.reg a ha).trans (h.reg a ha)
  pending := g.pending.trans h.pending
  now := g.now.trans h.now
  free := g.free.trans h.free
  fx := g.fx.trans h.fx
  lc := g.lc.trans h.lc
  slotB := g.slotB.trans h.slotB
  grid := g.grid.trans h.grid
  time := g.time.trans h.time
  mem := g.mem.trans h.mem
  poison := g.poison.trans h.poison
  aud := g.aud.trans h.aud
  seq := g.seq.trans h.seq
  mac := g.mac.trans h.mac
  eng := g.eng.trans h.eng
  fr := g.fr.trans h.fr
  scrub := g.scrub.trans h.scrub
  ep := g.ep.trans h.ep
  port := g.port.trans h.port
  arb := g.arb.trans h.arb
  pd := g.pd.trans h.pd
  cle := g.cle.trans h.cle
  vm := g.vm.trans h.vm
  gov := g.gov.trans h.gov
  prt := g.prt.trans h.prt
  ctc := g.ctc.trans h.ctc
  loop := g.loop.trans h.loop
  est := g.est.trans h.est
  hmk := g.hmk.trans h.hmk
  wiring := g.wiring.trans h.wiring
  wiringNext := g.wiringNext.trans h.wiringNext
  chn := g.chn.trans h.chn
  clp := g.clp.trans h.clp
  din := g.din.trans h.din

theorem FabricOnly.mono {P Q : Nat → Prop} {s t : State} (h : FabricOnly P s t) (hpq : ∀ a, P a → Q a) : FabricOnly Q s t :=
  { h with reg := fun a ha => h.reg a (fun hp => ha (hpq a hp)) }

theorem FabricOnly.setReg {P : Nat → Prop} (s : State) (a v : Nat) (h : P a) : FabricOnly P s (s.setReg a v) := by
  constructor
  · intro b hb
    exact reg_setReg_ne s a b v (fun e => hb (e ▸ h))
  all_goals simp

theorem FabricOnly.setFld {P : Nat → Prop} (s : State) (a lo w x : Nat) (h : P a) : FabricOnly P s (s.setFld a lo w x) :=
  FabricOnly.setReg s a _ h

theorem FabricOnly.setBit {P : Nat → Prop} (s : State) (a i : Nat) (b : Bool) (h : P a) : FabricOnly P s (s.setBit a i b) :=
  FabricOnly.setReg s a _ h

theorem FabricOnly.stampReg {P : Nat → Prop} (s : State) (a : Nat) (h : P a) : FabricOnly P s (s.stampReg a) :=
  FabricOnly.setReg s a _ h

theorem FabricOnly.set_mbx (P : Nat → Prop) (s : State) (x : MbxGrp) : FabricOnly P s { s with mbx := x } := by
  constructor
  · intro a _; exact reg_congr rfl rfl a
  all_goals rfl

theorem FabricOnly.set_pw (P : Nat → Prop) (s : State) (x : PowerSt) : FabricOnly P s { s with pw := x } := by
  constructor
  · intro a _; exact reg_congr rfl rfl a
  all_goals rfl

theorem FabricOnly.set_nug (P : Nat → Prop) (s : State) (x : NugSt) : FabricOnly P s { s with nug := x } := by
  constructor
  · intro a _; exact reg_congr rfl rfl a
  all_goals rfl

theorem FabricOnly.set_evt (P : Nat → Prop) (s : State) (x : EvtSt) : FabricOnly P s { s with evt := x } := by
  constructor
  · intro a _; exact reg_congr rfl rfl a
  all_goals rfl

theorem FabricOnly.set_jnl (P : Nat → Prop) (s : State) (x : JnlSt) : FabricOnly P s { s with jnl := x } := by
  constructor
  · intro a _; exact reg_congr rfl rfl a
  all_goals rfl

/-! ## The notice (R444) -/

/-- The registers that a notice may move. -/
def noticeReg (a : Nat) : Prop := a = Reg.NUG_STS ∨ (0x92300 ≤ a ∧ a < 0x92340)

theorem mbxSelf_notice (s : State) (msg : BitVec 2048) : FabricOnly noticeReg s (s.mbxSelf 40 0 msg) := by
  have m : ∀ o, o < 0x40 → noticeReg (0x92300 + o) := fun o h => Or.inr ⟨by omega, by omega⟩
  have e1 : noticeReg (Reg.MBX_STS 40) := m 4 (by omega)
  have e2 : noticeReg (Reg.MBX_COLLIDE_CNT 40) := m 0x1C (by omega)
  have e3 : noticeReg (Reg.MBX_SEQ 40) := m 8 (by omega)
  have e4 : noticeReg (Reg.MBX_POST_STAMP 40) := m 0x20 (by omega)
  have e5 : noticeReg (Reg.MBX_FETCH_SEQ 40) := m 0xC (by omega)
  have e6 : noticeReg (Reg.MBX_ACK_CODE 40) := m 0x14 (by omega)
  have e7 : noticeReg (Reg.MBX_ACK_SEQ 40) := m 0x18 (by omega)
  have e8 : noticeReg (Reg.MBX_ACK_STAMP 40) := m 0x28 (by omega)
  have e9 : noticeReg Reg.NUG_STS := Or.inl rfl
  have hput : ∀ (s : State) (ag : Nat) (p : Option (Fin 64)), FabricOnly noticeReg s (s.mbxPut 40 ag msg p) := by
    intro s ag p
    unfold State.mbxPut
    refine FabricOnly.trans ?_ (FabricOnly.set_mbx _ _ _)
    refine FabricOnly.trans ?_ (FabricOnly.setFld _ _ _ _ _ e1)
    refine FabricOnly.trans ?_ (FabricOnly.setBit _ _ _ _ e1)
    refine FabricOnly.trans ?_ (FabricOnly.setBit _ _ _ _ e1)
    refine FabricOnly.trans ?_ (FabricOnly.stampReg _ _ e4)
    refine FabricOnly.trans ?_ (FabricOnly.setReg _ _ _ e3)
    split
    · exact FabricOnly.trans (FabricOnly.setBit _ _ _ _ e1) (FabricOnly.setReg _ _ _ e2)
    · exact FabricOnly.refl _ _
  have htaken : ∀ s : State, FabricOnly noticeReg s (s.mbxTaken 40) := by
    intro s
    unfold State.mbxTaken State.updBox
    exact FabricOnly.trans (FabricOnly.setReg _ _ _ e5) (FabricOnly.set_mbx _ _ _)
  have hnot : ∀ (s : State) (p : Fin 64 → SessSt → Bool), FabricOnly noticeReg s (s.notify p) := by
    intro s p
    unfold State.notify
    exact FabricOnly.set_mbx _ _ _
  have hbox : ∀ (s : State) (f : MbxSt → MbxSt), FabricOnly noticeReg s (s.updBox 40 f) := by
    intro s f
    unfold State.updBox
    exact FabricOnly.set_mbx _ _ _
  have hend : ∀ (u : State) (b : MbxSt) (x : NugSt) (p : Fin 64 → SessSt → Bool), FabricOnly noticeReg u
      (if b.fromAgent = 4 then { u with nug := x } else if b.fromAgent = 3 then u.notify p else u) := by
    intro u b x p
    split
    · exact FabricOnly.set_nug _ _ _
    · split
      · exact hnot _ _
      · exact FabricOnly.refl _ _
  have hack : ∀ (s : State) (c : Nat), FabricOnly noticeReg s (s.mbxAck 40 c) := by
    intro s c
    unfold State.mbxAck
    have h0 : FabricOnly noticeReg s (((s.setReg (Reg.MBX_ACK_CODE (40 : Fin 64)) (c % 65536)).setReg (Reg.MBX_ACK_SEQ (40 : Fin 64))
        (s.reg (Reg.MBX_FETCH_SEQ (40 : Fin 64)))).stampReg (Reg.MBX_ACK_STAMP (40 : Fin 64))) :=
      FabricOnly.trans (FabricOnly.trans (FabricOnly.setReg _ _ _ e6) (FabricOnly.setReg _ _ _ e7)) (FabricOnly.stampReg _ _ e8)
    have h1 := FabricOnly.trans h0 (FabricOnly.setBit _ (Reg.MBX_STS (40 : Fin 64)) 2 true e1)
    have h2 : ∀ (u : State), FabricOnly noticeReg s u → FabricOnly noticeReg s
        ((if u.reg (Reg.MBX_SEQ (40 : Fin 64)) = s.reg (Reg.MBX_FETCH_SEQ (40 : Fin 64)) then u.setBit (Reg.MBX_STS (40 : Fin 64)) 0 false else u)) := by
      intro u hu
      split
      · exact FabricOnly.trans hu (FabricOnly.setBit _ _ _ _ e1)
      · exact hu
    have h3 := FabricOnly.trans (h2 _ h1) (hbox _ (fun x => { x with fetched := false }))
    dsimp only
    exact FabricOnly.trans h3 (hend _ _ _ _)
  unfold State.mbxSelf
  split
  · unfold State.mbxArrive
    dsimp only
    refine FabricOnly.trans (hput s 0 none) ?_
    generalize s.mbxPut 40 0 msg none = u
    split
    · split
      · exact FabricOnly.trans (FabricOnly.set_pw _ _ _) (FabricOnly.setBit _ _ _ _ e9)
      · exact FabricOnly.refl _ _
    · split
      · exact hnot _ _
      · exact FabricOnly.refl _ _
    · split
      · exact FabricOnly.refl _ _
      · refine FabricOnly.trans (htaken u) ?_
        split
        · exact FabricOnly.set_nug _ _ _
        · exact hack _ _
    · exact FabricOnly.refl _ _
  · exact FabricOnly.refl _ _

/-- All a notice can do. -/
theorem irqNotice_only (s : State) (page : Nat) : FabricOnly noticeReg s (s.irqNotice page) := by
  unfold State.irqNotice
  split
  · exact mbxSelf_notice s _
  · exact FabricOnly.refl _ _

/-! ## Interrupts, counters and events (R439, R442) -/

/-- All a rise of interrupt bits can do: bits of the page's IRQ_STS, and the notice. -/
theorem irqSet_only (s : State) (page mask : Nat) :
    FabricOnly (fun a => a = Reg.IRQ_STS page ∨ noticeReg a) s (s.irqSet page mask) := by
  unfold State.irqSet
  dsimp only
  split
  · exact FabricOnly.trans (FabricOnly.setReg s _ _ (Or.inl rfl)) ((irqNotice_only _ page).mono (fun _ h => Or.inr h))
  · exact FabricOnly.setReg s _ _ (Or.inl rfl)

/-- All the advance of a counter can do: the counter, and at saturation its page's SAT (R439). -/
theorem addCnt_only (s : State) (a n : Nat) :
    FabricOnly (fun b => b = a ∨ b = Reg.IRQ_STS (a / 4096) ∨ noticeReg b) s (s.addCnt a n) := by
  unfold State.addCnt
  dsimp only
  split
  · exact FabricOnly.trans (FabricOnly.setReg s _ _ (Or.inl rfl)) ((irqSet_only _ _ 8).mono (fun _ h => Or.inr h))
  · exact FabricOnly.setReg s _ _ (Or.inl rfl)

theorem eventReg_notice (page a : Nat) (h : noticeReg a) : eventReg page a = true := by
  rcases h with h | ⟨h1, h2⟩
  · simp [eventReg, h]
  · simp [eventReg, h1, h2]

theorem evRingPut_only (s : State) (e : EvRec) (page : Nat) :
    FabricOnly (fun a => eventReg page a = true) s (s.evRingPut e) := by
  unfold State.evRingPut State.inc
  dsimp only
  refine FabricOnly.trans ?_ (FabricOnly.set_evt _ _ _)
  refine FabricOnly.trans ?_ (FabricOnly.setReg _ _ _ (by simp [eventReg]))
  split
  · refine (addCnt_only s _ 1).mono ?_
    rintro a (h | h | h)
    · simp [eventReg, h]
    · simp [eventReg, h, Reg.EVT_LOST]
    · exact eventReg_notice page a h
  · exact FabricOnly.refl _ _

theorem evPdPut_only (s : State) (e : EvRec) (page : Nat) :
    FabricOnly (fun a => eventReg page a = true) s (s.evPdPut e) := by
  unfold State.evPdPut State.inc
  dsimp only
  refine FabricOnly.trans ?_ (FabricOnly.set_evt _ _ _)
  split
  · refine (addCnt_only s _ 1).mono ?_
    rintro a (h | h | h)
    · simp [eventReg, h]
    · simp [eventReg, h, Reg.EVT_LOST]
    · exact eventReg_notice page a h
  · exact FabricOnly.refl _ _

theorem pocketFault_only (s : State) (e : EvRec) (page : Nat) :
    FabricOnly (fun a => eventReg page a = true) s (s.pocketFault e) := by
  unfold State.pocketFault
  dsimp only
  exact FabricOnly.trans (FabricOnly.setReg _ _ _ (by simp [eventReg])) (FabricOnly.set_jnl _ _ _)

theorem post_irq_only (s : State) (page sev : Nat) :
    FabricOnly (fun a => eventReg page a = true) s
      ((if 1 ≤ sev then s.irqSet page 4 else s).stampReg (Reg.LAST_EVT_STAMP page)) := by
  refine FabricOnly.trans ?_ (FabricOnly.stampReg _ _ (by simp [eventReg]))
  split
  · refine (irqSet_only s page 4).mono ?_
    rintro a (h | h)
    · simp [eventReg, h]
    · exact eventReg_notice page a h
  · exact FabricOnly.refl _ _

/-- All that the record of an event can do (R442): `q` may be any page, the fabric's own registers are the same for all. -/
theorem postRecord_only (s : State) (page sev code unit cause v0 v1 v2 q : Nat) :
    FabricOnly (fun a => eventReg q a = true) s (s.postRecord page sev code unit cause v0 v1 v2) := by
  unfold State.postRecord
  dsimp only
  split
  · exact FabricOnly.refl _ _
  · split
    · exact FabricOnly.set_evt _ _ _
    · exact FabricOnly.set_evt _ _ _
    · split
      · split
        · exact FabricOnly.trans (evPdPut_only _ _ q) (pocketFault_only _ _ q)
        · exact evPdPut_only _ _ q
      · split
        · exact evRingPut_only _ _ q
        · exact FabricOnly.refl _ _

/-- All that posting an event can do (R442). -/
theorem post_only (s : State) (page sev code unit cause v0 v1 v2 : Nat) :
    FabricOnly (fun a => eventReg page a = true) s (s.post page sev code unit cause v0 v1 v2) :=
  FabricOnly.trans (post_irq_only s page sev) (postRecord_only _ _ _ _ _ _ _ _ _ page)

/-- All that a transition of STATE can do (R438). -/
theorem setBlk_only (s : State) (page st cause : Nat) :
    FabricOnly (fun a => a = Reg.BLK_STS page ∨ eventReg page a = true) s (s.setBlk page st cause) := by
  unfold State.setBlk
  dsimp only
  split
  · exact FabricOnly.setFld _ _ _ _ _ (Or.inl rfl)
  · refine FabricOnly.trans (FabricOnly.trans (FabricOnly.trans (FabricOnly.setFld s _ 0 3 st (Or.inl rfl))
      (FabricOnly.setFld _ _ 8 8 cause (Or.inl rfl))) ?_) ((post_only _ _ _ _ _ _ _ _ _).mono (fun _ h => Or.inr h))
    refine (irqSet_only _ page _).mono ?_
    rintro a (h | h)
    · exact Or.inr (by simp [eventReg, h])
    · exact Or.inr (eventReg_notice page a h)

end Sys2Proof.Machine
end

