-- ==== Sys2Proof/Laws/Reads.lean ====
section
/-!
SUPPORT. Reading the state after the operations of the event fabric: one lemma per field they leave alone, and the register reads.
A register read is brought to `regAt`, the read of a register table, so that it does not depend on how a state was written down.
-/
namespace Sys2Proof.Machine

/-- The value that a register table holds at an address. -/
def regAt (fx : Fuses) (l : List (Nat × DWord)) (a : Nat) : Nat := (sparseGet (regDefault fx) l a).toNat

theorem reg_eq (s : State) (a : Nat) : s.reg a = regAt s.fx s.regs a := rfl

theorem regAt_lt (fx : Fuses) (l : List (Nat × DWord)) (a : Nat) : regAt fx l a < 2 ^ 64 := (sparseGet (regDefault fx) l a).isLt

theorem regAt_setReg (s : State) (fx : Fuses) (a b v : Nat) (h : s.fx = fx) :
    regAt fx (s.setReg a v).regs b = if b = a then v % 2 ^ 64 else regAt fx s.regs b := by
  subst h; exact reg_setReg s a b v

theorem regAt_stampReg (s : State) (fx : Fuses) (a b : Nat) (h : s.fx = fx) :
    regAt fx (s.stampReg a).regs b = if b = a then s.now % 2 ^ 64 else regAt fx s.regs b := by
  subst h; exact reg_setReg s a b s.now

theorem regAt_setFld (s : State) (fx : Fuses) (a b lo w x : Nat) (h : s.fx = fx) (hw : lo + w ≤ 64) :
    regAt fx (s.setFld a lo w x).regs b = if b = a then withField (regAt fx s.regs a) lo w x else regAt fx s.regs b := by
  subst h
  by_cases e : b = a
  · subst e; rw [if_pos rfl]; exact reg_setFld_same s b lo w x hw
  · rw [if_neg e]; exact reg_setFld_ne s a b lo w x e

theorem regAt_setBit (s : State) (fx : Fuses) (a b i : Nat) (x : Bool) (h : s.fx = fx) (hw : i < 64) :
    regAt fx (s.setBit a i x).regs b = if b = a then withField (regAt fx s.regs a) i 1 (b2n x) else regAt fx s.regs b :=
  regAt_setFld s fx a b i 1 (b2n x) h (by omega)

theorem FabricOnly.regAt {P : Nat → Prop} {s t : State} (f : FabricOnly P s t) (fx : Fuses) (b : Nat) (h : s.fx = fx) (hb : ¬ P b) :
    regAt fx t.regs b = regAt fx s.regs b := by
  subst h
  have := f.reg b hb
  rw [reg_eq, reg_eq, f.fx] at this
  exact this

/-! ### post -/

@[simp] theorem post_pending (s : State) (page sev code unit cause v0 v1 v2 : Nat) : (s.post page sev code unit cause v0 v1 v2).pending = s.pending := (post_only s page sev code unit cause v0 v1 v2).pending
@[simp] theorem post_now (s : State) (page sev code unit cause v0 v1 v2 : Nat) : (s.post page sev code unit cause v0 v1 v2).now = s.now := (post_only s page sev code unit cause v0 v1 v2).now
@[simp] theorem post_free (s : State) (page sev code unit cause v0 v1 v2 : Nat) : (s.post page sev code unit cause v0 v1 v2).free = s.free := (post_only s page sev code unit cause v0 v1 v2).free
@[simp] theorem post_fx (s : State) (page sev code unit cause v0 v1 v2 : Nat) : (s.post page sev code unit cause v0 v1 v2).fx = s.fx := (post_only s page sev code unit cause v0 v1 v2).fx
@[simp] theorem post_lc (s : State) (page sev code unit cause v0 v1 v2 : Nat) : (s.post page sev code unit cause v0 v1 v2).lc = s.lc := (post_only s page sev code unit cause v0 v1 v2).lc
@[simp] theorem post_slotB (s : State) (page sev code unit cause v0 v1 v2 : Nat) : (s.post page sev code unit cause v0 v1 v2).slotB = s.slotB := (post_only s page sev code unit cause v0 v1 v2).slotB
@[simp] theorem post_grid (s : State) (page sev code unit cause v0 v1 v2 : Nat) : (s.post page sev code unit cause v0 v1 v2).grid = s.grid := (post_only s page sev code unit cause v0 v1 v2).grid
@[simp] theorem post_time (s : State) (page sev code unit cause v0 v1 v2 : Nat) : (s.post page sev code unit cause v0 v1 v2).time = s.time := (post_only s page sev code unit cause v0 v1 v2).time
@[simp] theorem post_mem (s : State) (page sev code unit cause v0 v1 v2 : Nat) : (s.post page sev code unit cause v0 v1 v2).mem = s.mem := (post_only s page sev code unit cause v0 v1 v2).mem
@[simp] theorem post_poison (s : State) (page sev code unit cause v0 v1 v2 : Nat) : (s.post page sev code unit cause v0 v1 v2).poison = s.poison := (post_only s page sev code unit cause v0 v1 v2).poison
@[simp] theorem post_aud (s : State) (page sev code unit cause v0 v1 v2 : Nat) : (s.post page sev code unit cause v0 v1 v2).aud = s.aud := (post_only s page sev code unit cause v0 v1 v2).aud
@[simp] theorem post_seq (s : State) (page sev code unit cause v0 v1 v2 : Nat) : (s.post page sev code unit cause v0 v1 v2).seq = s.seq := (post_only s page sev code unit cause v0 v1 v2).seq
@[simp] theorem post_mac (s : State) (page sev code unit cause v0 v1 v2 : Nat) : (s.post page sev code unit cause v0 v1 v2).mac = s.mac := (post_only s page sev code unit cause v0 v1 v2).mac
@[simp] theorem post_eng (s : State) (page sev code unit cause v0 v1 v2 : Nat) : (s.post page sev code unit cause v0 v1 v2).eng = s.eng := (post_only s page sev code unit cause v0 v1 v2).eng
@[simp] theorem post_fr (s : State) (page sev code unit cause v0 v1 v2 : Nat) : (s.post page sev code unit cause v0 v1 v2).fr = s.fr := (post_only s page sev code unit cause v0 v1 v2).fr
@[simp] theorem post_scrub (s : State) (page sev code unit cause v0 v1 v2 : Nat) : (s.post page sev code unit cause v0 v1 v2).scrub = s.scrub := (post_only s page sev code unit cause v0 v1 v2).scrub
@[simp] theorem post_ep (s : State) (page sev code unit cause v0 v1 v2 : Nat) : (s.post page sev code unit cause v0 v1 v2).ep = s.ep := (post_only s page sev code unit cause v0 v1 v2).ep
@[simp] theorem post_port (s : State) (page sev code unit cause v0 v1 v2 : Nat) : (s.post page sev code unit cause v0 v1 v2).port = s.port := (post_only s page sev code unit cause v0 v1 v2).port
@[simp] theorem post_arb (s : State) (page sev code unit cause v0 v1 v2 : Nat) : (s.post page sev code unit cause v0 v1 v2).arb = s.arb := (post_only s page sev code unit cause v0 v1 v2).arb
@[simp] theorem post_pd (s : State) (page sev code unit cause v0 v1 v2 : Nat) : (s.post page sev code unit cause v0 v1 v2).pd = s.pd := (post_only s page sev code unit cause v0 v1 v2).pd
@[simp] theorem post_cle (s : State) (page sev code unit cause v0 v1 v2 : Nat) : (s.post page sev code unit cause v0 v1 v2).cle = s.cle := (post_only s page sev code unit cause v0 v1 v2).cle
@[simp] theorem post_vm (s : State) (page sev code unit cause v0 v1 v2 : Nat) : (s.post page sev code unit cause v0 v1 v2).vm = s.vm := (post_only s page sev code unit cause v0 v1 v2).vm
@[simp] theorem post_gov (s : State) (page sev code unit cause v0 v1 v2 : Nat) : (s.post page sev code unit cause v0 v1 v2).gov = s.gov := (post_only s page sev code unit cause v0 v1 v2).gov
@[simp] theorem post_prt (s : State) (page sev code unit cause v0 v1 v2 : Nat) : (s.post page sev code unit cause v0 v1 v2).prt = s.prt := (post_only s page sev code unit cause v0 v1 v2).prt
@[simp] theorem post_ctc (s : State) (page sev code unit cause v0 v1 v2 : Nat) : (s.post page sev code unit cause v0 v1 v2).ctc = s.ctc := (post_only s page sev code unit cause v0 v1 v2).ctc
@[simp] theorem post_loop (s : State) (page sev code unit cause v0 v1 v2 : Nat) : (s.post page sev code unit cause v0 v1 v2).loop = s.loop := (post_only s page sev code unit cause v0 v1 v2).loop
@[simp] theorem post_est (s : State) (page sev code unit cause v0 v1 v2 : Nat) : (s.post page sev code unit cause v0 v1 v2).est = s.est := (post_only s page sev code unit cause v0 v1 v2).est
@[simp] theorem post_hmk (s : State) (page sev code unit cause v0 v1 v2 : Nat) : (s.post page sev code unit cause v0 v1 v2).hmk = s.hmk := (post_only s page sev code unit cause v0 v1 v2).hmk
@[simp] theorem post_wiring (s : State) (page sev code unit cause v0 v1 v2 : Nat) : (s.post page sev code unit cause v0 v1 v2).wiring = s.wiring := (post_only s page sev code unit cause v0 v1 v2).wiring
@[simp] theorem post_wiringNext (s : State) (page sev code unit cause v0 v1 v2 : Nat) : (s.post page sev code unit cause v0 v1 v2).wiringNext = s.wiringNext := (post_only s page sev code unit cause v0 v1 v2).wiringNext
@[simp] theorem post_chn (s : State) (page sev code unit cause v0 v1 v2 : Nat) : (s.post page sev code unit cause v0 v1 v2).chn = s.chn := (post_only s page sev code unit cause v0 v1 v2).chn
@[simp] theorem post_clp (s : State) (page sev code unit cause v0 v1 v2 : Nat) : (s.post page sev code unit cause v0 v1 v2).clp = s.clp := (post_only s page sev code unit cause v0 v1 v2).clp
@[simp] theorem post_din (s : State) (page sev code unit cause v0 v1 v2 : Nat) : (s.post page sev code unit cause v0 v1 v2).din = s.din := (post_only s page sev code unit cause v0 v1 v2).din

/-! ### irqSet -/

@[simp] theorem irqSet_pending (s : State) (page mask : Nat) : (s.irqSet page mask).pending = s.pending := (irqSet_only s page mask).pending
@[simp] theorem irqSet_now (s : State) (page mask : Nat) : (s.irqSet page mask).now = s.now := (irqSet_only s page mask).now
@[simp] theorem irqSet_free (s : State) (page mask : Nat) : (s.irqSet page mask).free = s.free := (irqSet_only s page mask).free
@[simp] theorem irqSet_fx (s : State) (page mask : Nat) : (s.irqSet page mask).fx = s.fx := (irqSet_only s page mask).fx
@[simp] theorem irqSet_lc (s : State) (page mask : Nat) : (s.irqSet page mask).lc = s.lc := (irqSet_only s page mask).lc
@[simp] theorem irqSet_slotB (s : State) (page mask : Nat) : (s.irqSet page mask).slotB = s.slotB := (irqSet_only s page mask).slotB
@[simp] theorem irqSet_grid (s : State) (page mask : Nat) : (s.irqSet page mask).grid = s.grid := (irqSet_only s page mask).grid
@[simp] theorem irqSet_time (s : State) (page mask : Nat) : (s.irqSet page mask).time = s.time := (irqSet_only s page mask).time
@[simp] theorem irqSet_mem (s : State) (page mask : Nat) : (s.irqSet page mask).mem = s.mem := (irqSet_only s page mask).mem
@[simp] theorem irqSet_poison (s : State) (page mask : Nat) : (s.irqSet page mask).poison = s.poison := (irqSet_only s page mask).poison
@[simp] theorem irqSet_aud (s : State) (page mask : Nat) : (s.irqSet page mask).aud = s.aud := (irqSet_only s page mask).aud
@[simp] theorem irqSet_seq (s : State) (page mask : Nat) : (s.irqSet page mask).seq = s.seq := (irqSet_only s page mask).seq
@[simp] theorem irqSet_mac (s : State) (page mask : Nat) : (s.irqSet page mask).mac = s.mac := (irqSet_only s page mask).mac
@[simp] theorem irqSet_eng (s : State) (page mask : Nat) : (s.irqSet page mask).eng = s.eng := (irqSet_only s page mask).eng
@[simp] theorem irqSet_fr (s : State) (page mask : Nat) : (s.irqSet page mask).fr = s.fr := (irqSet_only s page mask).fr
@[simp] theorem irqSet_scrub (s : State) (page mask : Nat) : (s.irqSet page mask).scrub = s.scrub := (irqSet_only s page mask).scrub
@[simp] theorem irqSet_ep (s : State) (page mask : Nat) : (s.irqSet page mask).ep = s.ep := (irqSet_only s page mask).ep
@[simp] theorem irqSet_port (s : State) (page mask : Nat) : (s.irqSet page mask).port = s.port := (irqSet_only s page mask).port
@[simp] theorem irqSet_arb (s : State) (page mask : Nat) : (s.irqSet page mask).arb = s.arb := (irqSet_only s page mask).arb
@[simp] theorem irqSet_pd (s : State) (page mask : Nat) : (s.irqSet page mask).pd = s.pd := (irqSet_only s page mask).pd
@[simp] theorem irqSet_cle (s : State) (page mask : Nat) : (s.irqSet page mask).cle = s.cle := (irqSet_only s page mask).cle
@[simp] theorem irqSet_vm (s : State) (page mask : Nat) : (s.irqSet page mask).vm = s.vm := (irqSet_only s page mask).vm
@[simp] theorem irqSet_gov (s : State) (page mask : Nat) : (s.irqSet page mask).gov = s.gov := (irqSet_only s page mask).gov
@[simp] theorem irqSet_prt (s : State) (page mask : Nat) : (s.irqSet page mask).prt = s.prt := (irqSet_only s page mask).prt
@[simp] theorem irqSet_ctc (s : State) (page mask : Nat) : (s.irqSet page mask).ctc = s.ctc := (irqSet_only s page mask).ctc
@[simp] theorem irqSet_loop (s : State) (page mask : Nat) : (s.irqSet page mask).loop = s.loop := (irqSet_only s page mask).loop
@[simp] theorem irqSet_est (s : State) (page mask : Nat) : (s.irqSet page mask).est = s.est := (irqSet_only s page mask).est
@[simp] theorem irqSet_hmk (s : State) (page mask : Nat) : (s.irqSet page mask).hmk = s.hmk := (irqSet_only s page mask).hmk
@[simp] theorem irqSet_wiring (s : State) (page mask : Nat) : (s.irqSet page mask).wiring = s.wiring := (irqSet_only s page mask).wiring
@[simp] theorem irqSet_wiringNext (s : State) (page mask : Nat) : (s.irqSet page mask).wiringNext = s.wiringNext := (irqSet_only s page mask).wiringNext
@[simp] theorem irqSet_chn (s : State) (page mask : Nat) : (s.irqSet page mask).chn = s.chn := (irqSet_only s page mask).chn
@[simp] theorem irqSet_clp (s : State) (page mask : Nat) : (s.irqSet page mask).clp = s.clp := (irqSet_only s page mask).clp
@[simp] theorem irqSet_din (s : State) (page mask : Nat) : (s.irqSet page mask).din = s.din := (irqSet_only s page mask).din

/-! ### addCnt -/

@[simp] theorem addCnt_pending (s : State) (a n : Nat) : (s.addCnt a n).pending = s.pending := (addCnt_only s a n).pending
@[simp] theorem addCnt_now (s : State) (a n : Nat) : (s.addCnt a n).now = s.now := (addCnt_only s a n).now
@[simp] theorem addCnt_free (s : State) (a n : Nat) : (s.addCnt a n).free = s.free := (addCnt_only s a n).free
@[simp] theorem addCnt_fx (s : State) (a n : Nat) : (s.addCnt a n).fx = s.fx := (addCnt_only s a n).fx
@[simp] theorem addCnt_lc (s : State) (a n : Nat) : (s.addCnt a n).lc = s.lc := (addCnt_only s a n).lc
@[simp] theorem addCnt_slotB (s : State) (a n : Nat) : (s.addCnt a n).slotB = s.slotB := (addCnt_only s a n).slotB
@[simp] theorem addCnt_grid (s : State) (a n : Nat) : (s.addCnt a n).grid = s.grid := (addCnt_only s a n).grid
@[simp] theorem addCnt_time (s : State) (a n : Nat) : (s.addCnt a n).time = s.time := (addCnt_only s a n).time
@[simp] theorem addCnt_mem (s : State) (a n : Nat) : (s.addCnt a n).mem = s.mem := (addCnt_only s a n).mem
@[simp] theorem addCnt_poison (s : State) (a n : Nat) : (s.addCnt a n).poison = s.poison := (addCnt_only s a n).poison
@[simp] theorem addCnt_aud (s : State) (a n : Nat) : (s.addCnt a n).aud = s.aud := (addCnt_only s a n).aud
@[simp] theorem addCnt_seq (s : State) (a n : Nat) : (s.addCnt a n).seq = s.seq := (addCnt_only s a n).seq
@[simp] theorem addCnt_mac (s : State) (a n : Nat) : (s.addCnt a n).mac = s.mac := (addCnt_only s a n).mac
@[simp] theorem addCnt_eng (s : State) (a n : Nat) : (s.addCnt a n).eng = s.eng := (addCnt_only s a n).eng
@[simp] theorem addCnt_fr (s : State) (a n : Nat) : (s.addCnt a n).fr = s.fr := (addCnt_only s a n).fr
@[simp] theorem addCnt_scrub (s : State) (a n : Nat) : (s.addCnt a n).scrub = s.scrub := (addCnt_only s a n).scrub
@[simp] theorem addCnt_ep (s : State) (a n : Nat) : (s.addCnt a n).ep = s.ep := (addCnt_only s a n).ep
@[simp] theorem addCnt_port (s : State) (a n : Nat) : (s.addCnt a n).port = s.port := (addCnt_only s a n).port
@[simp] theorem addCnt_arb (s : State) (a n : Nat) : (s.addCnt a n).arb = s.arb := (addCnt_only s a n).arb
@[simp] theorem addCnt_pd (s : State) (a n : Nat) : (s.addCnt a n).pd = s.pd := (addCnt_only s a n).pd
@[simp] theorem addCnt_cle (s : State) (a n : Nat) : (s.addCnt a n).cle = s.cle := (addCnt_only s a n).cle
@[simp] theorem addCnt_vm (s : State) (a n : Nat) : (s.addCnt a n).vm = s.vm := (addCnt_only s a n).vm
@[simp] theorem addCnt_gov (s : State) (a n : Nat) : (s.addCnt a n).gov = s.gov := (addCnt_only s a n).gov
@[simp] theorem addCnt_prt (s : State) (a n : Nat) : (s.addCnt a n).prt = s.prt := (addCnt_only s a n).prt
@[simp] theorem addCnt_ctc (s : State) (a n : Nat) : (s.addCnt a n).ctc = s.ctc := (addCnt_only s a n).ctc
@[simp] theorem addCnt_loop (s : State) (a n : Nat) : (s.addCnt a n).loop = s.loop := (addCnt_only s a n).loop
@[simp] theorem addCnt_est (s : State) (a n : Nat) : (s.addCnt a n).est = s.est := (addCnt_only s a n).est
@[simp] theorem addCnt_hmk (s : State) (a n : Nat) : (s.addCnt a n).hmk = s.hmk := (addCnt_only s a n).hmk
@[simp] theorem addCnt_wiring (s : State) (a n : Nat) : (s.addCnt a n).wiring = s.wiring := (addCnt_only s a n).wiring
@[simp] theorem addCnt_wiringNext (s : State) (a n : Nat) : (s.addCnt a n).wiringNext = s.wiringNext := (addCnt_only s a n).wiringNext
@[simp] theorem addCnt_chn (s : State) (a n : Nat) : (s.addCnt a n).chn = s.chn := (addCnt_only s a n).chn
@[simp] theorem addCnt_clp (s : State) (a n : Nat) : (s.addCnt a n).clp = s.clp := (addCnt_only s a n).clp
@[simp] theorem addCnt_din (s : State) (a n : Nat) : (s.addCnt a n).din = s.din := (addCnt_only s a n).din

/-! ### inc -/

@[simp] theorem inc_pending (s : State) (a : Nat) : (s.inc a).pending = s.pending := (addCnt_only s a 1).pending
@[simp] theorem inc_now (s : State) (a : Nat) : (s.inc a).now = s.now := (addCnt_only s a 1).now
@[simp] theorem inc_free (s : State) (a : Nat) : (s.inc a).free = s.free := (addCnt_only s a 1).free
@[simp] theorem inc_fx (s : State) (a : Nat) : (s.inc a).fx = s.fx := (addCnt_only s a 1).fx
@[simp] theorem inc_lc (s : State) (a : Nat) : (s.inc a).lc = s.lc := (addCnt_only s a 1).lc
@[simp] theorem inc_slotB (s : State) (a : Nat) : (s.inc a).slotB = s.slotB := (addCnt_only s a 1).slotB
@[simp] theorem inc_grid (s : State) (a : Nat) : (s.inc a).grid = s.grid := (addCnt_only s a 1).grid
@[simp] theorem inc_time (s : State) (a : Nat) : (s.inc a).time = s.time := (addCnt_only s a 1).time
@[simp] theorem inc_mem (s : State) (a : Nat) : (s.inc a).mem = s.mem := (addCnt_only s a 1).mem
@[simp] theorem inc_poison (s : State) (a : Nat) : (s.inc a).poison = s.poison := (addCnt_only s a 1).poison
@[simp] theorem inc_aud (s : State) (a : Nat) : (s.inc a).aud = s.aud := (addCnt_only s a 1).aud
@[simp] theorem inc_seq (s : State) (a : Nat) : (s.inc a).seq = s.seq := (addCnt_only s a 1).seq
@[simp] theorem inc_mac (s : State) (a : Nat) : (s.inc a).mac = s.mac := (addCnt_only s a 1).mac
@[simp] theorem inc_eng (s : State) (a : Nat) : (s.inc a).eng = s.eng := (addCnt_only s a 1).eng
@[simp] theorem inc_fr (s : State) (a : Nat) : (s.inc a).fr = s.fr := (addCnt_only s a 1).fr
@[simp] theorem inc_scrub (s : State) (a : Nat) : (s.inc a).scrub = s.scrub := (addCnt_only s a 1).scrub
@[simp] theorem inc_ep (s : State) (a : Nat) : (s.inc a).ep = s.ep := (addCnt_only s a 1).ep
@[simp] theorem inc_port (s : State) (a : Nat) : (s.inc a).port = s.port := (addCnt_only s a 1).port
@[simp] theorem inc_arb (s : State) (a : Nat) : (s.inc a).arb = s.arb := (addCnt_only s a 1).arb
@[simp] theorem inc_pd (s : State) (a : Nat) : (s.inc a).pd = s.pd := (addCnt_only s a 1).pd
@[simp] theorem inc_cle (s : State) (a : Nat) : (s.inc a).cle = s.cle := (addCnt_only s a 1).cle
@[simp] theorem inc_vm (s : State) (a : Nat) : (s.inc a).vm = s.vm := (addCnt_only s a 1).vm
@[simp] theorem inc_gov (s : State) (a : Nat) : (s.inc a).gov = s.gov := (addCnt_only s a 1).gov
@[simp] theorem inc_prt (s : State) (a : Nat) : (s.inc a).prt = s.prt := (addCnt_only s a 1).prt
@[simp] theorem inc_ctc (s : State) (a : Nat) : (s.inc a).ctc = s.ctc := (addCnt_only s a 1).ctc
@[simp] theorem inc_loop (s : State) (a : Nat) : (s.inc a).loop = s.loop := (addCnt_only s a 1).loop
@[simp] theorem inc_est (s : State) (a : Nat) : (s.inc a).est = s.est := (addCnt_only s a 1).est
@[simp] theorem inc_hmk (s : State) (a : Nat) : (s.inc a).hmk = s.hmk := (addCnt_only s a 1).hmk
@[simp] theorem inc_wiring (s : State) (a : Nat) : (s.inc a).wiring = s.wiring := (addCnt_only s a 1).wiring
@[simp] theorem inc_wiringNext (s : State) (a : Nat) : (s.inc a).wiringNext = s.wiringNext := (addCnt_only s a 1).wiringNext
@[simp] theorem inc_chn (s : State) (a : Nat) : (s.inc a).chn = s.chn := (addCnt_only s a 1).chn
@[simp] theorem inc_clp (s : State) (a : Nat) : (s.inc a).clp = s.clp := (addCnt_only s a 1).clp
@[simp] theorem inc_din (s : State) (a : Nat) : (s.inc a).din = s.din := (addCnt_only s a 1).din

/-! ### setBlk -/

@[simp] theorem setBlk_pending (s : State) (page st cause : Nat) : (s.setBlk page st cause).pending = s.pending := (setBlk_only s page st cause).pending
@[simp] theorem setBlk_now (s : State) (page st cause : Nat) : (s.setBlk page st cause).now = s.now := (setBlk_only s page st cause).now
@[simp] theorem setBlk_free (s : State) (page st cause : Nat) : (s.setBlk page st cause).free = s.free := (setBlk_only s page st cause).free
@[simp] theorem setBlk_fx (s : State) (page st cause : Nat) : (s.setBlk page st cause).fx = s.fx := (setBlk_only s page st cause).fx
@[simp] theorem setBlk_lc (s : State) (page st cause : Nat) : (s.setBlk page st cause).lc = s.lc := (setBlk_only s page st cause).lc
@[simp] theorem setBlk_slotB (s : State) (page st cause : Nat) : (s.setBlk page st cause).slotB = s.slotB := (setBlk_only s page st cause).slotB
@[simp] theorem setBlk_grid (s : State) (page st cause : Nat) : (s.setBlk page st cause).grid = s.grid := (setBlk_only s page st cause).grid
@[simp] theorem setBlk_time (s : State) (page st cause : Nat) : (s.setBlk page st cause).time = s.time := (setBlk_only s page st cause).time
@[simp] theorem setBlk_mem (s : State) (page st cause : Nat) : (s.setBlk page st cause).mem = s.mem := (setBlk_only s page st cause).mem
@[simp] theorem setBlk_poison (s : State) (page st cause : Nat) : (s.setBlk page st cause).poison = s.poison := (setBlk_only s page st cause).poison
@[simp] theorem setBlk_aud (s : State) (page st cause : Nat) : (s.setBlk page st cause).aud = s.aud := (setBlk_only s page st cause).aud
@[simp] theorem setBlk_seq (s : State) (page st cause : Nat) : (s.setBlk page st cause).seq = s.seq := (setBlk_only s page st cause).seq
@[simp] theorem setBlk_mac (s : State) (page st cause : Nat) : (s.setBlk page st cause).mac = s.mac := (setBlk_only s page st cause).mac
@[simp] theorem setBlk_eng (s : State) (page st cause : Nat) : (s.setBlk page st cause).eng = s.eng := (setBlk_only s page st cause).eng
@[simp] theorem setBlk_fr (s : State) (page st cause : Nat) : (s.setBlk page st cause).fr = s.fr := (setBlk_only s page st cause).fr
@[simp] theorem setBlk_scrub (s : State) (page st cause : Nat) : (s.setBlk page st cause).scrub = s.scrub := (setBlk_only s page st cause).scrub
@[simp] theorem setBlk_ep (s : State) (page st cause : Nat) : (s.setBlk page st cause).ep = s.ep := (setBlk_only s page st cause).ep
@[simp] theorem setBlk_port (s : State) (page st cause : Nat) : (s.setBlk page st cause).port = s.port := (setBlk_only s page st cause).port
@[simp] theorem setBlk_arb (s : State) (page st cause : Nat) : (s.setBlk page st cause).arb = s.arb := (setBlk_only s page st cause).arb
@[simp] theorem setBlk_pd (s : State) (page st cause : Nat) : (s.setBlk page st cause).pd = s.pd := (setBlk_only s page st cause).pd
@[simp] theorem setBlk_cle (s : State) (page st cause : Nat) : (s.setBlk page st cause).cle = s.cle := (setBlk_only s page st cause).cle
@[simp] theorem setBlk_vm (s : State) (page st cause : Nat) : (s.setBlk page st cause).vm = s.vm := (setBlk_only s page st cause).vm
@[simp] theorem setBlk_gov (s : State) (page st cause : Nat) : (s.setBlk page st cause).gov = s.gov := (setBlk_only s page st cause).gov
@[simp] theorem setBlk_prt (s : State) (page st cause : Nat) : (s.setBlk page st cause).prt = s.prt := (setBlk_only s page st cause).prt
@[simp] theorem setBlk_ctc (s : State) (page st cause : Nat) : (s.setBlk page st cause).ctc = s.ctc := (setBlk_only s page st cause).ctc
@[simp] theorem setBlk_loop (s : State) (page st cause : Nat) : (s.setBlk page st cause).loop = s.loop := (setBlk_only s page st cause).loop
@[simp] theorem setBlk_est (s : State) (page st cause : Nat) : (s.setBlk page st cause).est = s.est := (setBlk_only s page st cause).est
@[simp] theorem setBlk_hmk (s : State) (page st cause : Nat) : (s.setBlk page st cause).hmk = s.hmk := (setBlk_only s page st cause).hmk
@[simp] theorem setBlk_wiring (s : State) (page st cause : Nat) : (s.setBlk page st cause).wiring = s.wiring := (setBlk_only s page st cause).wiring
@[simp] theorem setBlk_wiringNext (s : State) (page st cause : Nat) : (s.setBlk page st cause).wiringNext = s.wiringNext := (setBlk_only s page st cause).wiringNext
@[simp] theorem setBlk_chn (s : State) (page st cause : Nat) : (s.setBlk page st cause).chn = s.chn := (setBlk_only s page st cause).chn
@[simp] theorem setBlk_clp (s : State) (page st cause : Nat) : (s.setBlk page st cause).clp = s.clp := (setBlk_only s page st cause).clp
@[simp] theorem setBlk_din (s : State) (page st cause : Nat) : (s.setBlk page st cause).din = s.din := (setBlk_only s page st cause).din

/-! ### irqNotice -/

@[simp] theorem irqNotice_pending (s : State) (page : Nat) : (s.irqNotice page).pending = s.pending := (irqNotice_only s page).pending
@[simp] theorem irqNotice_now (s : State) (page : Nat) : (s.irqNotice page).now = s.now := (irqNotice_only s page).now
@[simp] theorem irqNotice_free (s : State) (page : Nat) : (s.irqNotice page).free = s.free := (irqNotice_only s page).free
@[simp] theorem irqNotice_fx (s : State) (page : Nat) : (s.irqNotice page).fx = s.fx := (irqNotice_only s page).fx
@[simp] theorem irqNotice_lc (s : State) (page : Nat) : (s.irqNotice page).lc = s.lc := (irqNotice_only s page).lc
@[simp] theorem irqNotice_slotB (s : State) (page : Nat) : (s.irqNotice page).slotB = s.slotB := (irqNotice_only s page).slotB
@[simp] theorem irqNotice_grid (s : State) (page : Nat) : (s.irqNotice page).grid = s.grid := (irqNotice_only s page).grid
@[simp] theorem irqNotice_time (s : State) (page : Nat) : (s.irqNotice page).time = s.time := (irqNotice_only s page).time
@[simp] theorem irqNotice_mem (s : State) (page : Nat) : (s.irqNotice page).mem = s.mem := (irqNotice_only s page).mem
@[simp] theorem irqNotice_poison (s : State) (page : Nat) : (s.irqNotice page).poison = s.poison := (irqNotice_only s page).poison
@[simp] theorem irqNotice_aud (s : State) (page : Nat) : (s.irqNotice page).aud = s.aud := (irqNotice_only s page).aud
@[simp] theorem irqNotice_seq (s : State) (page : Nat) : (s.irqNotice page).seq = s.seq := (irqNotice_only s page).seq
@[simp] theorem irqNotice_mac (s : State) (page : Nat) : (s.irqNotice page).mac = s.mac := (irqNotice_only s page).mac
@[simp] theorem irqNotice_eng (s : State) (page : Nat) : (s.irqNotice page).eng = s.eng := (irqNotice_only s page).eng
@[simp] theorem irqNotice_fr (s : State) (page : Nat) : (s.irqNotice page).fr = s.fr := (irqNotice_only s page).fr
@[simp] theorem irqNotice_scrub (s : State) (page : Nat) : (s.irqNotice page).scrub = s.scrub := (irqNotice_only s page).scrub
@[simp] theorem irqNotice_ep (s : State) (page : Nat) : (s.irqNotice page).ep = s.ep := (irqNotice_only s page).ep
@[simp] theorem irqNotice_port (s : State) (page : Nat) : (s.irqNotice page).port = s.port := (irqNotice_only s page).port
@[simp] theorem irqNotice_arb (s : State) (page : Nat) : (s.irqNotice page).arb = s.arb := (irqNotice_only s page).arb
@[simp] theorem irqNotice_pd (s : State) (page : Nat) : (s.irqNotice page).pd = s.pd := (irqNotice_only s page).pd
@[simp] theorem irqNotice_cle (s : State) (page : Nat) : (s.irqNotice page).cle = s.cle := (irqNotice_only s page).cle
@[simp] theorem irqNotice_vm (s : State) (page : Nat) : (s.irqNotice page).vm = s.vm := (irqNotice_only s page).vm
@[simp] theorem irqNotice_gov (s : State) (page : Nat) : (s.irqNotice page).gov = s.gov := (irqNotice_only s page).gov
@[simp] theorem irqNotice_prt (s : State) (page : Nat) : (s.irqNotice page).prt = s.prt := (irqNotice_only s page).prt
@[simp] theorem irqNotice_ctc (s : State) (page : Nat) : (s.irqNotice page).ctc = s.ctc := (irqNotice_only s page).ctc
@[simp] theorem irqNotice_loop (s : State) (page : Nat) : (s.irqNotice page).loop = s.loop := (irqNotice_only s page).loop
@[simp] theorem irqNotice_est (s : State) (page : Nat) : (s.irqNotice page).est = s.est := (irqNotice_only s page).est
@[simp] theorem irqNotice_hmk (s : State) (page : Nat) : (s.irqNotice page).hmk = s.hmk := (irqNotice_only s page).hmk
@[simp] theorem irqNotice_wiring (s : State) (page : Nat) : (s.irqNotice page).wiring = s.wiring := (irqNotice_only s page).wiring
@[simp] theorem irqNotice_wiringNext (s : State) (page : Nat) : (s.irqNotice page).wiringNext = s.wiringNext := (irqNotice_only s page).wiringNext
@[simp] theorem irqNotice_chn (s : State) (page : Nat) : (s.irqNotice page).chn = s.chn := (irqNotice_only s page).chn
@[simp] theorem irqNotice_clp (s : State) (page : Nat) : (s.irqNotice page).clp = s.clp := (irqNotice_only s page).clp
@[simp] theorem irqNotice_din (s : State) (page : Nat) : (s.irqNotice page).din = s.din := (irqNotice_only s page).din


theorem regAt_post (s : State) (fx : Fuses) (page sev code unit cause v0 v1 v2 b : Nat) (h : s.fx = fx)
    (hb : eventReg page b = false) : regAt fx (s.post page sev code unit cause v0 v1 v2).regs b = regAt fx s.regs b :=
  (post_only s page sev code unit cause v0 v1 v2).regAt fx b h (by simp [hb])

theorem regAt_irqSet (s : State) (fx : Fuses) (page mask b : Nat) (h : s.fx = fx) (hb : eventReg page b = false) :
    regAt fx (s.irqSet page mask).regs b = regAt fx s.regs b :=
  ((irqSet_only s page mask).mono (Q := fun a => eventReg page a = true) (by
    rintro a (e | e)
    · simp [eventReg, e]
    · exact eventReg_notice page a e)).regAt fx b h (by simp [hb])

theorem regAt_setBlk (s : State) (fx : Fuses) (page st cause b : Nat) (h : s.fx = fx) (hs : b ≠ Reg.BLK_STS page)
    (hb : eventReg page b = false) : regAt fx (s.setBlk page st cause).regs b = regAt fx s.regs b :=
  (setBlk_only s page st cause).regAt fx b h (by rintro (e | e); exact hs e; simp [hb] at e)

/-- A counter after its advance: it saturates at 2^32 - 1 (R439). -/
theorem reg_addCnt_same (s : State) (a n : Nat) (h : eventReg (a / 4096) a = false) :
    (s.addCnt a n).reg a = min (s.reg a + n) (2 ^ 32 - 1) := by
  unfold State.addCnt
  have e : satAdd 32 (s.reg a) n % 2 ^ 64 = min (s.reg a + n) (2 ^ 32 - 1) := by
    unfold satAdd
    exact Nat.mod_eq_of_lt (Nat.lt_of_le_of_lt (Nat.min_le_right _ _) (by decide))
  dsimp only
  split
  · rw [reg_eq, irqSet_fx, regAt_irqSet _ _ _ _ _ rfl h, ← reg_eq, reg_setReg_same, e]
  · rw [reg_setReg_same, e]

theorem regAt_addCnt (s : State) (fx : Fuses) (a n b : Nat) (h : s.fx = fx) (hb : eventReg (a / 4096) b = false) :
    regAt fx (s.addCnt a n).regs b = if b = a then min (regAt fx s.regs a + n) (2 ^ 32 - 1) else regAt fx s.regs b := by
  subst h
  by_cases e : b = a
  · subst e
    simpa [reg_eq] using reg_addCnt_same s b n hb
  · rw [if_neg e]
    refine (addCnt_only s a n).regAt s.fx b rfl ?_
    rintro (g | g | g)
    · exact e g
    · simp [eventReg, g] at hb
    · rw [eventReg_notice _ _ g] at hb; cases hb

theorem regAt_inc (s : State) (fx : Fuses) (a b : Nat) (h : s.fx = fx) (hb : eventReg (a / 4096) b = false) :
    regAt fx (s.inc a).regs b = if b = a then min (regAt fx s.regs a + 1) (2 ^ 32 - 1) else regAt fx s.regs b :=
  regAt_addCnt s fx a 1 b h hb

/-- No register of the event fabric's own, and no mailbox register, stands at the place of a page's LAST_EVT_STAMP. -/
theorem lastEvt_far (page b : Nat) (h : b % 4096 = 0x20 ∨ b % 4096 = 0x0C) (ne : b ≠ Reg.LAST_EVT_STAMP page) :
    eventReg page b = false := by
  simp only [Reg.LAST_EVT_STAMP] at ne
  simp only [eventReg, Reg.IRQ_STS, Reg.LAST_EVT_STAMP, Reg.EVT_HEAD, Reg.EVT_LOST, Reg.JNL_SEQ, Reg.NUG_STS, Bool.or_eq_false_iff,
    Bool.and_eq_false_iff, beq_eq_false_iff_ne, decide_eq_false_iff_not]
  omega

/-- A posting stamps the page's LAST_EVT_STAMP (R438). -/
theorem reg_post_stamp (s : State) (page sev code unit cause v0 v1 v2 : Nat) :
    (s.post page sev code unit cause v0 v1 v2).reg (Reg.LAST_EVT_STAMP page) = s.now % 2 ^ 64 := by
  unfold State.post
  have far : eventReg (page + 1) (Reg.LAST_EVT_STAMP page) = false :=
    lastEvt_far (page + 1) _ (by simp only [Reg.LAST_EVT_STAMP]; omega) (by simp only [Reg.LAST_EVT_STAMP]; omega)
  dsimp only
  rw [(postRecord_only _ page sev code unit cause v0 v1 v2 (page + 1)).reg _ (by simp [far])]
  unfold State.stampReg
  rw [reg_setReg_same]
  split
  · simp
  · rfl

theorem regAt_post_stamp (s : State) (fx : Fuses) (page sev code unit cause v0 v1 v2 : Nat) (h : s.fx = fx) :
    regAt fx (s.post page sev code unit cause v0 v1 v2).regs (Reg.LAST_EVT_STAMP page) = s.now % 2 ^ 64 := by
  subst h
  have := reg_post_stamp s page sev code unit cause v0 v1 v2
  rw [reg_eq, post_fx] at this
  exact this

end Sys2Proof.Machine
end

