-- ==== Sys2Proof/Laws/Access.lean ====
section
/-!
SUPPORT. Register writes (R428 to R440): what their judgement, their audit and their rejection can do, said once for each, and the
form that a write takes once the access rules admit it.
-/
namespace Sys2Proof.Machine

/-- The state differs from another at most in what a register write's judgement and audit move, and in registers of which `P` holds. -/
structure WriteOnly (P : Nat → Prop) (s t : State) : Prop where
  reg : ∀ a, ¬ P a → t.reg a = s.reg a
  pending : t.pending = s.pending
  now : t.now = s.now
  free : t.free = s.free
  fx : t.fx = s.fx
  lc : t.lc = s.lc
  slotB : t.slotB = s.slotB
  grid : t.grid = s.grid
  time : t.time = s.time
  mem : t.mem = s.mem
  poison : t.poison = s.poison
  seq : t.seq = s.seq
  mac : t.mac = s.mac
  eng : t.eng = s.eng
  fr : t.fr = s.fr
  scrub : t.scrub = s.scrub
  ep : t.ep = s.ep
  port : t.port = s.port
  arb : t.arb = s.arb
  pd : t.pd = s.pd
  cle : t.cle = s.cle
  vm : t.vm = s.vm
  gov : t.gov = s.gov
  prt : t.prt = s.prt
  ctc : t.ctc = s.ctc
  loop : t.loop = s.loop
  est : t.est = s.est
  hmk : t.hmk = s.hmk
  wiring : t.wiring = s.wiring
  wiringNext : t.wiringNext = s.wiringNext
  chn : t.chn = s.chn
  clp : t.clp = s.clp
  din : t.din = s.din

theorem WriteOnly.refl (P : Nat → Prop) (s : State) : WriteOnly P s s := by
  constructor <;> intros <;> rfl

theorem WriteOnly.trans {P : Nat → Prop} {s t u : State} (h : WriteOnly P s t) (g : WriteOnly P t u) : WriteOnly P s u where
  reg a ha := (g.reg a ha).trans (h.reg a ha)
  pending := g.pending.trans h.pending
  now := g.now.trans h.now
  free := g.free.trans h.free
  fx := g.fx.trans h.fx
  lc := g.lc.trans h.lc
  slotB := g.slotB.trans h.slotB
  grid := g.grid.trans h.grid
  time := g.time.trans h.time
  mem := g.mem.trans h.mem
  poison := g.poison.trans h.poison
  seq := g.seq.trans h.seq
  mac := g.mac.trans h.mac
  eng := g.eng.trans h.eng
  fr := g.fr.trans h.fr
  scrub := g.scrub.trans h.scrub
  ep := g.ep.trans h.ep
  port := g.port.trans h.port
  arb := g.arb.trans h.arb
  pd := g.pd.trans h.pd
  cle := g.cle.trans h.cle
  vm := g.vm.trans h.vm
  gov := g.gov.trans h.gov
  prt := g.prt.trans h.prt
  ctc := g.ctc.trans h.ctc
  loop := g.loop.trans h.loop
  est := g.est.trans h.est
  hmk := g.hmk.trans h.hmk
  wiring := g.wiring.trans h.wiring
  wiringNext := g.wiringNext.trans h.wiringNext
  chn := g.chn.trans h.chn
  clp := g.clp.trans h.clp
  din := g.din.trans h.din

theorem WriteOnly.mono {P Q : Nat → Prop} {s t : State} (h : WriteOnly P s t) (hpq : ∀ a, P a → Q a) : WriteOnly Q s t :=
  { h with reg := fun a ha => h.reg a (fun hp => ha (hpq a hp)) }

theorem FabricOnly.toWrite {P : Nat → Prop} {s t : State} (h : FabricOnly P s t) : WriteOnly P s t where
  reg := h.reg
  pending := h.pending
  now := h.now
  free := h.free
  fx := h.fx
  lc := h.lc
  slotB := h.slotB
  grid := h.grid
  time := h.time
  mem := h.mem
  poison := h.poison
  seq := h.seq
  mac := h.mac
  eng := h.eng
  fr := h.fr
  scrub := h.scrub
  ep := h.ep
  port := h.port
  arb := h.arb
  pd := h.pd
  cle := h.cle
  vm := h.vm
  gov := h.gov
  prt := h.prt
  ctc := h.ctc
  loop := h.loop
  est := h.est
  hmk := h.hmk
  wiring := h.wiring
  wiringNext := h.wiringNext
  chn := h.chn
  clp := h.clp
  din := h.din

theorem WriteOnly.set_aud (P : Nat → Prop) (s : State) (x : AudSt) : WriteOnly P s { s with aud := x } := by
  constructor
  · intro a _; exact reg_congr rfl rfl a
  all_goals rfl

theorem WriteOnly.regAt {P : Nat → Prop} {s t : State} (f : WriteOnly P s t) (fx : Fuses) (b : Nat) (h : s.fx = fx) (hb : ¬ P b) :
    regAt fx t.regs b = regAt fx s.regs b := by
  subst h
  have := f.reg b hb
  rw [reg_eq, reg_eq, f.fx] at this
  exact this

theorem writeReg_notice (page a : Nat) (h : noticeReg a) : writeReg page a = true := by
  rcases h with h | ⟨h1, h2⟩
  · simp [writeReg, h]
  · simp [writeReg, h1, h2]

/-- A counter of page 0x000 or 0x003 that a judgement moves. -/
theorem inc_write (s : State) (page c : Nat) (hc : writeReg page c = true) (hi : writeReg page (Reg.IRQ_STS (c / 4096)) = true) :
    WriteOnly (fun a => writeReg page a = true) s (s.inc c) := by
  refine (addCnt_only s c 1).toWrite.mono ?_
  rintro a (h | h | h)
  · exact h ▸ hc
  · exact h ▸ hi
  · exact writeReg_notice page a h

theorem audRingPut_only (s : State) (e : AudRec) (page : Nat) :
    WriteOnly (fun a => writeReg page a = true) s (s.audRingPut e) := by
  unfold State.audRingPut
  dsimp only
  refine WriteOnly.trans ?_ (WriteOnly.set_aud _ _ _)
  refine WriteOnly.trans ?_ (FabricOnly.setReg _ _ _ (by simp [writeReg])).toWrite
  split
  · exact inc_write s page _ (by simp [writeReg]) (by simp [writeReg, Reg.AUD_LOST])
  · exact WriteOnly.refl _ _

theorem audPdPut_only (s : State) (e : AudRec) (page : Nat) :
    WriteOnly (fun a => writeReg page a = true) s (s.audPdPut e) := by
  unfold State.audPdPut
  dsimp only
  refine WriteOnly.trans ?_ (WriteOnly.set_aud _ _ _)
  split
  · exact inc_write s page _ (by simp [writeReg]) (by simp [writeReg, Reg.AUD_LOST])
  · exact WriteOnly.refl _ _

/-- All that the audit of a write can do (R38, R39). -/
theorem audit_only (s : State) (w : Writer) (a v : Nat) (wide rejected : Bool) (page : Nat) :
    WriteOnly (fun b => writeReg page b = true) s (s.audit w a v wide rejected) := by
  unfold State.audit
  dsimp only
  split
  · exact audPdPut_only _ _ _
  · split
    · exact audRingPut_only _ _ _
    · exact WriteOnly.refl _ _

/-- All that an accepted write does before its own effect (R37, R38). -/
theorem acceptWrite_only (s : State) (w : Writer) (a v : Nat) (wide : Bool) :
    WriteOnly (fun b => writeReg (a / 4096) b = true) s (s.acceptWrite w a v wide) := by
  unfold State.acceptWrite
  exact WriteOnly.trans (FabricOnly.setReg _ _ _ (by simp [writeReg])).toWrite (audit_only _ _ _ _ _ _ _)

/-- All that a rejected write does (R440): no register of its page changes but the header's IRQ_STS. -/
theorem rejectWrite_only (s : State) (w : Writer) (a v : Nat) (wide : Bool) :
    WriteOnly (fun b => writeReg (a / 4096) b = true) s (s.rejectWrite w a v wide) := by
  unfold State.rejectWrite
  have h1 := audit_only s w a v wide true (a / 4096)
  have h2 : WriteOnly (fun b => writeReg (a / 4096) b = true) (s.audit w a v wide true)
      ((s.audit w a v wide true).irqSet (a / 4096) 0x10) := by
    refine (irqSet_only _ (a / 4096) 0x10).toWrite.mono ?_
    rintro b (h | h)
    · simp [writeReg, h]
    · exact writeReg_notice _ _ h
  dsimp only
  split
  · exact WriteOnly.trans (WriteOnly.trans h1 h2) (inc_write _ _ _ (by simp [writeReg]) (by simp [writeReg, Reg.GLB_WR_REJ]))
  · exact WriteOnly.trans h1 h2

/-- Dropping a held low word moves nothing but the held words. -/
theorem dropHeld_only (P : Nat → Prop) (s : State) (w : Writer) : WriteOnly P s (s.dropHeld w) := WriteOnly.set_aud _ _ _

/-! ## Admitted writes -/

/-- A 64-bit write that the access rules admit is judged as one write of its register. -/
theorem admits_take64 (s : State) (w : Writer) (a v : Nat) (h : admits s w a 64 v = true) :
    ∃ r, judge s w a 64 v = .take a v true r ∧ findRow (a / 4096) (a % 4096) = some r := by
  unfold admits at h
  split at h
  case h_2 => cases h
  case h_1 b x wd r hj =>
    simp only [Bool.and_eq_true, beq_iff_eq] at h
    obtain ⟨rfl, rfl⟩ := h
    have hk := hj
    unfold judge at hj
    dsimp only at hj
    split at hj
    · cases hj
    split at hj
    · cases hj
    split at hj
    · cases hj
    rw [if_pos rfl] at hj
    split at hj
    case h_2 => cases hj
    case h_1 r' hr =>
      split at hj
      case isFalse => cases hj
      case isTrue =>
        injection hj with h1 h2 h3 h4
        subst h3
        subst h4
        exact ⟨_, hk, hr⟩

/-- A 32-bit write that the access rules admit at the register's own address is judged as one write of it. -/
theorem admits_take32 (s : State) (w : Writer) (a v : Nat) (h : admits s w a 32 v = true) (ha : 4 ≤ a % 4096) :
    ∃ r, judge s w a 32 v = .take a v false r ∧ findRow (a / 4096) (a % 4096) = some r ∧ r.wide = false := by
  unfold admits at h
  split at h
  case h_2 => cases h
  case h_1 b x wd r hj =>
    simp only [Bool.and_eq_true, beq_iff_eq] at h
    obtain ⟨rfl, rfl⟩ := h
    have hk := hj
    unfold judge at hj
    dsimp only at hj
    split at hj
    · cases hj
    split at hj
    · cases hj
    split at hj
    · cases hj
    rw [if_neg (by decide)] at hj
    split at hj
    case isFalse => cases hj
    case isTrue =>
      split at hj
      · split at hj
        · injection hj with h1 h2 h3 h4
          omega
        · cases hj
      · split at hj
        · split at hj
          · cases hj
          · split at hj
            · injection hj with h1 h2 h3 h4
              subst h3
              subst h4
              rename_i hr hw _
              exact ⟨_, hk, hr, by simpa using hw⟩
            · cases hj
        · cases hj

/-- An admitted 32-bit write by its own row: its range rule decides between acceptance, with the stored value and the effect, and
rejection. -/
theorem ownWrite_admitted (s : State) (w : Writer) (a v : Nat) (ok : State → Nat → Bool) (eff : State → Nat → State)
    (h : admits s w a 32 v = true) (ha : 4 ≤ a % 4096) : ∃ r, findRow (a / 4096) (a % 4096) = some r ∧
    s.ownWrite w a v ok eff =
      if ok (s.dropHeld w) v then
        eff (((s.dropHeld w).acceptWrite w a v false).setReg a (storedValue r (((s.dropHeld w).acceptWrite w a v false).reg a) v)) v
      else (s.dropHeld w).rejectWrite w a v false := by
  obtain ⟨r, hj, hr, _⟩ := admits_take32 s w a v h ha
  refine ⟨r, hr, ?_⟩
  unfold State.ownWrite State.doWrite
  rw [hj]

/-- An admitted 64-bit write by its own row. -/
theorem ownWrite64_admitted (s : State) (w : Writer) (a v : Nat) (ok : State → Nat → Bool) (eff : State → Nat → State)
    (h : admits s w a 64 v = true) : ∃ r, findRow (a / 4096) (a % 4096) = some r ∧
    s.ownWrite64 w a v ok eff =
      if ok (s.dropHeld w) v then
        eff (((s.dropHeld w).acceptWrite w a v true).setReg a (storedValue r (((s.dropHeld w).acceptWrite w a v true).reg a) v)) v
      else (s.dropHeld w).rejectWrite w a v true := by
  obtain ⟨r, hj, hr⟩ := admits_take64 s w a v h
  refine ⟨r, hr, ?_⟩
  unfold State.ownWrite64 State.doWrite
  rw [hj]

/-- The value that a register whose every bit is RW takes. -/
theorem storedValue_rw (r : RegRow) (old v : Nat) (h1 : r.rw = 2 ^ 64 - 1) (h2 : r.rwl = 0) (h3 : r.w1c = 0)
    (hv : v < 2 ^ 64) : storedValue r old v = v := by
  simp only [storedValue, h1, h2, h3]
  have e : (2 ^ 64 - 1 : Nat) ^^^ (2 ^ 64 - 1 ||| 0) = 0 := by decide
  rw [e]
  simp only [Nat.and_zero, Nat.or_zero, Nat.zero_or, Nat.xor_zero]
  rw [Nat.and_assoc, Nat.and_self, Nat.and_two_pow_sub_one_eq_mod, Nat.mod_eq_of_lt hv]

/-! ### acceptWrite -/

@[simp] theorem acceptWrite_pending (s : State) (w : Writer) (a v : Nat) (wide : Bool) : (s.acceptWrite w a v wide).pending = s.pending := (acceptWrite_only s w a v wide).pending
@[simp] theorem acceptWrite_now (s : State) (w : Writer) (a v : Nat) (wide : Bool) : (s.acceptWrite w a v wide).now = s.now := (acceptWrite_only s w a v wide).now
@[simp] theorem acceptWrite_free (s : State) (w : Writer) (a v : Nat) (wide : Bool) : (s.acceptWrite w a v wide).free = s.free := (acceptWrite_only s w a v wide).free
@[simp] theorem acceptWrite_fx (s : State) (w : Writer) (a v : Nat) (wide : Bool) : (s.acceptWrite w a v wide).fx = s.fx := (acceptWrite_only s w a v wide).fx
@[simp] theorem acceptWrite_lc (s : State) (w : Writer) (a v : Nat) (wide : Bool) : (s.acceptWrite w a v wide).lc = s.lc := (acceptWrite_only s w a v wide).lc
@[simp] theorem acceptWrite_slotB (s : State) (w : Writer) (a v : Nat) (wide : Bool) : (s.acceptWrite w a v wide).slotB = s.slotB := (acceptWrite_only s w a v wide).slotB
@[simp] theorem acceptWrite_grid (s : State) (w : Writer) (a v : Nat) (wide : Bool) : (s.acceptWrite w a v wide).grid = s.grid := (acceptWrite_only s w a v wide).grid
@[simp] theorem acceptWrite_time (s : State) (w : Writer) (a v : Nat) (wide : Bool) : (s.acceptWrite w a v wide).time = s.time := (acceptWrite_only s w a v wide).time
@[simp] theorem acceptWrite_mem (s : State) (w : Writer) (a v : Nat) (wide : Bool) : (s.acceptWrite w a v wide).mem = s.mem := (acceptWrite_only s w a v wide).mem
@[simp] theorem acceptWrite_poison (s : State) (w : Writer) (a v : Nat) (wide : Bool) : (s.acceptWrite w a v wide).poison = s.poison := (acceptWrite_only s w a v wide).poison
@[simp] theorem acceptWrite_seq (s : State) (w : Writer) (a v : Nat) (wide : Bool) : (s.acceptWrite w a v wide).seq = s.seq := (acceptWrite_only s w a v wide).seq
@[simp] theorem acceptWrite_mac (s : State) (w : Writer) (a v : Nat) (wide : Bool) : (s.acceptWrite w a v wide).mac = s.mac := (acceptWrite_only s w a v wide).mac
@[simp] theorem acceptWrite_eng (s : State) (w : Writer) (a v : Nat) (wide : Bool) : (s.acceptWrite w a v wide).eng = s.eng := (acceptWrite_only s w a v wide).eng
@[simp] theorem acceptWrite_fr (s : State) (w : Writer) (a v : Nat) (wide : Bool) : (s.acceptWrite w a v wide).fr = s.fr := (acceptWrite_only s w a v wide).fr
@[simp] theorem acceptWrite_scrub (s : State) (w : Writer) (a v : Nat) (wide : Bool) : (s.acceptWrite w a v wide).scrub = s.scrub := (acceptWrite_only s w a v wide).scrub
@[simp] theorem acceptWrite_ep (s : State) (w : Writer) (a v : Nat) (wide : Bool) : (s.acceptWrite w a v wide).ep = s.ep := (acceptWrite_only s w a v wide).ep
@[simp] theorem acceptWrite_port (s : State) (w : Writer) (a v : Nat) (wide : Bool) : (s.acceptWrite w a v wide).port = s.port := (acceptWrite_only s w a v wide).port
@[simp] theorem acceptWrite_arb (s : State) (w : Writer) (a v : Nat) (wide : Bool) : (s.acceptWrite w a v wide).arb = s.arb := (acceptWrite_only s w a v wide).arb
@[simp] theorem acceptWrite_pd (s : State) (w : Writer) (a v : Nat) (wide : Bool) : (s.acceptWrite w a v wide).pd = s.pd := (acceptWrite_only s w a v wide).pd
@[simp] theorem acceptWrite_cle (s : State) (w : Writer) (a v : Nat) (wide : Bool) : (s.acceptWrite w a v wide).cle = s.cle := (acceptWrite_only s w a v wide).cle
@[simp] theorem acceptWrite_vm (s : State) (w : Writer) (a v : Nat) (wide : Bool) : (s.acceptWrite w a v wide).vm = s.vm := (acceptWrite_only s w a v wide).vm
@[simp] theorem acceptWrite_gov (s : State) (w : Writer) (a v : Nat) (wide : Bool) : (s.acceptWrite w a v wide).gov = s.gov := (acceptWrite_only s w a v wide).gov
@[simp] theorem acceptWrite_prt (s : State) (w : Writer) (a v : Nat) (wide : Bool) : (s.acceptWrite w a v wide).prt = s.prt := (acceptWrite_only s w a v wide).prt
@[simp] theorem acceptWrite_ctc (s : State) (w : Writer) (a v : Nat) (wide : Bool) : (s.acceptWrite w a v wide).ctc = s.ctc := (acceptWrite_only s w a v wide).ctc
@[simp] theorem acceptWrite_loop (s : State) (w : Writer) (a v : Nat) (wide : Bool) : (s.acceptWrite w a v wide).loop = s.loop := (acceptWrite_only s w a v wide).loop
@[simp] theorem acceptWrite_est (s : State) (w : Writer) (a v : Nat) (wide : Bool) : (s.acceptWrite w a v wide).est = s.est := (acceptWrite_only s w a v wide).est
@[simp] theorem acceptWrite_hmk (s : State) (w : Writer) (a v : Nat) (wide : Bool) : (s.acceptWrite w a v wide).hmk = s.hmk := (acceptWrite_only s w a v wide).hmk
@[simp] theorem acceptWrite_wiring (s : State) (w : Writer) (a v : Nat) (wide : Bool) : (s.acceptWrite w a v wide).wiring = s.wiring := (acceptWrite_only s w a v wide).wiring
@[simp] theorem acceptWrite_wiringNext (s : State) (w : Writer) (a v : Nat) (wide : Bool) : (s.acceptWrite w a v wide).wiringNext = s.wiringNext := (acceptWrite_only s w a v wide).wiringNext
@[simp] theorem acceptWrite_chn (s : State) (w : Writer) (a v : Nat) (wide : Bool) : (s.acceptWrite w a v wide).chn = s.chn := (acceptWrite_only s w a v wide).chn
@[simp] theorem acceptWrite_clp (s : State) (w : Writer) (a v : Nat) (wide : Bool) : (s.acceptWrite w a v wide).clp = s.clp := (acceptWrite_only s w a v wide).clp
@[simp] theorem acceptWrite_din (s : State) (w : Writer) (a v : Nat) (wide : Bool) : (s.acceptWrite w a v wide).din = s.din := (acceptWrite_only s w a v wide).din

/-! ### rejectWrite -/

@[simp] theorem rejectWrite_pending (s : State) (w : Writer) (a v : Nat) (wide : Bool) : (s.rejectWrite w a v wide).pending = s.pending := (rejectWrite_only s w a v wide).pending
@[simp] theorem rejectWrite_now (s : State) (w : Writer) (a v : Nat) (wide : Bool) : (s.rejectWrite w a v wide).now = s.now := (rejectWrite_only s w a v wide).now
@[simp] theorem rejectWrite_free (s : State) (w : Writer) (a v : Nat) (wide : Bool) : (s.rejectWrite w a v wide).free = s.free := (rejectWrite_only s w a v wide).free
@[simp] theorem rejectWrite_fx (s : State) (w : Writer) (a v : Nat) (wide : Bool) : (s.rejectWrite w a v wide).fx = s.fx := (rejectWrite_only s w a v wide).fx
@[simp] theorem rejectWrite_lc (s : State) (w : Writer) (a v : Nat) (wide : Bool) : (s.rejectWrite w a v wide).lc = s.lc := (rejectWrite_only s w a v wide).lc
@[simp] theorem rejectWrite_slotB (s : State) (w : Writer) (a v : Nat) (wide : Bool) : (s.rejectWrite w a v wide).slotB = s.slotB := (rejectWrite_only s w a v wide).slotB
@[simp] theorem rejectWrite_grid (s : State) (w : Writer) (a v : Nat) (wide : Bool) : (s.rejectWrite w a v wide).grid = s.grid := (rejectWrite_only s w a v wide).grid
@[simp] theorem rejectWrite_time (s : State) (w : Writer) (a v : Nat) (wide : Bool) : (s.rejectWrite w a v wide).time = s.time := (rejectWrite_only s w a v wide).time
@[simp] theorem rejectWrite_mem (s : State) (w : Writer) (a v : Nat) (wide : Bool) : (s.rejectWrite w a v wide).mem = s.mem := (rejectWrite_only s w a v wide).mem
@[simp] theorem rejectWrite_poison (s : State) (w : Writer) (a v : Nat) (wide : Bool) : (s.rejectWrite w a v wide).poison = s.poison := (rejectWrite_only s w a v wide).poison
@[simp] theorem rejectWrite_seq (s : State) (w : Writer) (a v : Nat) (wide : Bool) : (s.rejectWrite w a v wide).seq = s.seq := (rejectWrite_only s w a v wide).seq
@[simp] theorem rejectWrite_mac (s : State) (w : Writer) (a v : Nat) (wide : Bool) : (s.rejectWrite w a v wide).mac = s.mac := (rejectWrite_only s w a v wide).mac
@[simp] theorem rejectWrite_eng (s : State) (w : Writer) (a v : Nat) (wide : Bool) : (s.rejectWrite w a v wide).eng = s.eng := (rejectWrite_only s w a v wide).eng
@[simp] theorem rejectWrite_fr (s : State) (w : Writer) (a v : Nat) (wide : Bool) : (s.rejectWrite w a v wide).fr = s.fr := (rejectWrite_only s w a v wide).fr
@[simp] theorem rejectWrite_scrub (s : State) (w : Writer) (a v : Nat) (wide : Bool) : (s.rejectWrite w a v wide).scrub = s.scrub := (rejectWrite_only s w a v wide).scrub
@[simp] theorem rejectWrite_ep (s : State) (w : Writer) (a v : Nat) (wide : Bool) : (s.rejectWrite w a v wide).ep = s.ep := (rejectWrite_only s w a v wide).ep
@[simp] theorem rejectWrite_port (s : State) (w : Writer) (a v : Nat) (wide : Bool) : (s.rejectWrite w a v wide).port = s.port := (rejectWrite_only s w a v wide).port
@[simp] theorem rejectWrite_arb (s : State) (w : Writer) (a v : Nat) (wide : Bool) : (s.rejectWrite w a v wide).arb = s.arb := (rejectWrite_only s w a v wide).arb
@[simp] theorem rejectWrite_pd (s : State) (w : Writer) (a v : Nat) (wide : Bool) : (s.rejectWrite w a v wide).pd = s.pd := (rejectWrite_only s w a v wide).pd
@[simp] theorem rejectWrite_cle (s : State) (w : Writer) (a v : Nat) (wide : Bool) : (s.rejectWrite w a v wide).cle = s.cle := (rejectWrite_only s w a v wide).cle
@[simp] theorem rejectWrite_vm (s : State) (w : Writer) (a v : Nat) (wide : Bool) : (s.rejectWrite w a v wide).vm = s.vm := (rejectWrite_only s w a v wide).vm
@[simp] theorem rejectWrite_gov (s : State) (w : Writer) (a v : Nat) (wide : Bool) : (s.rejectWrite w a v wide).gov = s.gov := (rejectWrite_only s w a v wide).gov
@[simp] theorem rejectWrite_prt (s : State) (w : Writer) (a v : Nat) (wide : Bool) : (s.rejectWrite w a v wide).prt = s.prt := (rejectWrite_only s w a v wide).prt
@[simp] theorem rejectWrite_ctc (s : State) (w : Writer) (a v : Nat) (wide : Bool) : (s.rejectWrite w a v wide).ctc = s.ctc := (rejectWrite_only s w a v wide).ctc
@[simp] theorem rejectWrite_loop (s : State) (w : Writer) (a v : Nat) (wide : Bool) : (s.rejectWrite w a v wide).loop = s.loop := (rejectWrite_only s w a v wide).loop
@[simp] theorem rejectWrite_est (s : State) (w : Writer) (a v : Nat) (wide : Bool) : (s.rejectWrite w a v wide).est = s.est := (rejectWrite_only s w a v wide).est
@[simp] theorem rejectWrite_hmk (s : State) (w : Writer) (a v : Nat) (wide : Bool) : (s.rejectWrite w a v wide).hmk = s.hmk := (rejectWrite_only s w a v wide).hmk
@[simp] theorem rejectWrite_wiring (s : State) (w : Writer) (a v : Nat) (wide : Bool) : (s.rejectWrite w a v wide).wiring = s.wiring := (rejectWrite_only s w a v wide).wiring
@[simp] theorem rejectWrite_wiringNext (s : State) (w : Writer) (a v : Nat) (wide : Bool) : (s.rejectWrite w a v wide).wiringNext = s.wiringNext := (rejectWrite_only s w a v wide).wiringNext
@[simp] theorem rejectWrite_chn (s : State) (w : Writer) (a v : Nat) (wide : Bool) : (s.rejectWrite w a v wide).chn = s.chn := (rejectWrite_only s w a v wide).chn
@[simp] theorem rejectWrite_clp (s : State) (w : Writer) (a v : Nat) (wide : Bool) : (s.rejectWrite w a v wide).clp = s.clp := (rejectWrite_only s w a v wide).clp
@[simp] theorem rejectWrite_din (s : State) (w : Writer) (a v : Nat) (wide : Bool) : (s.rejectWrite w a v wide).din = s.din := (rejectWrite_only s w a v wide).din

/-! ### dropHeld -/

@[simp] theorem dropHeld_pending (s : State) (w : Writer) : (s.dropHeld w).pending = s.pending := (dropHeld_only (fun _ => True) s w).pending
@[simp] theorem dropHeld_now (s : State) (w : Writer) : (s.dropHeld w).now = s.now := (dropHeld_only (fun _ => True) s w).now
@[simp] theorem dropHeld_free (s : State) (w : Writer) : (s.dropHeld w).free = s.free := (dropHeld_only (fun _ => True) s w).free
@[simp] theorem dropHeld_fx (s : State) (w : Writer) : (s.dropHeld w).fx = s.fx := (dropHeld_only (fun _ => True) s w).fx
@[simp] theorem dropHeld_lc (s : State) (w : Writer) : (s.dropHeld w).lc = s.lc := (dropHeld_only (fun _ => True) s w).lc
@[simp] theorem dropHeld_slotB (s : State) (w : Writer) : (s.dropHeld w).slotB = s.slotB := (dropHeld_only (fun _ => True) s w).slotB
@[simp] theorem dropHeld_grid (s : State) (w : Writer) : (s.dropHeld w).grid = s.grid := (dropHeld_only (fun _ => True) s w).grid
@[simp] theorem dropHeld_time (s : State) (w : Writer) : (s.dropHeld w).time = s.time := (dropHeld_only (fun _ => True) s w).time
@[simp] theorem dropHeld_mem (s : State) (w : Writer) : (s.dropHeld w).mem = s.mem := (dropHeld_only (fun _ => True) s w).mem
@[simp] theorem dropHeld_poison (s : State) (w : Writer) : (s.dropHeld w).poison = s.poison := (dropHeld_only (fun _ => True) s w).poison
@[simp] theorem dropHeld_seq (s : State) (w : Writer) : (s.dropHeld w).seq = s.seq := (dropHeld_only (fun _ => True) s w).seq
@[simp] theorem dropHeld_mac (s : State) (w : Writer) : (s.dropHeld w).mac = s.mac := (dropHeld_only (fun _ => True) s w).mac
@[simp] theorem dropHeld_eng (s : State) (w : Writer) : (s.dropHeld w).eng = s.eng := (dropHeld_only (fun _ => True) s w).eng
@[simp] theorem dropHeld_fr (s : State) (w : Writer) : (s.dropHeld w).fr = s.fr := (dropHeld_only (fun _ => True) s w).fr
@[simp] theorem dropHeld_scrub (s : State) (w : Writer) : (s.dropHeld w).scrub = s.scrub := (dropHeld_only (fun _ => True) s w).scrub
@[simp] theorem dropHeld_ep (s : State) (w : Writer) : (s.dropHeld w).ep = s.ep := (dropHeld_only (fun _ => True) s w).ep
@[simp] theorem dropHeld_port (s : State) (w : Writer) : (s.dropHeld w).port = s.port := (dropHeld_only (fun _ => True) s w).port
@[simp] theorem dropHeld_arb (s : State) (w : Writer) : (s.dropHeld w).arb = s.arb := (dropHeld_only (fun _ => True) s w).arb
@[simp] theorem dropHeld_pd (s : State) (w : Writer) : (s.dropHeld w).pd = s.pd := (dropHeld_only (fun _ => True) s w).pd
@[simp] theorem dropHeld_cle (s : State) (w : Writer) : (s.dropHeld w).cle = s.cle := (dropHeld_only (fun _ => True) s w).cle
@[simp] theorem dropHeld_vm (s : State) (w : Writer) : (s.dropHeld w).vm = s.vm := (dropHeld_only (fun _ => True) s w).vm
@[simp] theorem dropHeld_gov (s : State) (w : Writer) : (s.dropHeld w).gov = s.gov := (dropHeld_only (fun _ => True) s w).gov
@[simp] theorem dropHeld_prt (s : State) (w : Writer) : (s.dropHeld w).prt = s.prt := (dropHeld_only (fun _ => True) s w).prt
@[simp] theorem dropHeld_ctc (s : State) (w : Writer) : (s.dropHeld w).ctc = s.ctc := (dropHeld_only (fun _ => True) s w).ctc
@[simp] theorem dropHeld_loop (s : State) (w : Writer) : (s.dropHeld w).loop = s.loop := (dropHeld_only (fun _ => True) s w).loop
@[simp] theorem dropHeld_est (s : State) (w : Writer) : (s.dropHeld w).est = s.est := (dropHeld_only (fun _ => True) s w).est
@[simp] theorem dropHeld_hmk (s : State) (w : Writer) : (s.dropHeld w).hmk = s.hmk := (dropHeld_only (fun _ => True) s w).hmk
@[simp] theorem dropHeld_wiring (s : State) (w : Writer) : (s.dropHeld w).wiring = s.wiring := (dropHeld_only (fun _ => True) s w).wiring
@[simp] theorem dropHeld_wiringNext (s : State) (w : Writer) : (s.dropHeld w).wiringNext = s.wiringNext := (dropHeld_only (fun _ => True) s w).wiringNext
@[simp] theorem dropHeld_chn (s : State) (w : Writer) : (s.dropHeld w).chn = s.chn := (dropHeld_only (fun _ => True) s w).chn
@[simp] theorem dropHeld_clp (s : State) (w : Writer) : (s.dropHeld w).clp = s.clp := (dropHeld_only (fun _ => True) s w).clp
@[simp] theorem dropHeld_din (s : State) (w : Writer) : (s.dropHeld w).din = s.din := (dropHeld_only (fun _ => True) s w).din

@[simp] theorem dropHeld_regs (s : State) (w : Writer) : (s.dropHeld w).regs = s.regs := (rfl)

theorem regAt_acceptWrite (s : State) (fx : Fuses) (w : Writer) (a v : Nat) (wide : Bool) (b : Nat) (h : s.fx = fx)
    (hb : writeReg (a / 4096) b = false) : regAt fx (s.acceptWrite w a v wide).regs b = regAt fx s.regs b :=
  (acceptWrite_only s w a v wide).regAt fx b h (by simp [hb])

theorem regAt_rejectWrite (s : State) (fx : Fuses) (w : Writer) (a v : Nat) (wide : Bool) (b : Nat) (h : s.fx = fx)
    (hb : writeReg (a / 4096) b = false) : regAt fx (s.rejectWrite w a v wide).regs b = regAt fx s.regs b :=
  (rejectWrite_only s w a v wide).regAt fx b h (by simp [hb])

/-- No notice reaches the register at a page's IRQ_STS. -/
theorem noticeReg_irq (page : Nat) : ¬ noticeReg (Reg.IRQ_STS page) := by
  simp only [noticeReg, Reg.IRQ_STS, Reg.NUG_STS]
  omega

/-- Bits of IRQ_STS only rise by a rise (R439). -/
theorem reg_irqSet_same (s : State) (page mask : Nat) (hm : mask < 2 ^ 64) :
    (s.irqSet page mask).reg (Reg.IRQ_STS page) = s.reg (Reg.IRQ_STS page) ||| mask := by
  have h : (s.setReg (Reg.IRQ_STS page) (s.reg (Reg.IRQ_STS page) ||| mask)).reg (Reg.IRQ_STS page) =
      s.reg (Reg.IRQ_STS page) ||| mask := by
    rw [reg_setReg_same, Nat.mod_eq_of_lt (Nat.or_lt_two_pow (reg_lt s _) hm)]
  unfold State.irqSet
  dsimp only
  split
  · rw [(irqNotice_only _ page).reg _ (noticeReg_irq page), h]
  · exact h

theorem bit_eq_testBit (s : State) (a i : Nat) : s.bit a i = (s.reg a).testBit i := by
  unfold State.bit bitOf fieldOf
  simp [Nat.testBit_eq_decide_div_mod_eq]

/-- A bit of any IRQ_STS that is set stays set through a rise of another page's bits or a counter's SAT. -/
theorem irqSet_keeps (s : State) (page mask p i : Nat) (hm : mask < 2 ^ 64) (h : s.bit (Reg.IRQ_STS p) i = true) :
    (s.irqSet page mask).bit (Reg.IRQ_STS p) i = true := by
  rw [bit_eq_testBit] at h ⊢
  by_cases e : p = page
  · subst e
    rw [reg_irqSet_same s p mask hm, Nat.testBit_or, h, Bool.true_or]
  · rw [(irqSet_only s page mask).reg _ ?_, h]
    rintro (g | g)
    · simp only [Reg.IRQ_STS] at g; omega
    · exact noticeReg_irq p g

/-- A rejected write sets IRQ_STS.REJECT of its page (R440). -/
theorem rejectWrite_irq (s : State) (w : Writer) (a v : Nat) (wide : Bool) :
    (s.rejectWrite w a v wide).bit (Reg.IRQ_STS (a / 4096)) 4 = true := by
  have h1 : ((s.audit w a v wide true).irqSet (a / 4096) 0x10).bit (Reg.IRQ_STS (a / 4096)) 4 = true := by
    rw [bit_eq_testBit, reg_irqSet_same _ _ _ (by decide), Nat.testBit_or]
    simp [show Nat.testBit 16 4 = true from by decide]
  unfold State.rejectWrite
  dsimp only
  split
  · generalize hu : (s.audit w a v wide true).irqSet (a / 4096) 0x10 = u at h1
    unfold State.inc State.addCnt
    dsimp only
    have h2 : (u.setReg Reg.GLB_WR_REJ (satAdd 32 (u.reg Reg.GLB_WR_REJ) 1)).bit (Reg.IRQ_STS (a / 4096)) 4 = true := by
      rw [bit_eq_testBit, reg_setReg_ne _ _ _ _ (by simp only [Reg.GLB_WR_REJ, Reg.IRQ_STS]; omega), ← bit_eq_testBit]
      exact h1
    split
    · exact irqSet_keeps _ _ _ _ _ (by decide) h2
    · exact h2
  · exact h1

end Sys2Proof.Machine
end

