-- ==== Sys2Proof/Tests/Slice0.lean ====
section
/-!
SUPPORT. The model's own tests. First small states to test on. Then `test_…`: ill-formed commands that WellFormed refuses, and
values that the spec's worked examples or the check values of the named codes give. Then `witness_<Name>`, one per obligation that
has hypotheses: for each of its clauses, in order, a concrete state and operands that meet all the clause's hypotheses together
(clauses with the same hypotheses share one, and an operand that no hypothesis restrains is not named).
-/
open Sys2Proof Sys2Proof.Machine
namespace Sys2Proof.Tests

set_option Elab.async false

/-- A module that runs: its supplies in range, both dies up, the Lining up. -/
def up : State := { State.reset with
  pw := { State.reset.pw with base := .up, pulse := .up, linUp := true, kaOk := true, mainOk := true, pwrGood := true } }

/-- A state with registers given as addresses and values. -/
def rs (s : State) (l : List (Nat × Nat)) : State := l.foldl (fun s x => s.setReg x.1 x.2) s

/-- Nugen as a writer, an administrator's session, the peer, and the Lining's own core. -/
def nug : Writer := ⟨.nugen, 0, .admin⟩
def adm : Writer := ⟨.mgmt, 0, .admin⟩
def peer : Writer := ⟨.slot, 0, .operator⟩
def lining : Writer := ⟨.lining, 0, .operator⟩

/-- A Pattern for four stacks with one variant, and the sequencer running it. -/
def pat0 : PatDesc :=
  ⟨7, 1, 0, true, 1, 1, 0, true, 9, [⟨0, 0xF, 12500, 0xFFFF, false, false⟩], [(0, 1, 1)], [], []⟩
def running : State := rs { up with seq := { up.seq with bank0 := ⟨.active, some pat0, 0, 0, []⟩ } } [(Reg.BLK_STS 0x10, 2)]

/-- A state with bytes of memory given as an address and its bytes from there. -/
def mb (s : State) (a : Nat) (l : List Nat) : State := s.setBytes a (l.map (BitVec.ofNat 8))

/-- The table's row of an address. -/
def rowOf (a : Nat) : RegRow := (findRow (a / 4096) (a % 4096)).getD ⟨0, 0, 0, false, 0, 0, 0, 0, 0, 0, 0, false⟩

/-- The state after a command. -/
def after (i : Instr) (s : State) : State :=
  match exec i s with
  | .next u => u
  | _ => s

/-- Slots: a MAC slot's fields, a VEC slot's fields. -/
def macSlot (op fmt : Nat) (ball acc : Bool) (asel wsel addr len stride depth : Nat) : BitVec 64 :=
  BitVec.ofNat 64 (op + fmt * 2 ^ 6 + ball.toNat * 2 ^ 10 + acc.toNat * 2 ^ 11 + asel * 2 ^ 12 + wsel * 2 ^ 13 + addr * 2 ^ 14 +
    len * 2 ^ 32 + stride * 2 ^ 40 + depth * 2 ^ 48)
def vecSlot (op type : Nat) (ball : Bool) (func srcA srcB dst len imm : Nat) : BitVec 96 :=
  BitVec.ofNat 96 (op + type * 2 ^ 6 + ball.toNat * 2 ^ 9 + func * 2 ^ 10 + srcA * 2 ^ 14 + srcB * 2 ^ 34 + dst * 2 ^ 54 +
    len * 2 ^ 74 + imm * 2 ^ 82)

/-- A tile with some numbers at its start. -/
def tile0 : State := mb up 0x4100000000 [0, 0, 0x80, 0x3F, 0, 0, 0, 0x40, 0, 0, 0x40, 0xC0, 0x81, 0x42, 0x7F, 0x80, 0, 0, 0xC0, 0x7F, 0, 0, 0x80, 0x7F,
  1, 0, 0, 0, 0xFF, 0xFF, 0x7F, 0x7F]
def tile1 : State := mb tile0 0x4100001000 [0, 0, 0x80, 0x3F, 0, 0, 0x80, 0x40, 0, 0, 0, 0x41, 0x99, 0x42, 0x7F, 0x01, 0, 0, 0xC0, 0x3F]

/-- A state with descriptor `i` of engine `e` given by its words. -/
def de (s : State) (e i : Nat) (ws : List Nat) : State :=
  { s with eng := { s.eng with descMem := (List.range (4 * ws.length)).foldl (fun m k =>
      sparseSet memDefault m (descOff e i + k) (BitVec.ofNat 8 (ws.getD (k / 4) 0 / 2 ^ (8 * (k % 4))))) s.eng.descMem } }

/-- A word of memory. -/
def mw (s : State) (a : Nat) (l : List Nat) : State := s.setBytes a (unwords l)

/-- An engine busy until cycle `c` of its count. -/
def busyTo (s : State) (e : Fin 15) (c : Nat) : State := { s with eng := { s.eng with freeAt := s.eng.freeAt.set e.val c } }

/-- Bytes with little-endian fields put in at their offsets: (offset, length, value). -/
def put (l : List Byte) (fs : List (Nat × Nat × Nat)) : List Byte :=
  fs.foldl (fun l f => l.take f.1 ++ leBytes f.2.1 f.2.2 ++ l.drop (f.1 + f.2.1)) l

/-- A flit of a type, sub-type, endpoint and stamp, with fields of its payload; its header check holds. -/
def fl (ty sub ep stamp : Nat) (fs : List (Nat × Nat × Nat)) : FlitIn :=
  ⟨put (flitHeader ty sub ep 0 3 0 ++ leBytes 8 stamp ++ List.replicate 240 0#8) fs, false, 0⟩

/-- Port `p` up with FEC lock in link state `l`, its time in order. -/
def port (s : State) (p l : Nat) : State := rs s [(Reg.STR_CTL p, 1), (Reg.STR_STS p, l + 24)]

/-- A reference record (R220) of a frame, and a plan (R225) with START. -/
def refRec (f sA sB rA rB : Nat) : List Byte :=
  let b := leBytes 8 f ++ leBytes 4 sA ++ leBytes 4 sB ++ leBytes 4 rA ++ leBytes 4 rB ++ List.replicate 36 0#8
  b ++ leBytes 4 (crc32c b).toNat
def planRec (start crc : Nat) : List Byte :=
  leBytes 8 4 ++ leBytes 8 start ++ List.replicate 8 0#8 ++ leBytes 4 crc ++ List.replicate 4 0#8 ++ (List.range 32).map (BitVec.ofNat 8) ++
    List.replicate 512 0#8

/-- The CRC register after one byte, so that a long record's check is evaluated in parts. -/
def crcFold (r : Nat) (bs : List Byte) : Nat :=
  bs.foldl (fun r b => (fun r => crc32cStep (crc32cStep (crc32cStep (crc32cStep (crc32cStep (crc32cStep (crc32cStep (crc32cStep r))))))))
    (r ^^^ b.toNat)) r
theorem crc32c_append (a b : List Byte) (x y : Nat) (h : crcFold 0xFFFFFFFF a = x) (k : crcFold x b = y) :
    (crc32c (a ++ b)).toNat = (y ^^^ 0xFFFFFFFF) % 2 ^ 32 := by
  have : crcFold 0xFFFFFFFF (a ++ b) = y := by rw [crcFold, List.foldl_append]; rw [← k, ← h]; rfl
  rw [← this, crc32c, BitVec.toNat_ofNat]; rfl
theorem crcFold_append (r : Nat) (a b : List Byte) (x y : Nat) (h : crcFold r a = x) (k : crcFold x b = y) : crcFold r (a ++ b) = y := by
  rw [crcFold, List.foldl_append]; rw [← k, ← h]; rfl

/-- The plans with START 9 and 2000000 are whole (their CRC evaluated in parts). -/
theorem planRec_zeroed (start crc x p y q z : Nat)
    (h : (planRec start crc).take 24 ++ [0#8, 0#8, 0#8, 0#8] ++ (planRec start crc).drop 28 =
      (planRec start 0).take 64 ++ (List.replicate 128 0#8 ++ (List.replicate 128 0#8 ++ (List.replicate 128 0#8 ++ List.replicate 128 0#8))))
    (hx : crcFold 0xFFFFFFFF ((planRec start 0).take 64) = x) (hp : crcFold x (List.replicate 128 0#8) = p)
    (hy : crcFold p (List.replicate 128 0#8) = y) (hq : crcFold y (List.replicate 128 0#8) = q)
    (hz : crcFold q (List.replicate 128 0#8) = z) (hc : (z ^^^ 0xFFFFFFFF) % 2 ^ 32 = leAt (planRec start crc) 0x18 4) :
    planCrcOk (planRec start crc) = true := by
  unfold planCrcOk
  rw [h, crc32c_append _ _ x z hx (crcFold_append _ _ _ p z hp (crcFold_append _ _ _ y z hy (crcFold_append _ _ _ q z hq hz))), hc]
  simp
theorem planRec_ok_9 : planCrcOk (planRec 9 1796580712) = true := by
  apply planRec_zeroed 9 1796580712 2650896505 3886550396 2387872309 3711964068 2498386583 <;> decide +kernel
theorem planRec_ok_2000000 : planCrcOk (planRec 2000000 997251315) = true := by
  apply planRec_zeroed 2000000 997251315 2910080010 3792159633 1780908511 1598543307 3297715980 <;> decide +kernel

/-- What the sense gives in a quiet period, and a plan frame's inputs with nothing in them. -/
def quiet : Sense := ⟨[0x44480000], 0x44480000, 0x3f800000, 0x42c80000, 0x44160000, 0x44160000, 0x3f800000, 0x40000000, 0x3f800000, 0x3f800000,
  [1, 2, 3, 4], [5, 6, 7, 8], [], [100, -100]⟩
def noPlan : PlanIn := ⟨false, [], [], 0, 0, 0, 0, [], [], 0, 0, 0, 0, 0, false, none⟩

/-- An owner that drives: contactor blocks, PCM, VMC and CLE running, two bricks of each string in service. -/
def power : State := rs { up with clp := { up.clp with drive := true, line := true, checkOk := true, contest := false, role := 4, timerAt := 1000000000000 } }
  [(Reg.CTC_STS 0, 2), (Reg.CTC_STS 1, 2), (Reg.BLK_STS 0x102, 2), (Reg.BLK_STS 0x108, 2), (Reg.BLK_STS 0x110, 2),
   (Reg.PCM_STS 0, 2), (Reg.PCM_STS 1, 2), (Reg.PCM_STS 24, 2), (Reg.PCM_STS 25, 2)]

/-- The module in the factory's life cycle, and the same with power. -/
def fab : State := { up with lc := .provision }
def powerFab : State := { power with lc := .provision }

/-- A Bead's reply with its CRC, from the number of its first 160 bits. -/
def reply (n : Nat) : BitVec 176 := BitVec.ofNat 176 (n % 2 ^ 160 + (crc16 (leBytes 20 (n % 2 ^ 160))).toNat * 2 ^ 160)

/-- The owner with both strings open, their bricks OFF and their Beads replying. -/
def ready : State := { rs power [(Reg.CTC_STS 0, 0), (Reg.CTC_STS 1, 0), (Reg.PCM_STS 0, 0), (Reg.PCM_STS 1, 0), (Reg.PCM_STS 24, 0), (Reg.PCM_STS 25, 0)] with
  loop := Vector.replicate 2 { LoopSt.empty with bead := Vector.replicate 15 { BeadSt.empty with awake := true, reach := true } } }

/-- The owner with its journal open and its Pattern running. -/
def owner : State := rs { running with clp := { up.clp with drive := true, line := true, checkOk := true, role := 4, timerAt := 1000000000000 } }
  [(Reg.JNL_CTL, 1), (Reg.HMK_CTL, 1)]

/-- An epoch of two requests, with its sums. -/
def epoch0 : EpochSt := { owner.newEpoch 4 0 1000000000 0 with
  stop := some 1250000000, bus := 1000, policy := 2, stage := .read,
  reqs := [⟨7, 1, 1000000000, 1250000000, 3 * 2 ^ 79, 2 ^ 79, 100, 1, 0⟩, ⟨9, 2, 1000000000, 1250000000, 4 * 2 ^ 79, 2 ^ 79, 100, 0, 0⟩],
  eps := [(0, (8 * 2 ^ 79, 5))] }

/-- A wiring plan of three shelves, this module's the first, as nodes 5, 7 and 9 of ring 5. -/
def plan3 : List Byte :=
  put (List.replicate 2048 0#8) ([(0, 4, 0x4C505751), (4, 2, 1), (6, 2, 0x40), (0x8, 4, 3), (0x18, 1, 5), (0x19, 1, 3), (0x1C, 4, 1000),
    (0x24, 4, 0xA0), (0x28, 4, 0x700), (0x40, 1, 5), (0x41, 1, 1), (0x42, 2, 10), (0x48, 8, State.reset.fx.serial.toNat), (0x50, 8, 11), (0x60, 1, 7), (0x61, 1, 1),
    (0x62, 2, 10), (0x68, 8, 77), (0x70, 8, 78), (0x80, 1, 9), (0x82, 2, 10), (0x88, 8, 99), (0x90, 8, 100)])

/-- A Chain frame with both its checks. -/
def fr (ty origin hops seq stamp : Nat) (fs : List (Nat × Nat × Nat)) : FlitIn :=
  let h := leBytes 1 ty ++ leBytes 1 origin ++ [0#8] ++ leBytes 1 5 ++ leBytes 3 seq
  let b := put (h ++ [crc8 h] ++ leBytes 8 stamp ++ List.replicate 236 0#8) fs
  ⟨b.take 2 ++ [BitVec.ofNat 8 hops] ++ b.drop 3 ++ leBytes 4 (crc32c b).toNat, false, 0⟩

/-- The owner on that ring: its lanes admitted, its stage open. -/
def ring3 : State := rs { owner with wiring := some plan3, chn := { owner.chn with lane := Vector.replicate 4 { owner.chn.lane[0] with app := true } } }
  [(Reg.CHN_CTL 0, 1), (Reg.CHN_CTL 1, 1), (Reg.CHN_CTL 2, 1), (Reg.CHN_CTL 3, 1),
   (Reg.CHN_STS 0, 0x1C), (Reg.CHN_STS 1, 0x1C), (Reg.CHN_STS 2, 0x1C), (Reg.CHN_STS 3, 0x1C), (Reg.JRJ_STS, 0x3A), (Reg.JRJ_CTL, 3)]

/-- The IDENT of another node of that plan, from lane `l` of direction `d`. -/
def ident (node sn d l : Nat) : FlitIn :=
  fr 1 node 0 3 100 [(0x18, 8, sn), (0x24, 1, node), (0x25, 1, 5), (0x26, 1, d), (0x27, 1, l), (0x28, 4, wirDomain plan3), (0x30, 16, leAt (wirDigest plan3) 0 16)]

/-- A Clasp frame with its CRC: ROLE, EPOCH and bits 35 to 32. -/
def clf (role epoch flags : Nat) : BitVec 48 :=
  let v := 11 + 32 * role + 256 * epoch + 2 ^ 32 * flags
  BitVec.ofNat 48 (v + 2 ^ 40 * (crc8 (leBytes 5 v)).toNat)

/-- A standby whose checker passes, with its slot link ADMITTED and its journal open. -/
def standby : State := rs { up with clp := { up.clp with role := 1, listenAt := none, checkOk := true, peerLapsed := false } }
  [(Reg.SLK_CTL, 1), (Reg.SLK_STS, 0x1C), (Reg.JNL_CTL, 1)]

/-- The owner before its Pattern starts again: a Cameo of one region of 64 bytes in its journal, with its latch. -/
def cameoRec : JRec := ⟨0x60, 8, 5, 0xC0, false, false, false, false,
  put (List.replicate 100 0#8) [(0, 8, 3), (8, 4, 1), (12, 8, 64), (20, 32, leAt (sha256 (List.replicate 64 5#8)) 0 32), (68, 16, pat0.layout.toNat), (84, 8, 7)]⟩
def cameoed : State :=
  { rs { owner with seq := { owner.seq with bank0 := ⟨.active, some { pat0 with regions := [(0x1000, 64, true)] }, 0, 0, []⟩ } }
      [(Reg.BLK_STS 0x10, 0), (Reg.JNL_STS, 1)] with
    jnl := { owner.jnl with
      log := [(4, ⟨0x08, 7, 5, 0xC0, false, false, false, false, put (List.replicate 16 0#8) [(0, 8, 3)] ++ List.replicate 64 5#8⟩), (4, cameoRec)]
      latches := [(7, (Fv.ofNat 3, Fv.ofNat 4))], charge := (Fv.ofNat 9, Fv.ofNat 9) } }

/-- Nugen runs, session 5 has a role and a message in mailbox 20, and the peer one in mailbox 21. -/
def svc (s : State) (r : Role) : State := rs { s with
    nug := { s.nug with sess := s.nug.sess.set 5 (some ⟨r, true, false, [], 0, 200⟩) }
    mbx := { s.mbx with box := s.mbx.box.set 20 { s.mbx.box[(20 : Fin 64)] with poster := some 5 } } }
  [(Reg.NUG_STS, 9), (Reg.MGP_CTL, 7), (Reg.MBX_CFG 20, 0x0800), (Reg.MBX_STS 20, 0x0301), (Reg.MBX_SEQ 20, 3), (Reg.MBX_CFG 21, 0x1000), (Reg.MBX_STS 21, 0x0401)]

/-! ## Ill-formed commands -/

/-- A flit of 256 bytes that holds nothing, and one that is a byte short. -/
def flit256 : FlitIn := ⟨List.replicate 256 0#8, false, 0⟩
def flit255 : FlitIn := ⟨List.replicate 255 0#8, false, 0⟩

theorem test_wf_flit : WellFormed (.strandTelem 0 0 flit256) = true ∧ WellFormed (.strandTelem 0 0 flit255) = false ∧
    WellFormed (.jrjTime 0 0 flit255) = false := by decide +kernel
theorem test_wf_sense : WellFormed (.pulsePeriodBoundary { quiet with m2 := List.replicate 48 0, mean := List.replicate 48 0 }) = true ∧
    WellFormed (.pulsePeriodBoundary { quiet with vout := [], m2 := List.replicate 48 0, mean := List.replicate 48 0 }) = false := by decide +kernel
theorem test_wf_plan_frame : WellFormed (.planFrameBoundary noPlan) = false ∧
    WellFormed (.planFrameBoundary { noPlan with strs := List.replicate 2 ⟨0, true, 0, 0, 0, [], false⟩ }) = true := by decide +kernel
theorem test_wf_window : WellFormed (.windowAccess 0 ⟨.nugen, 32, some (List.replicate 33 0#8), 0, .none, false⟩) = false ∧
    WellFormed (.windowAccess 0 ⟨.nugen, 32, none, 32, .none, false⟩) = true := by decide +kernel
theorem test_wf_temperatures : WellFormed (.coolingAirEntry 0 ⟨[20, 20, 20], 20, 20, []⟩) = false ∧
    WellFormed (.coolingLiquidReturn 0 ⟨[20, 20, 20, 20], 20, 20, [1, 2, 3, 4, 5]⟩ 0) = false := by decide +kernel
theorem test_wf_cable : WellFormed (.cmisPoll 0 .east ⟨true, true, 0, false, false, 0, [0], [0, 0], [0, 0]⟩) = false := by decide +kernel
theorem test_wf_records : WellFormed (.journalMirrorRx 0 ⟨65536, 0, 0, 0, false, false, false, false, []⟩) = false ∧
    WellFormed (.jnlRecordQueue 0 ⟨65536, false, 0, []⟩) = false ∧ WellFormed (.peerJournalRecordRx 0 ⟨1, false, 0, []⟩) = true := by
  decide +kernel
theorem test_wf_granules : WellFormed (.referenceHandoffArrive 0 (List.replicate 63 0#8) false) = false ∧
    WellFormed (.planBufferArrive 0 (List.replicate 64 0#8)) = false ∧ WellFormed (.planMirror 0 []) = false := by decide +kernel
/-- A payload one byte longer than a record can hold. -/
def pat353 : List Byte := List.replicate 16353 0#8
theorem pat353_long : wfPayload pat353.length = false := by rw [pat353, List.length_replicate]; rfl
theorem test_wf_payload (o : SvcOrigin) (x : SigVerdict) : WellFormed (.policyCommit 0 o 0 pat353) = false ∧
    WellFormed (.standingPolicy 0 o 0 [1#8]) = true ∧ WellFormed (.wiringLoad 0 o 0 pat353 x) = false :=
  ⟨pat353_long, rfl, pat353_long⟩
theorem test_wf_redfish : WellFormed (.redfishRequest 0 0 ⟨false, .write 0 (.policyCommit pat353)⟩) = false := pat353_long
theorem test_wf_event : WellFormed (.eventPost 0 ⟨0, 0, 0, 0, 0, 0, 0, 0⟩) = false := by decide +kernel
theorem test_wf_address : WellFormed (.registerWrite 0 nug (2 ^ 40) 32 0) = false ∧ WellFormed (.registerWrite 0 nug 0 24 0) = false ∧
    WellFormed (.registerWrite 0 nug 0 8 256) = false ∧ WellFormed (.regWrite64Low 0 nug (2 ^ 40) 0) = false := by decide +kernel
theorem test_wf_lists : WellFormed (.clockStretch 0 257) = false ∧ WellFormed (.ddcTraining 0 [none]) = false ∧
    WellFormed (.beadAddr 0 .A []) = false ∧ WellFormed (.deviationEval 0 .A 0 []) = false := by decide +kernel

/-! ## Values that the spec's worked examples give, and the check values of the codes it names -/

/-- The bytes of the digits 1 to 9, on which the catalogues of codes give their check values. -/
def digits : List Byte := (List.range 9).map (fun i => BitVec.ofNat 8 (0x31 + i))
theorem test_crc_check_values : crc32c digits = 0xE3069283#32 ∧ crc16 digits = 0x29B1#16 ∧ crc8 digits = 0xF4#8 := by decide +kernel
/-- FIPS 180-4: the digest of the three bytes "abc" begins BA 78 16 BF 8F 01 CF EA. -/
theorem test_sha256_abc : (sha256 [0x61#8, 0x62#8, 0x63#8]).take 8 = [0xBA#8, 0x78#8, 0x16#8, 0xBF#8, 0x8F#8, 0x01#8, 0xCF#8, 0xEA#8] := by
  decide +kernel

/-- "A four-element ball product" (04_mac_arrays_arithmetic.md): the rows with their stored radii. -/
def ballRows : List Term :=
  [⟨0, 0x3C, 0x40, 127, 127, 0x2400, 0x2001, ⟩, ⟨1, 0xC0, 0x30, 127, 127, 0x2400, 0x0003⟩,
   ⟨2, 0x34, 0xC8, 127, 127, 0x0000, 0x2401⟩, ⟨3, 0x44, 0x3A, 127, 127, 0x2800, 0x2001⟩]
theorem test_ball_constant : ballC 0 4 = 5 := by decide +kernel
theorem test_ball_stored_radii : storedRad 5 (e4m3.dec 0x40) 0x2000 = 0x2001 ∧ storedRad 5 (e4m3.dec 0x30) 0 = 0x0003 ∧
    storedRad 5 (e4m3.dec 0xC8) 0x2400 = 0x2401 ∧ storedRad 5 (e4m3.dec 0x3A) 0x2000 = 0x2001 := by decide +kernel
theorem test_ball_midpoint : passMid 0 ballRows = (0x40300000, false) := by decide +kernel
theorem test_ball_radius : passRad 0 ballRows = 0x3005 := by decide +kernel

/-- "Timing one QP solve" (05_engines_shared_memory.md). -/
def qpExample : Desc := ⟨0, 7010, 0, 0, 0, 0, 0, 0, [4096, 8, 4096, 512, 32768, 4]⟩
theorem test_qp_sizes : (qpArrays qpExample).foldl (· + ·) 0 = 7010 ∧ qpTit qpExample = 4836 := by decide +kernel

/-- "An overrun absorbed" (03_stitch_sequencer.md): 512 stretched cycles, FRAME_END at Stitch 12,199. -/
def overrun : State := { running with now := 10000000000, seq := { running.seq with body := ⟨true, 1000000, 0, 512, none, 1⟩, lastFrame := some 1000000 } }
theorem test_overrun_frame_end : (after (.stitchFrameEnd 10000010000 12199) overrun).seq.body.ended = some 12711 := by decide +kernel
theorem test_overrun_catch_up :
    (after (.catchupBodyStart 10000010000) (after (.stitchFrameEnd 10000010000 12199) overrun)).seq.body.late = 220 := by decide +kernel

/-- "The crash meets a rotation" (07_pulse_die.md): 48 bricks turn on 208 ticks apart, 27 of them 370. -/
theorem test_pleat_offsets : (1 * 10000 / 48, 1 * 10000 / 27) = (208, 370) := by decide +kernel

/-- A write that is admitted, one of a reserved bit, and one of a read-only register (R440). -/
theorem test_scratch_write : (after (.registerWrite 5 nug (0x4000000000 + Reg.GLB_SCRATCH) 32 7) up).reg Reg.GLB_SCRATCH = 7 := by decide +kernel
theorem test_reserved_bit : (after (.registerWrite 5 nug (0x4000000000 + Reg.EVT_SEL) 32 0x1000) up).reg Reg.EVT_SEL = 0 ∧
    (after (.registerWrite 5 nug (0x4000000000 + Reg.EVT_SEL) 32 0x1000) up).reg Reg.GLB_WR_REJ = 1 := by decide +kernel
theorem test_read_only : (after (.registerWrite 5 nug (0x4000000000 + Reg.LIN_STS) 32 1) up).reg Reg.LIN_STS = up.reg Reg.LIN_STS := by decide +kernel

/-- The block idles with no command waiting. -/
theorem test_idle : step up = .next up := by rfl

/-! ## Witnesses of the obligations' hypotheses -/

theorem witness_StepTakesTheFrontOfTheQueue :
    (∃ (c : Instr) (rest : List Instr) (s : State), s.pending = c :: rest) ∧
    (∃ (s : State), s.pending = []) := by
  refine ⟨?_, ?_⟩
  · refine ⟨.clockStepApply 5, [], { up with pending := [.clockStepApply 5] }, ?_⟩; decide +kernel
  · refine ⟨up, ?_⟩; decide +kernel

theorem witness_StepKeepsTheTablesCanonical :
    (∃ (s : State) (u : State), s.regsWf ∧ step s = Host.Outcome.next u) ∧
    (∃ (s : State) (u : State), s.memWf ∧ step s = Host.Outcome.next u) := by
  refine ⟨?_, ?_⟩
  · refine ⟨up, up, ?_, ?_⟩
    · decide +kernel
    · rfl
  · refine ⟨up, up, ?_, ?_⟩
    · decide +kernel
    · rfl

theorem witness_StepKeepsTheRingsWithinTheirSizes :
    (∃ (s : State) (u : State), s.ringsWf ∧ step s = Host.Outcome.next u) := by
  refine ⟨up, up, ?_, ?_⟩
  · decide +kernel
  · rfl

theorem witness_WritesReadBackAndStayApart :
    (∃ (s : State), s.regsWf) ∧
    (∃ (s : State), s.memWf) := by
  refine ⟨?_, ?_⟩
  · refine ⟨up, ?_⟩; decide +kernel
  · refine ⟨up, ?_⟩; decide +kernel

theorem witness_WritesAreAcceptedOrRejectedWhole :
    (∃ (w : Writer) (a : Nat) (v : Word) (r : RegRow) (s : State), (admits s w a 32 (BitVec.toNat v) = true ∧ findRow (a / 4096) (a % 4096) = some r ∧ a ≠ Reg.TIM_CTL ∧ a % 4096 ≠ 20 ∧ s.basePowered = true ∧ s.reg Reg.AUD_LOST + 1 < 2 ^ 32 - 1) ∧ regHook w a = plain) ∧
    (∃ (w : Writer) (v : Word) (s : State), admits s w Reg.TIM_CTL 32 (BitVec.toNat v) = true ∧ s.disciplineEn = true ∧ (BitVec.toNat v).testBit 0 = false) ∧
    (∃ (w : Writer) (page : Fin 277) (v : Word) (s : State), admits s w (Reg.IRQ_EN ↑page) 32 (BitVec.toNat v) = true) ∧
    (∃ (w : Writer) (a : Nat) (v : Word) (r : RegRow) (s : State), reaches s w (a / 4096) = true ∧ a % 4 = 0 ∧ findRow (a / 4096) (a % 4096) = some r ∧ findHigh (a / 4096) (a % 4096) = none ∧ r.wide = false ∧ s.basePowered = true ∧ (s.bit (Reg.LOCK (a / 4096)) 0 = true ∧ 256 ≤ a % 4096 ∧ (BitVec.toNat v ^^^ s.reg a) &&& (r.rw ||| r.rwl) ≠ 0 ∨ lcRwl s.lc = false ∧ (BitVec.toNat v ^^^ s.reg a) &&& r.rwl ≠ 0 ∨ BitVec.toNat v ||| knownMask r ≠ knownMask r ∨ whollyRO r = true)) := by
  refine ⟨?_, ?_, ?_, ?_⟩
  · refine ⟨nug, Reg.EVT_SEL, 7, (rowOf (Reg.EVT_SEL)), up, ?_, ?_⟩
    · decide +kernel
    · rfl
  · refine ⟨nug, 0, rs up [(Reg.TIM_CTL, 1), (Reg.PTB_STEP, 9), (Reg.PTB_SLEW, 9)], ?_⟩; decide +kernel
  · refine ⟨nug, 5, 3, rs up [(Reg.IRQ_STS 5, 1)], ?_⟩; decide +kernel
  · refine ⟨nug, Reg.LIN_STS, 7, (rowOf (Reg.LIN_STS)), up, ?_⟩; decide +kernel

theorem witness_DecodeErrorsAndHeldWords :
    (∃ (w : Writer) (a : Nat) (s : State), pathArrives s w (a / 4096) = true ∧ pageAllocated (a / 4096) = false ∧ s.basePowered = true ∧ a < 16777216) ∧
    (∃ (w : Writer) (a : Nat) (s : State), pathArrives s w (a / 4096) = false ∧ a < 16777216) ∧
    (∃ (w : Writer) (a : Nat) (r : RegRow) (s : State), reaches s w (a / 4096) = true ∧ a % 4 = 0 ∧ findHigh (a / 4096) (a % 4096) = none ∧ findRow (a / 4096) (a % 4096) = some r ∧ r.wide = true) ∧
    (∃ (w : Writer) (a : Nat) (v : Word) (low : Word) (r : RegRow) (s : State), (reaches s w (a / 4096) = true ∧ a % 8 = 0 ∧ findHigh (a / 4096) ((a + 4) % 4096) = some r ∧ findRow (a / 4096) (a % 4096) = some r ∧ (a + 4) / 4096 = a / 4096 ∧ s.heldLow w a = some (BitVec.toNat low) ∧ a ≠ Reg.TIM_CTL ∧ s.basePowered = true ∧ s.reg Reg.AUD_LOST + 1 < 2 ^ 32 - 1 ∧ fieldsAdmit s (a / 4096) (a % 4096) r (BitVec.toNat low + BitVec.toNat v * 2 ^ 32) = true) ∧ regHook w a = plain) := by
  refine ⟨?_, ?_, ?_, ?_⟩
  · refine ⟨nug, 0x6000, up, ?_⟩; decide +kernel
  · refine ⟨nug, Reg.EVT_SEL, State.reset, ?_⟩; decide +kernel
  · refine ⟨nug, Reg.PTB_STEP, (rowOf (Reg.PTB_STEP)), up, ?_⟩; decide +kernel
  · refine ⟨nug, Reg.SEQ_LOAD_ADDR, 1, 64, (rowOf (Reg.SEQ_LOAD_ADDR)), fab.putHeld nug Reg.SEQ_LOAD_ADDR 64, ?_, ?_⟩
    · decide +kernel
    · rfl

theorem witness_TimeStatesFollowTheSource :
    (∃ (s : State), (s.time.tstate = TState.lockedPtp ∨ s.time.tstate = TState.lockedChain ∨ s.time.tstate = TState.acquiring)) ∧
    (∃ (s : State), s.time.tstate = TState.holdover) ∧
    (∃ (src : TimeSource) (s : State), src ≠ TimeSource.none ∧ s.time.tstate ≠ TState.lockedPtp ∧ s.time.tstate ≠ TState.lockedChain) ∧
    (∃ (offset : Int) (s : State), s.time.tstate = TState.acquiring ∧ offset.natAbs < 20 ∧ s.time.source ≠ TimeSource.none) := by
  refine ⟨?_, ?_, ?_, ?_⟩
  · refine ⟨{ up with time := { up.time with tstate := .lockedPtp, source := .ptp } }, ?_⟩; decide +kernel
  · refine ⟨{ up with time := { up.time with tstate := .holdover, unc := 0 } }, ?_⟩; decide +kernel
  · refine ⟨.ptp, up, ?_⟩; decide +kernel
  · refine ⟨-19, { up with time := { up.time with tstate := .acquiring, source := .ptp } }, ?_⟩; decide +kernel

theorem witness_PtpAndStepsMoveTheClock :
    (∃ (m : PtpMsg) (off : Int) (s : State), s.baseUp = true ∧ s.ptpOn = true ∧ m.tai = true ∧ m.domain.toNat = s.fld Reg.TIM_PTP_CFG 0 7 ∧ m.offset = some off ∧ s.time.source = TimeSource.ptp ∧ s.disciplineEn = true ∧ s.patternRunning = false) ∧
    (∃ (m : PtpMsg) (off : Nat) (s : State), s.baseUp = true ∧ s.ptpOn = true ∧ m.tai = true ∧ m.domain.toNat = s.fld Reg.TIM_PTP_CFG 0 7 ∧ m.offset = some ↑off ∧ s.time.source = TimeSource.ptp ∧ s.disciplineEn = true ∧ s.patternRunning = true ∧ off < 2 ^ 63) ∧
    (∃ (m : PtpMsg) (off : Int) (s : State), s.baseUp = true ∧ s.ptpOn = true ∧ m.tai = true ∧ m.domain.toNat = s.fld Reg.TIM_PTP_CFG 0 7 ∧ m.offset = some off ∧ s.time.source = TimeSource.chain) ∧
    (∃ (s : State), s.time.source = TimeSource.chain ∧ 10 ≤ s.time.disagreeRun) ∧
    (∃ (t : Nat) (s : State), stepMayApply (s.at t) = true ∧ (s.patternRunning && s.epochOpen) = false) ∧
    (∃ (t : Nat) (s : State), s.patternRunning = true ∧ (s.pendingStep ≤ 0 ∨ (s.at t).now % 1000000 ≠ 0)) ∧
    (∃ (w : Writer) (v : DWord) (s : State), admits s w Reg.PTB_STEP 64 (BitVec.toNat v) = true ∧ s.disciplineEn = false ∧ (s.patternRunning && decide (sext 64 (BitVec.toNat v) < 0)) = false) ∧
    (∃ (w : Writer) (v : DWord) (s : State), admits s w Reg.PTB_STEP 64 (BitVec.toNat v) = true ∧ s.patternRunning = true ∧ sext 64 (BitVec.toNat v) < 0) ∧
    (∃ (w : Writer) (v : Word) (s : State), admits s w Reg.PTB_SLEW 32 (BitVec.toNat v) = true ∧ s.disciplineEn = false) := by
  refine ⟨?_, ?_, ?_, ?_, ?_, ?_, ?_, ?_, ?_⟩
  · refine ⟨⟨0, true, some (-500), some 37⟩, -500, rs { up with time := { up.time with source := .ptp } } [(Reg.TIM_CTL, 3), (Reg.MGP_CTL, 8)], ?_⟩; decide +kernel
  · refine ⟨⟨0, true, some 2500000, none⟩, 2500000, rs { running with time := { up.time with source := .ptp } } [(Reg.TIM_CTL, 3), (Reg.MGP_CTL, 8)], ?_⟩; decide +kernel
  · refine ⟨⟨0, true, some 30, some 37⟩, 30, rs { up with time := { up.time with source := .chain } } [(Reg.TIM_CTL, 3), (Reg.MGP_CTL, 8)], ?_⟩; decide +kernel
  · refine ⟨{ up with time := { up.time with source := .chain, disagreeRun := 10 } }, ?_⟩; decide +kernel
  · refine ⟨1000, rs up [(Reg.PTB_STEP, 2 ^ 64 - 500)], ?_⟩; decide +kernel
  · refine ⟨1000000, rs running [(Reg.PTB_STEP, 2 ^ 64 - 1000000)], ?_⟩; decide +kernel
  · refine ⟨nug, 500, rs up [(Reg.TIM_CTL, 0)], ?_⟩; decide +kernel
  · refine ⟨nug, 0xFFFFFFFFFFFFFFFF, rs running [(Reg.TIM_CTL, 0)], ?_⟩; decide +kernel
  · refine ⟨nug, 30000, rs up [(Reg.TIM_CTL, 0)], ?_⟩; decide +kernel

theorem witness_StitchesEndTraceAndStretchTheBody :
    (∃ (s : State), s.seq.body.active = true) ∧
    (∃ (s : State), s.blk seqPg ≠ stOff) := by
  refine ⟨?_, ?_⟩
  · refine ⟨{ running with seq := { running.seq with body := ⟨true, 3, 1, 2, none, 0⟩ } }, ?_⟩; decide +kernel
  · refine ⟨{ running with seq := { running.seq with body := ⟨true, 3, 1, 2, none, 0⟩, swapDue := some 9 } }, ?_⟩; decide +kernel

theorem witness_LoadsAreCheckedBeforeTheyAreStaged :
    (∃ (w : Writer) (s : State), admits s w Reg.SEQ_LOAD 32 1 = true ∧ s.seqBusy = false ∧ s.seq.loadBusy = false) ∧
    (∃ (w : Writer) (s : State), admits s w Reg.SEQ_LOAD 32 3 = true ∧ s.seqBusy = false ∧ s.seq.loadBusy = false) ∧
    (∃ (w : Writer) (s : State), admits s w Reg.SEQ_LOAD 32 1 = true ∧ s.seqBusy = true) ∧
    (∃ (s : State), s.seq.loadBusy = true) := by
  refine ⟨?_, ?_, ?_, ?_⟩
  · refine ⟨nug, running, ?_⟩; decide +kernel
  · refine ⟨nug, running, ?_⟩; decide +kernel
  · refine ⟨nug, rs running [(Reg.BLK_STS 0x10, 6)], ?_⟩; decide +kernel
  · refine ⟨{ running with seq := { running.seq with loadBusy := true, loadSig := ⟨true, false⟩ } }, ?_⟩; decide +kernel

theorem witness_SwapsAndVariantsTakeOverAtTheirBoundaries :
    (∃ (w : Writer) (bank : Bool) (s : State), admits s w Reg.SEQ_SWAP 32 (b2n bank + 2) = true ∧ swapGoOk bank s = true ∧ s.seqBusy = false) ∧
    (∃ (t : Nat) (d : Nat) (p : PatDesc) (s : State), s.seq.swapDue = some d ∧ d ≤ max s.now t ∧ s.seq.sw = SwitchKind.none ∧ s.seq.body.active = false ∧ s.inactBank.pat = some p ∧ p.hot = true) ∧
    (∃ (t : Nat) (d : Nat) (p : PatDesc) (s : State), s.seq.swapDue = some d ∧ d ≤ max s.now t ∧ s.seq.sw = SwitchKind.none ∧ s.seq.body.active = false ∧ s.inactBank.pat = some p ∧ p.hot = false ∧ s.blk seqPg = stRunning) ∧
    (∃ (t : Nat) (s : State), s.seq.coldHold = true ∧ max s.now t % 1000000 = 0 ∧ s.blk seqPg = stHold ∧ s.seq.body.active = false) ∧
    (∃ (w : Writer) (s : State), admits s w Reg.SEQ_SWAP 32 (16 + s.fld Reg.SEQ_SWAP 0 1) = true ∧ s.inactBank.kind = BankKind.previous) ∧
    (∃ (p : PatDesc) (s : State), s.runningPat = some p ∧ s.inactBank.kind = BankKind.empty ∧ s.seq.sw = SwitchKind.none ∧ ((p.variants.any fun v => decide (v.code = s.fld Reg.SEQ_WARM 0 8)) = true)) ∧
    (∃ (w : Writer) (v : Word) (s : State), admits s w Reg.SEQ_WARM 32 (BitVec.toNat v) = true) ∧
    (∃ (s : State), s.seq.sw = SwitchKind.warm ∧ s.seq.body.active = false ∧ s.isWarm s.seq.swVariant = true ∧ s.seq.swapDue = none) ∧
    (∃ (s : State), s.seq.sw = SwitchKind.copy ∧ s.blk seqPg = stHold) ∧
    (∃ (t : Nat) (r : Nat) (s : State), s.seq.sw = SwitchKind.copy ∧ s.seq.swReadyAt = some r ∧ r ≤ max s.now t ∧ max s.now t % 10000 = 0 ∧ s.blk seqPg = stHold ∧ s.seq.swapDue = none ∧ s.seq.body.active = false) ∧
    (∃ (t : Nat) (c : Nat) (r : Nat) (s : State), s.seq.sw = SwitchKind.noHold c ∧ s.seq.swReadyAt = some r ∧ r ≤ max s.now t ∧ max s.now t % 10000 = 0 ∧ s.seq.body.active = false ∧ s.seq.swapDue = none) ∧
    (∃ (t : Nat) (e : Nat) (s : State), s.seq.body.ended = some e ∧ s.seq.body.active = false ∧ s.seq.body.missed = 1 ∧ s.blk seqPg = stRunning ∧ s.seq.lastFrame = some s.seq.body.frame ∧ max s.now t < (s.seq.body.frame + 2) * 10000 ∧ s.seq.sw = SwitchKind.none ∧ s.seq.swapDue = none) ∧
    (∃ (t : Nat) (v : Nat) (d : Nat) (p : PatDesc) (s : State), max s.now t % 1000000 = 0 ∧ s.blk seqPg = stOff ∧ s.bit (Reg.BLK_STS seqPg) 4 = true ∧ s.bit (Reg.BLK_CTL seqPg) 0 = true ∧ s.actBank.pat = some p ∧ s.selectFor (some p) = some (v, d) ∧ s.seq.body.active = false) := by
  refine ⟨?_, ?_, ?_, ?_, ?_, ?_, ?_, ?_, ?_, ?_, ?_, ?_, ?_⟩
  · refine ⟨nug, true, { running with seq := { running.seq with bank1 := ⟨.staged, some pat0, 0, 0, []⟩ } }, ?_⟩; decide +kernel
  · refine ⟨5, 0, pat0, { running with seq := { running.seq with bank1 := ⟨.staged, some pat0, 0, 0, []⟩, swapDue := some 0 } }, ?_⟩; decide +kernel
  · refine ⟨5, 0, { pat0 with hot := false }, { running with seq := { running.seq with bank1 := ⟨.staged, some { pat0 with hot := false }, 0, 0, []⟩, swapDue := some 0 } }, ?_⟩; decide +kernel
  · refine ⟨1000000, rs { running with seq := { running.seq with bank1 := ⟨.staged, some { pat0 with hot := false }, 0, 0, []⟩, coldHold := true } } [(Reg.BLK_STS 0x10, 6)], ?_⟩; decide +kernel
  · refine ⟨nug, { running with seq := { running.seq with bank1 := ⟨.previous, some pat0, 0, 0, []⟩, swapDue := some 0 } }, ?_⟩; decide +kernel
  · refine ⟨pat0, rs running [(Reg.SEQ_WARM, 0)], ?_⟩; decide +kernel
  · refine ⟨nug, 0x20, up, ?_⟩; decide +kernel
  · refine ⟨{ running with seq := { running.seq with bank1 := ⟨.warm, some pat0, 0x10, 0, []⟩, sw := .warm, swVariant := 0x10 } }, ?_⟩; decide +kernel
  · refine ⟨rs { running with seq := { running.seq with sw := .copy, swVariant := 0x10 } } [(Reg.BLK_STS 0x10, 6)], ?_⟩; decide +kernel
  · refine ⟨20000, 7, rs { running with seq := { running.seq with sw := .copy, swVariant := 0x10, swReadyAt := some 7 } } [(Reg.BLK_STS 0x10, 6)], ?_⟩; decide +kernel
  · refine ⟨20000, 2, 7, { running with seq := { running.seq with sw := .noHold 2, swVariant := 0x30, swSteer := 1, swReadyAt := some 7 } }, ?_⟩; decide +kernel
  · refine ⟨40000, 12600, { running with seq := { running.seq with body := ⟨false, 3, 0, 0, some 12600, 1⟩, lastFrame := some 3 } }, ?_⟩; decide +kernel
  · refine ⟨1000000, 0, 0, pat0, rs running [(Reg.BLK_STS 0x10, 16), (Reg.BLK_CTL 0x10, 1)], ?_⟩; decide +kernel

theorem witness_InjectionsAndFailuresMarkTheirUnits :
    (∃ (w : Writer) (x : Fin 20) (v : Word) (s : State), admits s w (Reg.ERR_INJ (injPage ↑x)) 32 (BitVec.toNat v ||| 1) = true) ∧
    (∃ (w : Writer) (x : Fin 20) (v : Word) (s : State), admits s w (Reg.ERR_INJ (injPage ↑x)) 32 (BitVec.toNat v ||| 2) = true) ∧
    (∃ (w : Writer) (x : Fin 20) (v : Word) (s : State), admits s w (Reg.ERR_INJ (injPage ↑x)) 32 (BitVec.toNat v ||| 4) = true) ∧
    (∃ (s : State), lcErrInj s.lc = false) ∧
    (∃ (k : Fin 16) (s : State), pagePresent s.fx (32 + ↑k) = true ∧ s.bit Reg.SEQ_FAILED ↑k = false) ∧
    (∃ (d : Fin 4) (s : State), pagePresent s.fx (48 + ↑d) = true ∧ s.stackFailed ↑d = false) ∧
    (∃ (w : Writer) (v : Word) (s : State), admits s w Reg.SEQ_FAILED 32 (BitVec.toNat v) = true) := by
  refine ⟨?_, ?_, ?_, ?_, ?_, ?_, ?_⟩
  · refine ⟨nug, 0, 1, { up with lc := .fab }, ?_⟩; decide +kernel
  · refine ⟨nug, 0, 2, { up with lc := .fab }, ?_⟩; decide +kernel
  · refine ⟨nug, 19, 4, { up with lc := .fab }, ?_⟩; decide +kernel
  · refine ⟨up, ?_⟩; decide +kernel
  · refine ⟨3, running, ?_⟩; decide +kernel
  · refine ⟨1, running, ?_⟩; decide +kernel
  · refine ⟨nug, 3, rs running [(Reg.SEQ_FAILED, 7)], ?_⟩; decide +kernel

theorem witness_MacSlotsAndVectorElements :
    (∃ (k : Fin 16) (s : State), s.arrayRuns (s.steerArray ↑k) = true ∧ s.steerArray ↑k < 16) ∧
    (∃ (k : Fin 16) (s : State), s.arrayRuns (s.steerArray ↑k) = true ∧ s.steerArray ↑k < 16 ∧ s.reg (Reg.ERR_INJ (32 + s.steerArray ↑k)) % 4 = 0) ∧
    (∃ (k : Fin 16) (s : State), s.arrayRuns (s.steerArray ↑k) = true ∧ s.steerArray ↑k < 16 ∧ s.reg (Reg.ERR_INJ (32 + s.steerArray ↑k)) % 4 ≠ 0) ∧
    (∃ (t : Nat) (c : Nat) (k : Fin 16) (slot : BitVec 64) (s : State) (i : Instr), s.arrayRuns (s.steerArray ↑k) = false ∧ i ∈ [Instr.macWload t c k slot, Instr.macStream t c k slot, Instr.macDrain t c k slot]) ∧
    (∃ (p : (Nat → Fin 4 → BitVec 96 → Instr) × (Int → Fv → Fv → Fv → Fv) × (Int → Lane → Lane → Lane → Fv → Fv) × Bool) (d : Fin 4) (s : State), (s.vecRuns (s.steerStack ↑d) = true ∧ s.steerStack ↑d < 4 ∧ s.reg (Reg.ERR_INJ (48 + s.steerStack ↑d)) % 8 = 0) ∧ p ∈ vecElementRows) ∧
    (∃ (d : Fin 4) (s : State), s.vecRuns (s.steerStack ↑d) = true ∧ s.steerStack ↑d < 4 ∧ s.reg (Reg.ERR_INJ (48 + s.steerStack ↑d)) % 8 = 0) := by
  refine ⟨?_, ?_, ?_, ?_, ?_, ?_⟩
  · refine ⟨0, tile1, ?_⟩; decide +kernel
  · refine ⟨0, tile1, ?_⟩; decide +kernel
  · refine ⟨2, rs tile1 [(Reg.ERR_INJ 0x22, 1)], ?_⟩; decide +kernel
  · refine ⟨5, 5, 0, 1, rs tile1 [(Reg.SEQ_FAILED, 1)], .macStream 5 5 0 1, ?_, ?_⟩
    · decide +kernel
    · simp
  · refine ⟨vecElementRows.get ⟨1, by decide⟩, 0, tile1, ?_, ?_⟩
    · decide +kernel
    · exact List.get_mem _ _
  · refine ⟨0, tile1, ?_⟩; decide +kernel

theorem witness_VectorReductionsTablesAndConversions :
    (∃ (p : (Nat → Fin 4 → BitVec 96 → Instr) × (Nat → List Lane → OutLane)) (d : Fin 4) (s : State), (s.vecRuns (s.steerStack ↑d) = true ∧ s.steerStack ↑d < 4 ∧ s.reg (Reg.ERR_INJ (48 + s.steerStack ↑d)) % 8 = 0) ∧ p ∈ [(Instr.vecRsum, rsumLane), (Instr.vecRmax, rmaxLane)]) ∧
    (∃ (d : Fin 4) (s : State), s.vecRuns (s.steerStack ↑d) = true ∧ s.steerStack ↑d < 4 ∧ s.reg (Reg.ERR_INJ (48 + s.steerStack ↑d)) % 8 = 0) ∧
    (∃ (p : Nat → Fin 4 → BitVec 96 → Instr) (d : Fin 4) (slot : BitVec 96) (s : State), (s.vecRuns (s.steerStack ↑d) = true ∧ s.steerStack ↑d < 4 ∧ s.reg (Reg.ERR_INJ (48 + s.steerStack ↑d)) % 8 = 0 ∧ ((VecOp.ofBits slot.toNat).func ≠ 2)) ∧ p ∈ [Instr.vecCvt, Instr.vecPackMx]) ∧
    (∃ (p : Nat → Fin 4 → BitVec 96 → Instr) (d : Fin 4) (slot : BitVec 96) (s : State), (s.vecRuns (s.steerStack ↑d) = true ∧ s.steerStack ↑d < 4 ∧ s.reg (Reg.ERR_INJ (48 + s.steerStack ↑d)) % 8 = 0 ∧ ((VecOp.ofBits slot.toNat).func = 2)) ∧ p ∈ [Instr.vecCvt, Instr.vecPackMx]) ∧
    (∃ (i : Nat → Fin 4 → BitVec 96 → Instr) (d : Fin 4) (s : State), s.vecRuns (s.steerStack ↑d) = false ∧ i ∈ [Instr.vecAdd, Instr.vecSub, Instr.vecMul, Instr.vecFma, Instr.vecMax, Instr.vecMin, Instr.vecCvt, Instr.vecTab, Instr.vecRsum, Instr.vecRmax, Instr.vecScale, Instr.vecMove, Instr.vecPackMx, Instr.vecAbs]) ∧
    (∃ (i : Nat → Fin 4 → BitVec 96 → Instr) (d : Fin 4) (s : State), (s.vecRuns (s.steerStack ↑d) = true ∧ s.steerStack ↑d < 4 ∧ s.reg (Reg.ERR_INJ (48 + s.steerStack ↑d)) % 4 ≠ 0) ∧ i ∈ [Instr.vecAdd, Instr.vecSub, Instr.vecMul, Instr.vecFma, Instr.vecMax, Instr.vecMin, Instr.vecCvt, Instr.vecTab, Instr.vecRsum, Instr.vecRmax, Instr.vecScale, Instr.vecMove, Instr.vecPackMx, Instr.vecAbs]) := by
  refine ⟨?_, ?_, ?_, ?_, ?_, ?_⟩
  · refine ⟨(Instr.vecRsum, rsumLane), 0, tile1, ?_, ?_⟩
    · decide +kernel
    · simp
  · refine ⟨0, tile1, ?_⟩; decide +kernel
  · refine ⟨Instr.vecCvt, 0, vecSlot 9 0 true 5 0 64 0 1 4, tile1, ?_, ?_⟩
    · decide +kernel
    · simp
  · refine ⟨Instr.vecCvt, 0, vecSlot 9 0 true 2 0 64 0 1 4, tile1, ?_, ?_⟩
    · decide +kernel
    · simp
  · refine ⟨Instr.vecAdd, 0, rs up [(Reg.SEQ_FAILED, 0x10000)], ?_, ?_⟩
    · decide +kernel
    · simp
  · refine ⟨Instr.vecAdd, 0, rs tile1 [(Reg.ERR_INJ 0x30, 1)], ?_, ?_⟩
    · decide +kernel
    · simp

theorem witness_EngineSlotsRunOrAreDropped :
    (∃ (t : Nat) (c : Nat) (ch : Fin 4) (w : BitVec 48) (s : State) (p : Instr × Nat × Nat × Nat), p ∈ engineRows t c ch w ∧ s.absCyc c < s.freeCyc p.snd.fst) ∧
    (∃ (t : Nat) (c : Nat) (ch : Fin 4) (w : BitVec 48) (s : State) (p : Instr × Nat × Nat × Nat), p ∈ engineRows t c ch w ∧ ¬s.absCyc c < s.freeCyc p.snd.fst) := by
  refine ⟨?_, ?_⟩
  · refine ⟨5, 5, 0, 5, busyTo up 0 6, (engineRows 5 5 0 5).getD 0 (.fftLoad 0 0 0, 0, 0, 0), ?_⟩; decide +kernel
  · refine ⟨5, 5, 0, 0, de up 4 0 [256, 4, 512, 4, 768, 2, 1024, 0, 0], (engineRows 5 5 0 0).getD 9 (.fftLoad 0 0 0, 0, 0, 0), ?_⟩; decide +kernel

theorem witness_FftQpeAndEstGiveTheirResults :
    (∃ (c : Nat) (s : State), ¬s.absCyc c < s.freeCyc 0) ∧
    (∃ (c : Nat) (w : BitVec 48) (s : State), ¬s.absCyc c < s.freeCyc 0 ∧ statusApart s 0 w.toNat (outAt s 0 w.toNat) (8 * ((descNamed s 0 w.toNat).p 0 * (descNamed s 0 w.toNat).p 1))) ∧
    (∃ (c : Nat) (s : State), ¬s.absCyc c < s.freeCyc 1) ∧
    (∃ (c : Nat) (w : BitVec 48) (s : State), ¬s.absCyc c < s.freeCyc 1 ∧ (statusApart s 1 w.toNat (outAt s 1 w.toNat) (granVals ((fun l => if s.eng.qp.poison = true then List.map (fun x => nan32) l else List.map canon32 l) s.eng.qp.x) ++ granVals ((fun l => if s.eng.qp.poison = true then List.map (fun x => nan32) l else List.map canon32 l) s.eng.qp.y) ++ granVals ((fun l => if s.eng.qp.poison = true then List.map (fun x => nan32) l else List.map canon32 l) s.eng.qp.z)).length)) ∧
    (∃ (c : Nat) (w : BitVec 48) (s : State), ¬s.absCyc c < s.freeCyc 2 ∧ (descNamed s 2 w.toNat).p 2 = 1 ∧ statusApart s 2 w.toNat (outAt s 2 w.toNat) 256 ∧ (s.poisonedIn (inAt s 2 w.toNat) 256 || s.poisonedIn ((descNamed s 2 w.toNat).auxAddr * 64) 512) = false) ∧
    (∃ (c : Nat) (w : BitVec 48) (s : State), ¬s.absCyc c < s.freeCyc 2 ∧ (descNamed s 2 w.toNat).p 2 = 1 ∧ statusApart s 2 w.toNat (outAt s 2 w.toNat) 256 ∧ (s.poisonedIn (inAt s 2 w.toNat) 256 || s.poisonedIn ((descNamed s 2 w.toNat).auxAddr * 64) 192) = false) := by
  refine ⟨?_, ?_, ?_, ?_, ?_, ?_⟩
  · refine ⟨5, mw (mw (de up 0 0 [256, 2, 512, 2, 768, 1, 1024, 0, 16, 1]) 0x4000 [1065353216,1073741824,1077936128,1065353216,0,0,1073741824]) 0xC000 [1073741824,1065353216], ?_⟩; decide +kernel
  · refine ⟨5, 3, { mw (mw (de  up 0 0 [256, 2, 512, 2, 768, 1, 1024, 0, 16, 1]) 0x4000 [1065353216,1073741824,1077936128,1065353216,0,0,1073741824]) 0xC000 [1073741824,1065353216] with eng := { (mw (mw (de up 0 0 [256, 2, 512, 2, 768, 1, 1024, 0, 16, 1]) 0x4000 [1065353216,1073741824,1077936128,1065353216,0,0,1073741824]) 0xC000 [1073741824,1065353216]).eng with fft := ⟨16, 1, false, [(1065353216,0),(1073741824,1065353216)], false⟩ } }, ?_⟩; simp only [statusApart]; decide +kernel
  · refine ⟨5, mw (de up 1 0 [256, 6, 512, 2, 768, 1, 1024, 0, 4, 1, 2, 1, 3, 1, 1]) 0x4000 [1065353216,1065353216,1073741824,1065353216,0,1065353216,1073741824,1065353216,1065353216,1065353216,1065353216,1073741824,1077936128], ?_⟩; decide +kernel
  · refine ⟨5, 3, { de up 1 0 [256, 6, 512, 2, 768, 1, 1024, 0, 4, 1, 2, 1, 3, 1, 1] with eng := { (de up 1 0 [256, 6, 512, 2, 768, 1, 1024, 0, 4, 1, 2, 1, 3, 1, 1]).eng with qp := { n := 2, w := 0, mD := 0, mG := 0, cg := 1, sets := [], pDiag := [1065353216,1073741824], q := [1065353216,1065353216], lo := [0,0], hi := [1065353216,1065353216], pairs := [], rowStart := [], colIdx := [], vals := [], x := [0,0], z := [0,0], y := [0,0], iters := 0, infeasible := false, poison := false } } }, ?_⟩; simp only [statusApart]; decide +kernel
  · refine ⟨5, 1, mw (mw (de up 2 0 [256, 4, 512, 4, 768, 8, 1024, 0, 2, 1, 1, 1, 1]) 0x4000 ([1065353216,1073741824] ++ List.replicate 20 1065353216)) 0xC000 (List.replicate 128 1065353216), ?_⟩; simp only [statusApart]; decide +kernel
  · refine ⟨5, 2, mw (mw (de up 2 0 [256, 4, 512, 4, 768, 8, 1024, 0, 2, 1, 1, 1, 1]) 0x4000 ([1065353216,1073741824] ++ List.replicate 20 1065353216)) 0xC000 (List.replicate 128 1065353216), ?_⟩; simp only [statusApart]; decide +kernel

theorem witness_MergeToHashGiveTheirResults :
    (∃ (c : Nat) (w : Word) (s : State), ¬s.absCyc c < s.freeCyc 3 ∧ (statusApart s 3 (BitVec.toNat w) (outAt s 3 (BitVec.toNat w)) (fitBytes 64 (leBytes 4 (List.foldl (fun acc x => mergeTwo (acc.length + x.fst.length) acc x.fst) [] (List.map (fun x => raiseKeys x.fst (0, 0, 0) 0) (List.map (mrgInput s (have __src := EngOp.ofBits 3 (BitVec.toNat w); { op := 1, desc := __src.desc, arg := __src.arg, arg2 := __src.arg2 }) (descNamed s 3 (BitVec.toNat w))) (List.range ((descNamed s 3 (BitVec.toNat w)).p 1))))).length) ++ (List.map (fun x => x.data) (List.foldl (fun acc x => mergeTwo (acc.length + x.fst.length) acc x.fst) [] (List.map (fun x => raiseKeys x.fst (0, 0, 0) 0) (List.map (mrgInput s (have __src := EngOp.ofBits 3 (BitVec.toNat w); { op := 1, desc := __src.desc, arg := __src.arg, arg2 := __src.arg2 }) (descNamed s 3 (BitVec.toNat w))) (List.range ((descNamed s 3 (BitVec.toNat w)).p 1)))))).flatten ++ List.replicate (((descNamed s 3 (BitVec.toNat w)).p 1 * (descNamed s 3 (BitVec.toNat w)).p 3 - (List.foldl (fun acc x => mergeTwo (acc.length + x.fst.length) acc x.fst) [] (List.map (fun x => raiseKeys x.fst (0, 0, 0) 0) (List.map (mrgInput s (have __src := EngOp.ofBits 3 (BitVec.toNat w); { op := 1, desc := __src.desc, arg := __src.arg, arg2 := __src.arg2 }) (descNamed s 3 (BitVec.toNat w))) (List.range ((descNamed s 3 (BitVec.toNat w)).p 1))))).length) * (descNamed s 3 (BitVec.toNat w)).p 0) 255#8).length)) ∧
    (∃ (c : Nat) (w : BitVec 48) (s : State), ¬s.absCyc c < s.freeCyc 4 ∧ (descNamed s 4 w.toNat).auxLen = 2 ∧ s.le ((descNamed s 4 w.toNat).auxAddr * 64) 4 = 1 ∧ s.le ((descNamed s 4 w.toNat).auxAddr * 64 + 64 + 2) 2 < 4096) ∧
    (∃ (c : Nat) (s : State), ¬s.absCyc c < s.freeCyc 4) ∧
    (∃ (c : Nat) (w : BitVec 48) (s : State), ¬s.absCyc c < s.freeCyc 4 ∧ (statusApart s 4 w.toNat (outAt s 4 w.toNat) (List.map (fun x => spanRecord x.fst x.snd) (List.take (descNamed s 4 w.toNat).outLen (List.filter (fun x => if bitOf (descNamed s 4 w.toNat).flags 0 = true then decide (x.snd.energy ≠ 0) || decide (x.snd.unc ≠ 0) else x.snd.stop.isSome) s.eng.spans))).flatten.length)) ∧
    (∃ (c : Nat) (s : State), ¬s.absCyc c < s.freeCyc 5) ∧
    (∃ (c : Nat) (w : Word) (s : State), ¬s.absCyc c < s.freeCyc 5 ∧ statusApart s 5 (BitVec.toNat w) (outAt s 5 (BitVec.toNat w)) (4 * (descNamed s 5 (BitVec.toNat w)).p 1 + 64)) ∧
    (∃ (c : Nat) (s : State), ¬s.absCyc c < s.freeCyc 6) ∧
    (∃ (c : Nat) (w : Word) (s : State), ¬s.absCyc c < s.freeCyc 6 ∧ bitOf (descNamed s 6 (BitVec.toNat w)).flags 0 = false ∧ statusApart s 6 (BitVec.toNat w) (outAt s 6 (BitVec.toNat w)) (4 * (descNamed s 6 (BitVec.toNat w)).p 1)) ∧
    (∃ (c : Nat) (w : Word) (s : State), ¬s.absCyc c < s.freeCyc 6 ∧ bitOf (descNamed s 6 (BitVec.toNat w)).flags 0 = true ∧ statusApart s 6 (BitVec.toNat w) (outAt s 6 (BitVec.toNat w)) (2 * (cdiv ((descNamed s 6 (BitVec.toNat w)).p 1 * 4) 64 * 64))) ∧
    (∃ (c : Nat) (w : Word) (s : State), ¬s.absCyc c < s.freeCyc 7 ∧ statusApart s 7 (BitVec.toNat w) (outAt s 7 (BitVec.toNat w)) (8 * (descNamed s 7 (BitVec.toNat w)).p 0) ∧ s.poisonWords (inAt s 7 (BitVec.toNat w)) ((descNamed s 7 (BitVec.toNat w)).inLen * 64) = 0) ∧
    (∃ (c : Nat) (w : Word) (s : State), ¬s.absCyc c < s.freeCyc 7 ∧ statusApart s 7 (BitVec.toNat w) (outAt s 7 (BitVec.toNat w)) (8 * (List.take ((descNamed s 7 (BitVec.toNat w)).p 0) (words32 (s.bytes ((descNamed s 7 (BitVec.toNat w)).auxAddr * 64) ((descNamed s 7 (BitVec.toNat w)).auxLen * 64)))).length) ∧ s.poisonWords (inAt s 7 (BitVec.toNat w)) ((descNamed s 7 (BitVec.toNat w)).inLen * 64) = 0 ∧ s.poisonWords ((descNamed s 7 (BitVec.toNat w)).auxAddr * 64) ((descNamed s 7 (BitVec.toNat w)).auxLen * 64) = 0) ∧
    (∃ (c : Nat) (w : Word) (s : State), ¬s.absCyc c < s.freeCyc 8 ∧ (statusApart s 8 (BitVec.toNat w) (outAt s 8 (BitVec.toNat w)) (List.map (fun i => sha256 (0#8 :: s.bytes (inAt s 8 (BitVec.toNat w) + i * cdiv ((descNamed s 8 (BitVec.toNat w)).p 1) 64 * 64) ((descNamed s 8 (BitVec.toNat w)).p 1))) (List.range ((descNamed s 8 (BitVec.toNat w)).p 0))).flatten.length)) ∧
    (∃ (c : Nat) (w : Word) (s : State), ¬s.absCyc c < s.freeCyc 8 ∧ statusApart s 8 (BitVec.toNat w) (outAt s 8 (BitVec.toNat w)) (merkleLevel (pieces 32 ((descNamed s 8 (BitVec.toNat w)).p 0) (s.bytes (inAt s 8 (BitVec.toNat w)) (cdiv ((descNamed s 8 (BitVec.toNat w)).p 0) 2 * 64)))).flatten.length) := by
  refine ⟨?_, ?_, ?_, ?_, ?_, ?_, ?_, ?_, ?_, ?_, ?_, ?_, ?_⟩
  · refine ⟨5, 1, mw (mw (mw (mw (de up 3 0 [256, 6, 512, 9, 768, 0, 1024, 0, 16, 2, 12, 8]) 0x4000 [3]) 0x4040 [5,0,1,7, 4,0,1,8, 9,0,1,1]) 0x40C0 [2]) 0x4100 [5,0,1,6, 7,0,1,1], ?_⟩; simp only [statusApart]; decide +kernel
  · refine ⟨5, 1, mb (mb (de up 4 0 [256, 4, 512, 4, 768, 2, 1024, 0, 1]) 0xC000 [1]) 0xC040 [0,0,3,0,9,0,0,0x70,5,0,0,0], ?_⟩; decide +kernel
  · refine ⟨5, { mw (de up 4 0 [256, 4, 512, 4, 768, 2, 1024, 0, 1]) 0x4000 [100,0] with eng := { (mw (de up 4 0 [256, 4, 512, 4, 768, 2, 1024, 0, 1]) 0x4000 [100,0]).eng with spans := [(3, (⟨9, 5, none, 0x7000, 3, 4, 1, 0⟩ : SpanT))] } }, ?_⟩; decide +kernel
  · refine ⟨5, 3, { de up 4 0 [256, 4, 512, 4, 768, 2, 1024, 0, 1] with eng := { (de up 4 0 [256, 4, 512, 4, 768, 2, 1024, 0, 1]).eng with spans := [(3, (⟨9, 5, some 8, 0x7000, 3, 4, 1, 0⟩ : SpanT)), (4, ⟨9, 5, none, 0x7000, 3, 4, 1, 0⟩)] } }, ?_⟩; simp only [statusApart]; decide +kernel
  · refine ⟨5, mw (mw (de up 5 0 [256, 4, 512, 8, 768, 2, 1024, 0, 1, 64, 1065353216, 1065353216, 10]) 0x4000 [1000,0,5]) 0x4040 [1065353216,1073741824,1077936128,0x7FC00000,0x80000000], ?_⟩; decide +kernel
  · refine ⟨5, 2, { mw (mw (de up 5 0 [256, 4, 512, 8, 768, 2, 1024, 0, 1, 64, 1065353216, 1065353216, 10]) 0x4000 [1000,0,5]) 0x4040 [1065353216,1073741824,1077936128,0x7FC00000,0x80000000] with eng := { (mw (mw (de up 5 0 [256, 4, 512, 8, 768, 2, 1024, 0, 1, 64, 1065353216, 1065353216, 10]) 0x4000 [1000,0,5]) 0x4040 [1065353216,1073741824,1077936128,0x7FC00000,0x80000000]).eng with hst := [(1, ⟨[(3,7)], 1, 2, 3, 4, none, some (1,2)⟩)] } }, ?_⟩; simp only [statusApart]; decide +kernel
  · refine ⟨5, mw (mw (mw (mw (mw (de up 6 0 [256, 4, 512, 4, 768, 3, 1024, 0, 1, 3]) 0xC000 [1,1,1]) 0xC040 [0,1065353216]) 0xC0C0 [0,1065353216]) 0xC140 [1065353216,1073741824,1065353216,1065353216,1073741824]) 0x4000 [1065353216, 0x3f000000, 1073741824, 0x3f000000, 0x3e000000], ?_⟩; decide +kernel
  · refine ⟨5, 2, { mw (mw (mw (mw (de up 6 0 [256, 4, 512, 4, 768, 3, 1024, 0, 1, 3]) 0xC000 [0,2]) 0xC040 [0,1065353216,1073741824,1065353216,0,0,0,1065353216,1065353216]) 0xC080 [1065353216,1065353216,1073741824,1065353216,0,0,0,1065353216,1065353216,0,0,0,0,0,0,0,1073741824]) 0x4000 [1065353216, 0x3f000000, 1073741824] with eng := { (mw (mw (mw (mw (de up 6 0 [256, 4, 512, 4, 768, 3, 1024, 0, 1, 3]) 0xC000 [0,2]) 0xC040 [0,1065353216,1073741824,1065353216,0,0,0,1065353216,1065353216]) 0xC080 [1065353216,1065353216,1073741824,1065353216,0,0,0,1065353216,1065353216,0,0,0,0,0,0,0,1073741824]) 0x4000 [1065353216, 0x3f000000, 1073741824]).eng with spl := [(1, ⟨[⟨0,[1065353216,1073741824,1065353216,0,0,0],1065353216,1065353216⟩,⟨1065353216,[1073741824,1073741824,1065353216,0,0,0],1065353216,1065353216⟩],1073741824,[],[],[]⟩)] } }, ?_⟩; simp only [statusApart]; decide +kernel
  · refine ⟨5, 2, { mw (mw (mw (mw (de up 6 0 [256, 4, 512, 4, 768, 3, 1024, 1, 1, 3]) 0xC000 [0,2]) 0xC040 [0,1065353216,1073741824,1065353216,0,0,0,1065353216,1065353216]) 0xC080 [1065353216,1065353216,1073741824,1065353216,0,0,0,1065353216,1065353216,0,0,0,0,0,0,0,1073741824]) 0x4000 [1065353216, 0x3f000000, 1073741824] with eng := { (mw (mw (mw (mw (de up 6 0 [256, 4, 512, 4, 768, 3, 1024, 1, 1, 3]) 0xC000 [0,2]) 0xC040 [0,1065353216,1073741824,1065353216,0,0,0,1065353216,1065353216]) 0xC080 [1065353216,1065353216,1073741824,1065353216,0,0,0,1065353216,1065353216,0,0,0,0,0,0,0,1073741824]) 0x4000 [1065353216, 0x3f000000, 1073741824]).eng with spl := [(1, ⟨[⟨0,[1065353216,1073741824,1065353216,0,0,0],1065353216,1065353216⟩,⟨1065353216,[1073741824,1073741824,1065353216,0,0,0],1065353216,1065353216⟩],1073741824,[],[],[]⟩)] } }, ?_⟩; simp only [statusApart]; decide +kernel
  · refine ⟨5, 1, mw (mw (de up 7 0 [256, 1, 512, 4, 768, 1, 1024, 0, 3, 9]) 0x4000 [1065353216,1073741824,0x7FC00000,1077936128,1065353216]) 0xC000 [0,1065353216,0x3f000000], ?_⟩; simp only [statusApart]; decide +kernel
  · refine ⟨5, 2, mw (mw (de up 7 0 [256, 1, 512, 4, 768, 1, 1024, 0, 3, 9]) 0x4000 [1065353216,1073741824,0x7FC00000,1077936128,1065353216]) 0xC000 [0,1065353216,0x3f000000], ?_⟩; simp only [statusApart]; decide +kernel
  · refine ⟨5, 1, mw (de up 8 0 [256, 2, 512, 1, 768, 1, 1024, 0, 2, 5]) 0x4000 [1065353216,1073741824,0x7FC00000,1077936128,1065353216], ?_⟩; simp only [statusApart]; decide +kernel
  · refine ⟨5, 2, mw (de up 8 0 [256, 2, 512, 1, 768, 1, 1024, 0, 2, 5]) 0x4000 [1065353216,1073741824,0x7FC00000,1077936128,1065353216], ?_⟩; simp only [statusApart]; decide +kernel

theorem witness_DmaIngressAndEgressMoveTheirData :
    (∃ (t : Nat) (c : Nat) (ch : Fin 4) (w : BitVec 40) (s : State) (p : Instr × Nat), ¬s.absCyc c < s.freeCyc (9 + ↑ch) ∧ p ∈ [(Instr.dmaCopy t c ch w, 1), (Instr.dmaGather t c ch w, 2), (Instr.dmaScatter t c ch w, 3)]) ∧
    (∃ (c : Nat) (ch : Fin 4) (s : State), ¬s.absCyc c < s.freeCyc (9 + ↑ch)) ∧
    (∃ (t : Nat) (c : Nat) (ch : Fin 4) (w : BitVec 40) (s : State) (p : Instr × Bool), (¬s.absCyc c < s.freeCyc (9 + ↑ch) ∧ s.eng.async[ch].length < 16) ∧ p ∈ [(Instr.dmaMrRead t c ch w, true), (Instr.dmaMrWrite t c ch w, false)]) ∧
    (∃ (t : Nat) (c : Nat) (ch : Fin 4) (w : BitVec 40) (s : State) (i : Instr), s.absCyc c < s.freeCyc (9 + ↑ch) ∧ i ∈ [Instr.dmaMrRead t c ch w, Instr.dmaMrWrite t c ch w]) ∧
    (∃ (t : Nat) (c : Nat) (ch : Fin 4) (w : BitVec 40) (s : State) (i : Instr), (¬s.absCyc c < s.freeCyc (9 + ↑ch) ∧ 16 ≤ s.eng.async[ch].length) ∧ i ∈ [Instr.dmaMrRead t c ch w, Instr.dmaMrWrite t c ch w]) ∧
    (∃ (ch : Fin 4) (x : AsyncX) (rest : List AsyncX) (s : State), s.eng.async[ch] = x :: rest) ∧
    (∃ (c : Nat) (s : State), ¬s.absCyc c < s.freeCyc 13) ∧
    (∃ (c : Nat) (s : State), ¬s.absCyc c < s.freeCyc 14 ∧ s.seq.withheld = false) ∧
    (∃ (c : Nat) (s : State), ¬s.absCyc c < s.freeCyc 14 ∧ s.seq.withheld = true) ∧
    (∃ (c : Nat) (s : State), ¬s.absCyc c < s.freeCyc 14) ∧
    (∃ (c : Nat) (w : Word) (s : State) (q : Fin 32), ¬s.absCyc c < s.freeCyc 14 ∧ (descNamed s 14 (BitVec.toNat w)).p 0 = ↑q ∧ s.eng.strandQ[q].length + (s.egrInput (inAt s 14 (BitVec.toNat w) / 64) 256 (min ((descNamed s 14 (BitVec.toNat w)).inLen / 4) 16)).length ≤ 64) ∧
    (∃ (c : Nat) (w : Word) (s : State) (q : Fin 32), ¬s.absCyc c < s.freeCyc 14 ∧ (descNamed s 14 (BitVec.toNat w)).p 0 = ↑q ∧ 64 < s.eng.strandQ[q].length + (s.egrInput (inAt s 14 (BitVec.toNat w) / 64) 256 (min ((descNamed s 14 (BitVec.toNat w)).inLen / 4) 16)).length) ∧
    (∃ (c : Nat) (w : Word) (s : State), ¬s.absCyc c < s.freeCyc 14 ∧ (descNamed s 14 (BitVec.toNat w)).p 0 = 0 ∧ s.eng.chainQ[0].length + (s.egrInput (inAt s 14 (BitVec.toNat w) / 64) 256 (min ((descNamed s 14 (BitVec.toNat w)).inLen / 4) 16)).length ≤ 64) ∧
    (∃ (c : Nat) (w : Word) (s : State), ¬s.absCyc c < s.freeCyc 14 ∧ (descNamed s 14 (BitVec.toNat w)).p 0 = 1 ∧ s.eng.chainQ[1].length + (s.egrInput (inAt s 14 (BitVec.toNat w) / 64) 256 (min ((descNamed s 14 (BitVec.toNat w)).inLen / 4) 16)).length ≤ 64) ∧
    (∃ (c : Nat) (w : Word) (s : State), ¬s.absCyc c < s.freeCyc 14 ∧ (descNamed s 14 (BitVec.toNat w)).p 0 = 2 ∧ s.eng.chainQ[0].length + (s.egrInput (inAt s 14 (BitVec.toNat w) / 64) 256 (min ((descNamed s 14 (BitVec.toNat w)).inLen / 4) 16)).length ≤ 64 ∧ s.eng.chainQ[1].length + (s.egrInput (inAt s 14 (BitVec.toNat w) / 64) 256 (min ((descNamed s 14 (BitVec.toNat w)).inLen / 4) 16)).length ≤ 64) ∧
    (∃ (c : Nat) (w : Word) (s : State), ¬s.absCyc c < s.freeCyc 14 ∧ s.eng.slotQ.length + (s.egrInput (inAt s 14 (BitVec.toNat w) / 64) 64 (min (descNamed s 14 (BitVec.toNat w)).inLen 64)).length ≤ 256) ∧
    (∃ (c : Nat) (w : Word) (s : State), ¬s.absCyc c < s.freeCyc 14 ∧ 256 < s.eng.slotQ.length + (s.egrInput (inAt s 14 (BitVec.toNat w) / 64) 64 (min (descNamed s 14 (BitVec.toNat w)).inLen 64)).length) := by
  refine ⟨?_, ?_, ?_, ?_, ?_, ?_, ?_, ?_, ?_, ?_, ?_, ?_, ?_, ?_, ?_, ?_, ?_⟩
  · refine ⟨5, 5, 0, 1, ((mw (mw (de up 9 0 [256, 4, 512, 4, 768, 1, 1024, 0, 2, 2, 2, 3]) 0x4000 [1065353216,1073741824,3,4]) 0x4080 [9,8]).setPoison 0x4008 true).setPoison 0x4090 true, (.dmaCopy 5 5 0 1, 1), ?_, ?_⟩
    · decide +kernel
    · simp
  · refine ⟨5, 0, ((mw (mw (de up 9 0 [256, 4, 512, 4, 768, 1, 1024, 0, 2, 2, 2, 3]) 0x4000 [1065353216,1073741824,3,4]) 0x4080 [9,8]).setPoison 0x4008 true).setPoison 0x4090 true, ?_⟩; decide +kernel
  · refine ⟨5, 5, 0, 6, de up 9 0 [256, 4, 512, 4, 768, 1, 1024, 0, 0, 0, 0, 0, 4096, 128], (.dmaMrRead 5 5 0 6, true), ?_, ?_⟩
    · decide +kernel
    · simp
  · refine ⟨5, 5, 0, 6, busyTo up 9 6, .dmaMrRead 5 5 0 6, ?_, ?_⟩
    · decide +kernel
    · simp
  · refine ⟨5, 5, 0, 6, { de up 9 0 [256, 4, 512, 4, 768, 1, 1024, 0, 0, 0, 0, 0, 4096, 128] with eng := { (de up 9 0 [256, 4, 512, 4, 768, 1, 1024, 0, 0, 0, 0, 0, 4096, 128]).eng with async := up.eng.async.set 0 (List.replicate 16 (⟨true, 0x4000, 0x8000000000, 64, 0x400, 0, 3⟩ : AsyncX)) } }, .dmaMrRead 5 5 0 6, ?_, ?_⟩
    · decide +kernel
    · simp
  · refine ⟨0, ⟨true, 0x4000, 0x8000000000, 64, 0x400, 0, 3⟩, [], { (rs (mw (mw up 0x4000 [7,8]) 0x8000000000 [5,6]) [(Reg.DDC_STS 0, 7), (Reg.DDC_CAP 0, 64)]) with eng := { up.eng with async := up.eng.async.set 0 [⟨true, 0x4000, 0x8000000000, 64, 0x400, 0, 3⟩] } }, ?_⟩; decide +kernel
  · refine ⟨5, { mw (de up 13 0 [256, 4, 512, 8, 768, 1, 1024, 0, 1, 2]) 0x3C040000 [4,5,6] with eng := { (mw (de up 13 0 [256, 4, 512, 8, 768, 1, 1024, 0, 1, 2]) 0x3C040000 [4,5,6]).eng with ringPublished := up.eng.ringPublished.set 1 1, ringCopied := up.eng.ringCopied.set 1 0 } }, ?_⟩; decide +kernel
  · refine ⟨5, (mw (de up 14 0 [256, 1, 512, 4, 768, 1, 1024, 0, 2, 2]) 0x4000 [4,5,6]).setPoison 0x4008 true, ?_⟩; decide +kernel
  · refine ⟨5, { (mw (de up 14 0 [256, 1, 512, 4, 768, 1, 1024, 0, 2, 2]) 0x4000 [4,5,6]).setPoison 0x4008 true with seq := { up.seq with withheld := true } }, ?_⟩; decide +kernel
  · refine ⟨5, (mw (de up 14 0 [256, 1, 512, 4, 768, 1, 1024, 0, 2, 2]) 0x4000 [4,5,6]).setPoison 0x4008 true, ?_⟩; decide +kernel
  · refine ⟨5, 3, (mw (de up 14 0 [256, 8, 512, 4, 768, 1, 1024, 0, 2, 2]) 0x4000 [4,5,6]), 2, ?_⟩; decide +kernel
  · refine ⟨5, 3, { (mw (de up 14 0 [256, 8, 512, 4, 768, 1, 1024, 0, 2, 2]) 0x4000 [4,5,6]) with eng := { (mw (de up 14 0 [256, 8, 512, 4, 768, 1, 1024, 0, 2, 2]) 0x4000 [4,5,6]).eng with strandQ := up.eng.strandQ.set 2 (List.replicate 64 []) } }, 2, ?_⟩; decide +kernel
  · refine ⟨5, 4, (mw (de up 14 0 [256, 8, 512, 4, 768, 1, 1024, 0, 0, 2]) 0x4000 [4,5,6]), ?_⟩; decide +kernel
  · refine ⟨5, 4, (mw (de up 14 0 [256, 8, 512, 4, 768, 1, 1024, 0, 1, 2]) 0x4000 [4,5,6]), ?_⟩; decide +kernel
  · refine ⟨5, 4, (mw (de up 14 0 [256, 8, 512, 4, 768, 1, 1024, 0, 2, 2]) 0x4000 [4,5,6]), ?_⟩; decide +kernel
  · refine ⟨5, 5, (mw (de up 14 0 [256, 8, 512, 4, 768, 1, 1024, 0, 0, 2]) 0x4000 [4,5,6]), ?_⟩; decide +kernel
  · refine ⟨5, 5, { (mw (de up 14 0 [256, 8, 512, 4, 768, 1, 1024, 0, 0, 2]) 0x4000 [4,5,6]) with eng := { (mw (de up 14 0 [256, 8, 512, 4, 768, 1, 1024, 0, 0, 2]) 0x4000 [4,5,6]).eng with slotQ := (List.replicate 256 []) } }, ?_⟩; decide +kernel

theorem witness_SharedMemoryAndMrdimmAreGuarded :
    (∃ (q : WinReq) (s : State), s.winAllowed q.agent q.addr = false) ∧
    (∃ (q : WinReq) (l : List Byte) (s : State), s.winAllowed q.agent q.addr = true ∧ q.parity = false ∧ q.data = some l) ∧
    (∃ (q : WinReq) (s : State), s.winAllowed q.agent q.addr = true ∧ q.parity = true) ∧
    (∃ (q : WinReq) (s : State), s.winAllowed q.agent q.addr = true ∧ q.parity = false ∧ q.data = none) ∧
    (∃ (s : State), s.bit Reg.SHM_SCRUB_CTL 0 = true) := by
  refine ⟨?_, ?_, ?_, ?_, ?_⟩
  · refine ⟨⟨.nugen, 0x4000, some [1,2], 2, .none, false⟩, rs up [(Reg.BLK_STS 0x10, 2)], ?_⟩; decide +kernel
  · refine ⟨⟨.nugen, 0x4000, some [1,2], 2, .none, false⟩, [1,2], up, ?_⟩; decide +kernel
  · refine ⟨⟨.nugen, 0x4000, some [1,2], 2, .none, true⟩, up, ?_⟩; decide +kernel
  · refine ⟨⟨.mover, 0x3C000000, none, 2, .ce, false⟩, mw up 0x3C000000 [3], ?_⟩; decide +kernel
  · refine ⟨rs up [(Reg.SHM_SCRUB_CTL, 1)], ?_⟩; decide +kernel

theorem witness_RecorderPlacesTriggersAndFreezes :
    (∃ (t : Nat) (n : Fin 128) (stamp : Nat) (s : State), s.frRecords (stamp / 10000) = true ∧ ↑n < s.endpoints ∧ max s.now t / 10000 < stamp / 10000 + 32) ∧
    (∃ (t : Nat) (n : Fin 128) (stamp : Nat) (s : State), s.frRecords (stamp / 10000) = true ∧ ↑n < s.endpoints ∧ stamp / 10000 + 32 ≤ max s.now t / 10000) ∧
    (∃ (t : Nat) (f : Nat) (s : State), s.bit Reg.FR_CTL 0 = true ∧ f + 32 ≤ max s.now t / 10000 ∧ s.frRecords f = true) ∧
    (∃ (t : Nat) (f : Nat) (s : State), s.bit Reg.FR_CTL 0 = true ∧ f + 32 ≤ max s.now t / 10000 ∧ s.frRecords f = false) ∧
    (∃ (s : State), s.frMode = 0 ∧ s.bit Reg.FR_CTL 0 = true ∧ 0 < s.reg Reg.FR_POST) ∧
    (∃ (s : State), s.frMode ≠ 0) ∧
    (∃ (s : State), s.pw.air = true ∧ s.frAir = false ∧ s.bit Reg.FR_CTL 0 = true ∧ s.frMode = 0) ∧
    (∃ (t : Nat) (s : State), s.frMode = 1 ∧ s.frLast < max s.now t / 10000) ∧
    (∃ (w : Writer) (s : State), admits s w Reg.FR_CTL 32 (s.fld Reg.FR_CTL 0 1 + 2) = true ∧ s.frMode = 0 ∧ s.bit Reg.FR_CTL 0 = true ∧ 0 < s.reg Reg.FR_POST) ∧
    (∃ (w : Writer) (s : State), admits s w Reg.FR_CTL 32 (s.fld Reg.FR_CTL 0 1 + 4) = true ∧ s.frMode = 2) ∧
    (∃ (w : Writer) (on : Bool) (s : State), admits s w Reg.FR_CTL 32 (b2n on) = true) ∧
    (∃ (f : Nat) (x : FrSlot) (s : State), s.baseUp = true ∧ s.frHeld f = some x) := by
  refine ⟨?_, ?_, ?_, ?_, ?_, ?_, ?_, ?_, ?_, ?_, ?_, ?_⟩
  · refine ⟨120000, 1, 105000, rs up [(Reg.FR_CTL, 1), (Reg.FR_SLOTS, 1000), (Reg.FR_POST, 100)], ?_⟩; decide +kernel
  · refine ⟨500000, 1, 105000, rs up [(Reg.FR_CTL, 1), (Reg.FR_SLOTS, 1000), (Reg.FR_POST, 100)], ?_⟩; decide +kernel
  · refine ⟨500000, 10, rs up [(Reg.FR_CTL, 1), (Reg.FR_SLOTS, 1000), (Reg.FR_POST, 100)], ?_⟩; decide +kernel
  · refine ⟨50000000, 3000, rs up [(Reg.FR_CTL, 1), (Reg.FR_SLOTS, 1000), (Reg.FR_POST, 100), (Reg.FR_STS, 1), (Reg.FR_TRIG_FRAME, 5)], ?_⟩; decide +kernel
  · refine ⟨rs up [(Reg.FR_CTL, 1), (Reg.FR_SLOTS, 1000), (Reg.FR_POST, 100)], ?_⟩; decide +kernel
  · refine ⟨rs up [(Reg.FR_CTL, 1), (Reg.FR_SLOTS, 1000), (Reg.FR_POST, 100), (Reg.FR_STS, 1)], ?_⟩; decide +kernel
  · refine ⟨{ rs up [(Reg.FR_CTL, 1), (Reg.FR_SLOTS, 1000), (Reg.FR_POST, 100), (Reg.DDC_STS 2, 7)] with pw := { up.pw with air := true } }, ?_⟩; decide +kernel
  · refine ⟨50000000, rs up [(Reg.FR_CTL, 1), (Reg.FR_SLOTS, 1000), (Reg.FR_POST, 100), (Reg.FR_STS, 1), (Reg.FR_TRIG_FRAME, 5)], ?_⟩; decide +kernel
  · refine ⟨nug, rs up [(Reg.FR_CTL, 1), (Reg.FR_SLOTS, 1000), (Reg.FR_POST, 100)], ?_⟩; decide +kernel
  · refine ⟨nug, rs up [(Reg.FR_CTL, 1), (Reg.FR_SLOTS, 1000), (Reg.FR_POST, 100), (Reg.FR_STS, 2)], ?_⟩; decide +kernel
  · refine ⟨nug, true, up, ?_⟩; decide +kernel
  · refine ⟨10, ⟨10, false, false, false, false, false, [(500, 3)]⟩, { rs up [(Reg.FR_CTL, 1), (Reg.FR_SLOTS, 1000), (Reg.FR_POST, 100), (Reg.FR_STS, 6)] with fr := { up.fr with frozen := [(10, ⟨10, false, false, false, false, false, [(500, 3)]⟩)] } }, ?_⟩; decide +kernel

theorem witness_FlitsAreCheckedAndLanded :
    (∃ (t : Nat) (p : Fin 32) (f : FlitIn) (s : State) (i : Instr), (s.portUp ↑p = true ∧ s.bit (Reg.STR_STS ↑p) 3 = true ∧ f.ce = 0 ∧ f.ue = true) ∧ i ∈ [Instr.strandTelem t p f, Instr.strandIntent t p f, Instr.strandSpan t p f, Instr.strandStatus t p f, Instr.strandIdent t p f, Instr.strandRaildesc t p f, Instr.strandTimeRpt t p f, Instr.strandBurst t p f]) ∧
    (∃ (t : Nat) (p : Fin 32) (f : FlitIn) (s : State) (i : Instr), (s.portUp ↑p = true ∧ s.bit (Reg.STR_STS ↑p) 3 = true ∧ f.ce = 0 ∧ f.ue = false ∧ crc8 (List.take 7 (fitBytes 256 f.bytes)) ≠ (fitBytes 256 f.bytes).getD 7 0#8) ∧ i ∈ [Instr.strandTelem t p f, Instr.strandIntent t p f, Instr.strandSpan t p f, Instr.strandStatus t p f, Instr.strandIdent t p f, Instr.strandRaildesc t p f, Instr.strandTimeRpt t p f, Instr.strandBurst t p f]) ∧
    (∃ (t : Nat) (p : Fin 32) (f : FlitIn) (s : State) (i : Instr), (s.portUp ↑p = true ∧ s.bit (Reg.STR_STS ↑p) 3 = true ∧ f.ce = 0 ∧ f.ue = false ∧ crc8 (List.take 7 (fitBytes 256 f.bytes)) = (fitBytes 256 f.bytes).getD 7 0#8 ∧ (flitType (fitBytes 256 f.bytes) = 0 ∨ 8 < flitType (fitBytes 256 f.bytes))) ∧ i ∈ [Instr.strandTelem t p f, Instr.strandIntent t p f, Instr.strandSpan t p f, Instr.strandStatus t p f, Instr.strandIdent t p f, Instr.strandRaildesc t p f, Instr.strandTimeRpt t p f, Instr.strandBurst t p f]) ∧
    (∃ (t : Nat) (p : Fin 32) (f : FlitIn) (s : State) (x : Instr × Nat), (s.portUp ↑p = true ∧ s.bit (Reg.STR_STS ↑p) 3 = true ∧ f.ce = 0 ∧ f.ue = false ∧ crc8 (List.take 7 (fitBytes 256 f.bytes)) = (fitBytes 256 f.bytes).getD 7 0#8 ∧ s.link ↑p ≠ lkAdmitted ∧ s.link ↑p ≠ lkQuarantined ∧ flitType (fitBytes 256 f.bytes) = x.snd) ∧ x ∈ [(Instr.strandTelem t p f, 1), (Instr.strandIntent t p f, 2), (Instr.strandSpan t p f, 3), (Instr.strandStatus t p f, 4), (Instr.strandBurst t p f, 8)]) ∧
    (∃ (t : Nat) (p : Fin 32) (f : FlitIn) (s : State) (x : Instr × Nat), (flitTaken s p f x.snd ∧ ringFree s ↑p) ∧ x ∈ [(Instr.strandTelem t p f, 1), (Instr.strandIntent t p f, 2), (Instr.strandSpan t p f, 3), (Instr.strandStatus t p f, 4), (Instr.strandIdent t p f, 5), (Instr.strandRaildesc t p f, 6), (Instr.strandTimeRpt t p f, 7)]) := by
  refine ⟨?_, ?_, ?_, ?_, ?_⟩
  · refine ⟨5, 3, { fl 1 0 1 100 [] with ue := true }, port up 3 4, .strandTelem 5 3 ({ fl 1 0 1 100 [] with ue := true }), ?_, ?_⟩
    · decide +kernel
    · simp
  · refine ⟨5, 3, { fl 1 0 1 100 [] with bytes := put (fl 1 0 1 100 []).bytes [(7,1,0)] }, port up 3 4, .strandTelem 5 3 ({ fl 1 0 1 100 [] with bytes := put (fl 1 0 1 100 []).bytes [(7,1,0)] }), ?_, ?_⟩
    · decide +kernel
    · simp
  · refine ⟨5, 3, fl 9 0 1 100 [], port up 3 4, .strandTelem 5 3 (fl 9 0 1 100 []), ?_, ?_⟩
    · decide +kernel
    · simp
  · refine ⟨2000000, 3, fl 3 0 1 100 [], port up 3 2, (.strandSpan 2000000 3 (fl 3 0 1 100 []), 3), ?_, ?_⟩
    · decide +kernel
    · simp
  · refine ⟨2000000, 3, fl 7 0 1 100 [(0x20,4,7)], port up 3 4, (.strandTimeRpt 2000000 3 (fl 7 0 1 100 [(0x20,4,7)]), 7), ?_, ?_⟩
    · simp only [flitTaken, ringFree]; decide +kernel
    · simp

theorem witness_StrandPortsComeUpAndAreAdmitted :
    (∃ (p : Fin 32) (s : State), s.portUp ↑p = true ∧ (s.link ↑p = lkDown ∨ s.link ↑p = lkTraining)) ∧
    (∃ (t : Nat) (p : Fin 32) (s : State), s.portUp ↑p = true ∧ s.link ↑p = lkIdent ∧ s.port[p].identAt + 10000000 ≤ max s.now t) ∧
    (∃ (t : Nat) (p : Fin 32) (s : State), s.portUp ↑p = true ∧ s.link ↑p = lkIdent ∧ s.port[p].waitSince + 100000000 ≤ max s.now t) ∧
    (∃ (p : Fin 32) (f : FlitIn) (s : State), flitTaken s p f 5 ∧ s.link ↑p = lkIdent) ∧
    (∃ (s : State), s.baseUp = true ∧ s.seqSeen = true ∧ s.wiringNext = none) ∧
    (∃ (s : State), s.baseUp = false) ∧
    (∃ (p : Fin 32) (s : State), s.portUp ↑p = true ∧ s.bit (Reg.STR_STS ↑p) 3 = true) ∧
    (∃ (t : Nat) (n : Fin 128) (s : State), s.link (↑n / 4) ≠ lkAdmitted ∧ s.ep[n].planFrom.isSome = true ∧ s.ep[n].expiry ≤ max s.now t) ∧
    (∃ (w : Writer) (p : Fin 32) (s : State), admits s w (Reg.STR_CTL ↑p) 32 (s.reg (Reg.STR_CTL ↑p) % 2 + 2) = true ∧ s.reg (Reg.STR_CTL ↑p) % 2 = 1 ∧ s.portUp ↑p = true ∧ s.bit (Reg.STR_STS ↑p) 3 = true) := by
  refine ⟨?_, ?_, ?_, ?_, ?_, ?_, ?_, ?_, ?_⟩
  · refine ⟨3, port up 3 0, ?_⟩; decide +kernel
  · refine ⟨20000000, 3, port up 3 2, ?_⟩; decide +kernel
  · refine ⟨200000000, 3, port up 3 2, ?_⟩; decide +kernel
  · refine ⟨3, fl 5 0 0 100 [(0x16,1,0xF),(0x10,4,5)], port up 3 2, ?_⟩; simp only [flitTaken]; decide +kernel
  · refine ⟨{ port (port running 3 3) 5 3 with wiringNext := none }, ?_⟩; decide +kernel
  · refine ⟨{ up with pw := { up.pw with base := .off } }, ?_⟩; decide +kernel
  · refine ⟨3, port up 3 4, ?_⟩; decide +kernel
  · refine ⟨5000000, 13, { port up 3 5 with ep := up.ep.set 13 { up.ep[13] with planFrom := some 1 } }, ?_⟩; decide +kernel
  · refine ⟨nug, 3, port up 3 4, ?_⟩; decide +kernel

theorem witness_StrandFlitsGiveTheirContents :
    (∃ (t : Nat) (p : Fin 32) (f : FlitIn) (s : State), flitTaken s p f 1 ∧ ringFree s ↑p ∧ flitAgg (fitBytes 256 f.bytes) = false ∧ max s.now t ≤ flitStamp (fitBytes 256 f.bytes) + 200000) ∧
    (∃ (t : Nat) (p : Fin 32) (f : FlitIn) (s : State), flitTaken s p f 1 ∧ ringFree s ↑p ∧ flitAgg (fitBytes 256 f.bytes) = false ∧ flitStamp (fitBytes 256 f.bytes) + 200000 < max s.now t) ∧
    (∃ (p : Fin 32) (f : FlitIn) (s : State), flitTaken s p f 6 ∧ ringFree s ↑p ∧ flitAgg (fitBytes 256 f.bytes) = false ∧ (∀ (j : Nat), j < 12 → byteAt (fitBytes 256 f.bytes) (16 + 16 * j) = 12 * flitSub (fitBytes 256 f.bytes) + j) ∧ flitSub (fitBytes 256 f.bytes) < 4) ∧
    (∃ (p : Fin 32) (f : FlitIn) (s : State) (t1 : Nat), flitTaken s p f 7 ∧ leAt (fitBytes 256 f.bytes) 16 8 ≠ 0 ∧ s.port[p].t1s = [t1] ∧ s.port[p].delays = []) ∧
    (∃ (p : Fin 32) (f : FlitIn) (s : State), flitTaken s p f 7 ∧ leAt (fitBytes 256 f.bytes) 16 8 = 0) ∧
    (∃ (p : Fin 32) (f : FlitIn) (s : State), flitTaken s p f 4) ∧
    (∃ (t : Nat) (p : Fin 32) (f : FlitIn) (s : State) (i : Nat), flitTaken s p f 3 ∧ ringFree s ↑p ∧ s.blk 16 = stRunning ∧ flitAgg (fitBytes 256 f.bytes) = false ∧ byteAt (fitBytes 256 f.bytes) 16 = 1 ∧ byteAt (fitBytes 256 f.bytes) 24 = 1 ∧ s.openWeight ↑(epOf p (flitEp (fitBytes 256 f.bytes))) + leAt (fitBytes 256 f.bytes) 28 2 ≤ 32768 ∧ leAt (fitBytes 256 f.bytes) 40 16 ≠ 0 ∧ leAt (fitBytes 256 f.bytes) 40 16 ≠ 2 ^ 128 - 1 ∧ s.openSpan (↑(epOf p (flitEp (fitBytes 256 f.bytes)))) (leAt (fitBytes 256 f.bytes) 26 2) = none ∧ s.freeSpan = some i ∧ max s.now t ≤ leAt (fitBytes 256 f.bytes) 32 8 + 200000 ∧ s.hmk.gainAt ≤ leAt (fitBytes 256 f.bytes) 32 8) ∧
    (∃ (p : Fin 32) (f : FlitIn) (s : State), flitTaken s p f 3 ∧ ringFree s ↑p ∧ s.blk 16 = stRunning ∧ flitAgg (fitBytes 256 f.bytes) = false ∧ byteAt (fitBytes 256 f.bytes) 16 = 1 ∧ byteAt (fitBytes 256 f.bytes) 24 = 1 ∧ 32768 < s.openWeight ↑(epOf p (flitEp (fitBytes 256 f.bytes))) + leAt (fitBytes 256 f.bytes) 28 2) ∧
    (∃ (w : Writer) (p : Fin 32) (s : State), admits s w (Reg.STR_CTL ↑p) 32 (s.reg (Reg.STR_CTL ↑p) % 2 + 4) = true ∧ s.reg (Reg.STR_CTL ↑p) % 2 = 1 ∧ s.burstState ↑p ≠ 1 ∧ s.burstState ↑p ≠ 2 ∧ s.link ↑p ≠ lkDisabled ∧ popcount 64 (s.reg (Reg.STR_BURST_RAILS ↑p)) ≤ 8 ∧ 1 ≤ s.fld (Reg.STR_BURST_CFG ↑p) 8 8 ∧ s.fld (Reg.STR_BURST_CFG ↑p) 8 8 ≤ 50 ∧ s.burstSlotUsed (s.fld (Reg.STR_BURST_CFG ↑p) 16 3) = false) ∧
    (∃ (w : Writer) (p : Fin 32) (s : State), admits s w (Reg.STR_CTL ↑p) 32 (s.reg (Reg.STR_CTL ↑p) % 2 + 4) = true ∧ s.reg (Reg.STR_CTL ↑p) % 2 = 1 ∧ s.burstState ↑p ≠ 1 ∧ s.burstState ↑p ≠ 2 ∧ s.link ↑p ≠ lkDisabled ∧ (8 < popcount 64 (s.reg (Reg.STR_BURST_RAILS ↑p)) ∨ s.fld (Reg.STR_BURST_CFG ↑p) 8 8 = 0 ∨ 50 < s.fld (Reg.STR_BURST_CFG ↑p) 8 8 ∨ s.burstSlotUsed (s.fld (Reg.STR_BURST_CFG ↑p) 16 3) = true)) ∧
    (∃ (p : Fin 32) (f : FlitIn) (s : State), flitTaken s p f 8 ∧ (s.burstState ↑p = 1 ∨ s.burstState ↑p = 2) ∧ s.port[p].burstBytes + 256 ≤ burstSize ∧ s.mrOk (burstAddr s.port[p].burstSlot + s.port[p].burstBytes) = true) ∧
    (∃ (p : Fin 32) (f : FlitIn) (s : State), flitTaken s p f 8 ∧ (s.burstState ↑p = 1 ∨ s.burstState ↑p = 2) ∧ burstSize < s.port[p].burstBytes + 256) ∧
    (∃ (t : Nat) (p : Fin 32) (s : State), (s.burstState ↑p = 1 ∨ s.burstState ↑p = 2) ∧ s.reg (Reg.STR_BURST_START ↑p) + s.fld (Reg.STR_BURST_CFG ↑p) 8 8 * 1000000 ≤ max s.now t) := by
  refine ⟨?_, ?_, ?_, ?_, ?_, ?_, ?_, ?_, ?_, ?_, ?_, ?_, ?_⟩
  · refine ⟨200000, 3, fl 1 0 1 100 [(0x10,4,0x00640064),(0x14,4,0x00640064)], { port up 3 4 with ep := up.ep.set 13 { up.ep[13] with rails := [(0, ⟨1,5,0x3f800000,0x3f800000,5⟩)] } }, ?_⟩; simp only [flitTaken, ringFree]; decide +kernel
  · refine ⟨300000, 3, fl 1 0 1 100 [(0x10,4,0x00640064),(0x14,4,0x00640064)], { port up 3 4 with ep := up.ep.set 13 { up.ep[13] with rails := [(0, ⟨1,5,0x3f800000,0x3f800000,5⟩)] } }, ?_⟩; simp only [flitTaken, ringFree]; decide +kernel
  · refine ⟨3, fl 6 1 1 100 [(16,1,12),(17,1,0),(18,2,0),(20,4,5),(32,1,13),(33,1,1),(34,2,7),(36,4,14),(48,1,14),(49,1,2),(50,2,14),(52,4,23),(64,1,15),(65,1,3),(66,2,21),(68,4,32),(80,1,16),(81,1,4),(82,2,28),(84,4,41),(96,1,17),(97,1,5),(98,2,35),(100,4,50),(112,1,18),(113,1,6),(114,2,42),(116,4,59),(128,1,19),(129,1,7),(130,2,49),(132,4,68),(144,1,20),(145,1,8),(146,2,56),(148,4,77),(160,1,21),(161,1,9),(162,2,63),(164,4,86),(176,1,22),(177,1,10),(178,2,70),(180,4,95),(192,1,23),(193,1,11),(194,2,77),(196,4,104)], { port up 3 4 with ep := up.ep.set 13 { up.ep[13] with rails := [(0, ⟨1,5,0x3f800000,0x3f800000,5⟩)] } }, ?_⟩; simp only [flitTaken, ringFree]; decide +kernel
  · refine ⟨3, fl 7 0 1 100 [(0x10,8,1500),(0x18,8,1900)], { port up 3 4 with port := up.port.set 3 { up.port[3] with t1s := [1000] } }, 1000, ?_⟩; simp only [flitTaken]; decide +kernel
  · refine ⟨3, fl 7 0 1 100 [(0x20,4,0xFFFFFFF0)], port up 3 4, ?_⟩; simp only [flitTaken]; decide +kernel
  · refine ⟨3, fl 4 0 1 100 [(0x10,1,1),(0x11,1,2),(0x14,4,9),(0x18,8,77),(0x20,2,5)], port up 3 4, ?_⟩; simp only [flitTaken]; decide +kernel
  · refine ⟨300000, 3, fl 3 0 1 100 [(0x10,1,1),(0x18,1,1),(0x1A,2,5),(0x1C,2,0x4000),(0x20,8,290000),(0x28,8,77)], port running 3 4, 128, ?_⟩; simp only [flitTaken, ringFree]; decide +kernel
  · refine ⟨3, fl 3 0 1 100 [(0x10,1,1),(0x18,1,1),(0x1A,2,5),(0x1C,2,0x8001),(0x20,8,290000),(0x28,8,77)], port running 3 4, ?_⟩; simp only [flitTaken, ringFree]; decide +kernel
  · refine ⟨nug, 3, rs (port up 3 4) [(Reg.STR_BURST_CFG 3, 0x20A00), (Reg.STR_BURST_RAILS 3, 0xF), (Reg.STR_BURST_START 3, 999)], ?_⟩; decide +kernel
  · refine ⟨nug, 3, rs (port up 3 4) [(Reg.STR_BURST_CFG 3, 0x20000), (Reg.STR_BURST_RAILS 3, 0xF), (Reg.STR_BURST_START 3, 999)], ?_⟩; decide +kernel
  · refine ⟨3, fl 8 0 1 100 [(0x10,4,5)], { rs (port up 3 4) [(Reg.STR_BURST_STS 3, 1), (Reg.DDC_STS 0, 7), (Reg.DDC_STS 1, 7), (Reg.DDC_STS 2, 7), (Reg.DDC_STS 3, 7), (Reg.DDC_CAP 0, 256), (Reg.DDC_CAP 1, 256), (Reg.DDC_CAP 2, 256), (Reg.DDC_CAP 3, 256)] with port := up.port.set 3 { up.port[3] with burstSlot := 2 } }, ?_⟩; simp only [flitTaken]; decide +kernel
  · refine ⟨3, fl 8 0 1 100 [(0x10,4,5)], { rs (port up 3 4) [(Reg.STR_BURST_STS 3, 1), (Reg.DDC_STS 0, 7), (Reg.DDC_STS 1, 7), (Reg.DDC_STS 2, 7), (Reg.DDC_STS 3, 7), (Reg.DDC_CAP 0, 256), (Reg.DDC_CAP 1, 256), (Reg.DDC_CAP 2, 256), (Reg.DDC_CAP 3, 256)] with port := up.port.set 3 { up.port[3] with burstSlot := 2, burstBytes := 40 * 2 ^ 20 } }, ?_⟩; simp only [flitTaken]; decide +kernel
  · refine ⟨300000, 3, { rs (port up 3 4) [(Reg.STR_BURST_STS 3, 1), (Reg.DDC_STS 0, 7), (Reg.DDC_STS 1, 7), (Reg.DDC_STS 2, 7), (Reg.DDC_STS 3, 7), (Reg.DDC_CAP 0, 256), (Reg.DDC_CAP 1, 256), (Reg.DDC_CAP 2, 256), (Reg.DDC_CAP 3, 256)] with port := up.port.set 3 { up.port[3] with burstSlot := 2 } }, ?_⟩; decide +kernel

theorem witness_IntentsAndPoliciesTakeEffectInOrder :
    (∃ (p : Fin 32) (f : FlitIn) (s : State), flitTaken s p f 2 ∧ ringFree s ↑p ∧ flitAgg (fitBytes 256 f.bytes) = false) ∧
    (∃ (t : Nat) (n : Fin 128) (fr : Nat) (i : IntentRec) (s : State), s.arb.landed = [(↑n, fr, i)] ∧ fr < max s.now t / 10000 ∧ s.link (↑n / 4) = lkAdmitted ∧ s.bit (Reg.STR_STS (↑n / 4)) 4 = true ∧ s.ep[n].barUntil = none) ∧
    (∃ (t : Nat) (e : Nat) (n : Fin 128) (s : State), s.ep[n].barUntil = some e ∧ e ≤ max s.now t) ∧
    (∃ (t : Nat) (l : List Byte) (s : State), s.arb.pendingPolicy = some l ∧ max s.now t % 1000000 = 0 ∧ s.baseUp = true) ∧
    (∃ (t : Nat) (l : List Byte) (s : State), s.arb.policy = some l ∧ max s.now t % 1000000 = 0 ∧ s.baseUp = true ∧ s.arb.policyLapsed = false ∧ s.arb.pendingPolicy = none ∧ leAt l 8 8 < max s.now t) := by
  refine ⟨?_, ?_, ?_, ?_, ?_⟩
  · refine ⟨3, fl 2 0 1 100 [(0x10,8,400000),(0x18,4,5),(0x1C,1,1),(0x20,2,1),(0x22,2,2),(0x24,2,3)], port up 3 4, ?_⟩; simp only [flitTaken, ringFree]; decide +kernel
  · refine ⟨300000, 13, 20, ({ created := 100, start := 1000, dur := 5, cls := 1, conf := 1, iid := 4, lo := 1, mean := 2, hi := 3, rise := 1, fall := 1, cancel := false, out := 0 : IntentRec }), { port up 3 4 with arb := { up.arb with landed := [(13, (20, ({ created := 100, start := 1000, dur := 5, cls := 1, conf := 1, iid := 4, lo := 1, mean := 2, hi := 3, rise := 1, fall := 1, cancel := false, out := 0 : IntentRec })))] }, ep := up.ep.set 13 { up.ep[13] with intents := [] } }, ?_⟩; decide +kernel
  · refine ⟨5, 4, 13, { rs up [(Reg.STR_STS 3, 0x2004)] with ep := up.ep.set 13 { up.ep[13] with barUntil := some 4 } }, ?_⟩; decide +kernel
  · refine ⟨5000000, [1,2], { up with arb := { up.arb with pendingPolicy := some [1,2] } }, ?_⟩; decide +kernel
  · refine ⟨5000000, [1,2], { up with arb := { up.arb with policy := some [1,2] } }, ?_⟩; decide +kernel

theorem witness_BoundariesAndPulsePeriods :
    (∃ (s : State), s.pulseUp = true) ∧
    (∃ (b : Fin 48) (s : State), s.pulseUp = true ∧ s.bst b = stStarting ∧ s.pd.brick[b].waitRot = false ∧ s.pd.brick[b].onAt < max s.now s.grid.pulse) ∧
    (∃ (b : Fin 48) (k : Nat) (s : State), s.pulseUp = true ∧ s.bst b = stRunning ∧ s.pd.brick[b].ramp = some k ∧ k + 4 ≤ max s.now s.grid.pulse / 4000) ∧
    (∃ (d : Nat) (s : State), s.pulseUp = true ∧ s.gov.due = some d ∧ d < max s.now s.grid.pulse) := by
  refine ⟨?_, ?_, ?_, ?_⟩
  · refine ⟨up, ?_⟩; decide +kernel
  · refine ⟨0, { rs up [(Reg.PCM_STS 0, 1)] with now := 123456 }, ?_⟩; decide +kernel
  · refine ⟨0, 2, { rs up [(Reg.PCM_STS 0, 2)] with now := 123456, pd := { up.pd with brick := up.pd.brick.set 0 { up.pd.brick[0] with ramp := some 2 } } }, ?_⟩; decide +kernel
  · refine ⟨5, { rs up [(Reg.GOV_ROW0_SMIN + 8, 1065353216)] with now := 123456, gov := { up.gov with due := some 5, target := (1073741824, 0xC0000000) } }, ?_⟩; decide +kernel

theorem witness_GovernorJudgesRecordsWhole :
    (∃ (t : Nat) (g : List Byte) (s : State), s.pulseUp = true ∧ s.pw.seamHeld = false ∧ max s.now t ≤ (refFrame g + 1) * 10000) ∧
    (∃ (t : Nat) (g : List Byte) (s : State), s.pulseUp = true ∧ s.pw.seamHeld = false ∧ (refFrame g + 1) * 10000 < max s.now t) ∧
    (∃ (s : State) (k : Nat), s.pulseUp = true ∧ s.baseUp = false ∧ (atJudgement s).refFails (sparseFind s.gov.refs ((atJudgement s).now / 10000 - 1)) (match s.gov.passed with | some (k, p) => if k + 1 = (atJudgement s).now / 10000 - 1 then some p else none | none => none) = some k) ∧
    (∃ (s : State), s.pulseUp = true ∧ s.baseUp = false ∧ (atJudgement s).refFails (sparseFind s.gov.refs ((atJudgement s).now / 10000 - 1)) (match s.gov.passed with | some (k, p) => if k + 1 = (atJudgement s).now / 10000 - 1 then some p else none | none => none) = none) ∧
    (∃ (w : Writer) (r : Fin 4) (k : Fin 4) (v : Word) (s : State), admits s w (Reg.GOV_ROW0_SMIN + 16 * ↑r + 4 * ↑k) 32 (BitVec.toNat v) = true ∧ govRowOk (↑r) (↑k) s (BitVec.toNat v) = true) ∧
    (∃ (w : Writer) (r : Fin 4) (k : Fin 4) (v : Word) (s : State), admits s w (Reg.GOV_ROW0_SMIN + 16 * ↑r + 4 * ↑k) 32 (BitVec.toNat v) = true ∧ govRowOk (↑r) (↑k) s (BitVec.toNat v) = false) := by
  refine ⟨?_, ?_, ?_, ?_, ?_, ?_⟩
  · refine ⟨100000, refRec 11 1065353216 1065353216 0 0, up, ?_⟩; decide +kernel
  · refine ⟨200000, refRec 11 1065353216 1065353216 0 0, running, ?_⟩; decide +kernel
  · refine ⟨{ rs power [(Reg.GOV_ROW0_SMIN, 0xC2C80000), (Reg.GOV_ROW0_SMIN + 4, 0x42C80000), (Reg.GOV_ROW0_SMIN + 8, 0x42C80000), (Reg.GOV_ROW0_SMIN + 12, 0x42C80000)] with pw := { power.pw with base := .off }, now := 105000, gov := { power.gov with refs := [] } }, 1, ?_⟩; decide +kernel
  · refine ⟨{ rs power [(Reg.GOV_ROW0_SMIN, 0xC2C80000), (Reg.GOV_ROW0_SMIN + 4, 0x42C80000), (Reg.GOV_ROW0_SMIN + 8, 0x42C80000), (Reg.GOV_ROW0_SMIN + 12, 0x42C80000)] with pw := { power.pw with base := .off }, now := 105000, gov := { power.gov with refs := [(10, (refRec 10 1065353216 1065353216 0 0, false))] } }, ?_⟩; decide +kernel
  · refine ⟨nug, 1, 0, 0, { up with lc := .provision }, ?_⟩; decide +kernel
  · refine ⟨nug, 1, 0, 0x7F000000, { up with lc := .provision }, ?_⟩; decide +kernel

theorem witness_HoldoverAndThePlanBuffer :
    (∃ (s : State), s.pulseUp = true ∧ 10 ≤ s.gov.missRun ∧ s.inHoldover = false) ∧
    (∃ (s : State), s.pulseUp = true ∧ s.inHoldover = false) ∧
    (∃ (s : State), s.inHoldover = true ∧ 10 ≤ s.gov.accRun) ∧
    (∃ (t : Nat) (j : Nat) (s : State), s.inHoldover = true ∧ (s.at t).atLimit1ms = true ∧ s.gov.lastFloor ≠ some (max s.now t / 1000000) ∧ nextFloor s.floorOrder s.floorMask = some j) ∧
    (∃ (s : State), s.pulseUp = true ∧ s.pw.seamHeld = false) ∧
    (∃ (b : List Byte) (s : State), (s.pulseUp = true ∧ s.baseUp = false ∧ s.gov.next = some b ∧ b.length = 576 ∧ planStartOf b = alignUp 1000000 (max s.now s.grid.plan)) ∧ planCrcOk b = true) ∧
    (∃ (b : List Byte) (s : State), s.pulseUp = true ∧ s.baseUp = false ∧ s.gov.next = some b ∧ planStartOf b < alignUp 1000000 (max s.now s.grid.plan)) := by
  refine ⟨?_, ?_, ?_, ?_, ?_, ?_, ?_⟩
  · refine ⟨{ up with gov := { up.gov with missRun := 10 } }, ?_⟩; decide +kernel
  · refine ⟨up, ?_⟩; decide +kernel
  · refine ⟨{ rs up [(Reg.PLS_STS, 8)] with gov := { up.gov with accRun := 10, accepted := some (3,4) } }, ?_⟩; decide +kernel
  · refine ⟨2000000, 2, { rs up [(Reg.PLS_STS, 8)] with gov := { up.gov with plan := some (planRec 5 0), limSince := (some 5, none), holdMask := 3 } }, ?_⟩; decide +kernel
  · refine ⟨up, ?_⟩; decide +kernel
  · refine ⟨planRec 2000000 997251315, { up with now := 1500000, pw := { up.pw with base := .off }, gov := { up.gov with next := some (planRec 2000000 997251315) } }, ?_, ?_⟩
    · decide +kernel
    · exact planRec_ok_2000000
  · refine ⟨planRec 5 0, { up with now := 1500000, pw := { up.pw with base := .off }, gov := { up.gov with next := some (planRec 5 0) } }, ?_⟩; decide +kernel

theorem witness_FloorWiresRectifiersAndLines :
    (∃ (s : State), s.pulseUp = true) ∧
    (∃ (t : Nat) (e : Nat) (j : Fin 32) (s : State), sparseFind s.gov.alertEnd ↑j = some e ∧ e + 1000000 ≤ max s.now t) ∧
    (∃ (w : Writer) (v : Word) (s : State), admits s w Reg.PLS_FLOOR_FORCE 32 (BitVec.toNat v) = true) ∧
    (∃ (t : Nat) (w : Writer) (v : Word) (s : State), admits s w Reg.PLS_FLOOR_ALL 32 (BitVec.toNat v) = true ∧ (s.at t).drivesFloors = true) ∧
    (∃ (s : State), s.gov.lineOk = true) ∧
    (∃ (t : Nat) (k : Nat) (s : State), s.gov.lineOk = false ∧ 100 ≤ k ∧ max s.now t % 1000000 = 0) ∧
    (∃ (t : Nat) (k : Nat) (s : State), s.gov.lineOk = false ∧ 100 ≤ k ∧ max s.now t % 1000000 ≠ 0) ∧
    (∃ (level : Bool) (s : State), s.pw.kaOk = true ∧ level ≠ s.slotB) ∧
    (∃ (c : OrderCode) (s : State), c ≠ s.ownCode) := by
  refine ⟨?_, ?_, ?_, ?_, ?_, ?_, ?_, ?_, ?_⟩
  · refine ⟨up, ?_⟩; decide +kernel
  · refine ⟨2000000, 7, 4, { up with gov := { up.gov with alertEnd := [(4,7)], alertMask := 0x18 } }, ?_⟩; decide +kernel
  · refine ⟨nug, 0x81, up, ?_⟩; decide +kernel
  · refine ⟨9, nug, 0x80000000, { rs power [(Reg.PLS_FLOOR_FORCE, 6)] with now := 5 }, ?_⟩; decide +kernel
  · refine ⟨up, ?_⟩; decide +kernel
  · refine ⟨2000000, 100, { up with gov := { up.gov with lineOk := false } }, ?_⟩; decide +kernel
  · refine ⟨2000001, 100, { up with gov := { up.gov with lineOk := false } }, ?_⟩; decide +kernel
  · refine ⟨true, up, ?_⟩; decide +kernel
  · refine ⟨.B, up, ?_⟩; decide +kernel

theorem witness_BrickPeriodsEndAsR195Says :
    (∃ (b : Fin 48) (s : State), s.brickSwitches b = true ∧ s.prt.pll = true) ∧
    (∃ (b : Fin 48) (s : State), s.pd.brick[b].on = true) ∧
    (∃ (b : Fin 48) (i : Int) (k : Nat) (s : State), s.pd.brick[b].on = true ∧ s.pd.brick[b].armed = true ∧ s.reg (Reg.PCM_BLANK ↑b) ≤ k ∧ (s.rampLevel b k).le (Fv.ofInt (s.senseDir b i)) = true) ∧
    (∃ (b : Fin 48) (i : Int) (k : Nat) (s : State), s.pd.brick[b].on = true ∧ s.pd.brick[b].armed = true ∧ s.reg (Reg.PCM_BLANK ↑b) ≤ k ∧ ↑(s.cbcLimit b) ≤ s.senseDir b i) ∧
    (∃ (b : Fin 48) (k : Nat) (s : State), s.pd.brick[b].on = true ∧ s.reg (Reg.PCM_MAX_ON ↑b) ≤ k) ∧
    (∃ (b : Fin 48) (i : Int) (s : State), s.reg (Reg.PCM_HARD ↑b) ≤ i.natAbs ∧ (s.bst b = stRunning ∨ s.bst b = stStopping)) ∧
    (∃ (b : Fin 48) (s : State), s.reg Reg.PRT_CBC_PERSIST ≤ s.pd.brick[b].cbcRun ∧ s.pd.brick[b].cbcRun ≠ 0 ∧ s.bst b ≠ stFault) ∧
    (∃ (b : Fin 48) (s : State), s.dinActive (8 + ↑b) = true ∧ s.pulseUp = true ∧ s.bst b ≠ stFault) := by
  refine ⟨?_, ?_, ?_, ?_, ?_, ?_, ?_, ?_⟩
  · refine ⟨1, { rs power [(Reg.PCM_STS 1, 10), (Reg.PCM_BLANK 1, 4), (Reg.PCM_CODE 1, 1000), (Reg.PCM_MAX_ON 1, 900), (Reg.PCM_LIMIT 1, 0x8000800), (Reg.PCM_HARD 1, 3000)] with prt := { power.prt with pll := true } }, ?_⟩; decide +kernel
  · refine ⟨1, { ({ rs power [(Reg.PCM_STS 1, 10), (Reg.PCM_BLANK 1, 4), (Reg.PCM_CODE 1, 1000), (Reg.PCM_MAX_ON 1, 900), (Reg.PCM_LIMIT 1, 0x8000800), (Reg.PCM_HARD 1, 3000)] with prt := { power.prt with pll := true } } : State) with pd := { ({ rs power [(Reg.PCM_STS 1, 10), (Reg.PCM_BLANK 1, 4), (Reg.PCM_CODE 1, 1000), (Reg.PCM_MAX_ON 1, 900), (Reg.PCM_LIMIT 1, 0x8000800), (Reg.PCM_HARD 1, 3000)] with prt := { power.prt with pll := true } }).pd with brick := ({ rs power [(Reg.PCM_STS 1, 10), (Reg.PCM_BLANK 1, 4), (Reg.PCM_CODE 1, 1000), (Reg.PCM_MAX_ON 1, 900), (Reg.PCM_LIMIT 1, 0x8000800), (Reg.PCM_HARD 1, 3000)] with prt := { power.prt with pll := true } }).pd.brick.set 1 { ({ rs power [(Reg.PCM_STS 1, 10), (Reg.PCM_BLANK 1, 4), (Reg.PCM_CODE 1, 1000), (Reg.PCM_MAX_ON 1, 900), (Reg.PCM_LIMIT 1, 0x8000800), (Reg.PCM_HARD 1, 3000)] with prt := { power.prt with pll := true } }).pd.brick[1] with on := true, armed := true } } }, ?_⟩; decide +kernel
  · refine ⟨1, 1000, 5, { ({ rs power [(Reg.PCM_STS 1, 10), (Reg.PCM_BLANK 1, 4), (Reg.PCM_CODE 1, 1000), (Reg.PCM_MAX_ON 1, 900), (Reg.PCM_LIMIT 1, 0x8000800), (Reg.PCM_HARD 1, 3000)] with prt := { power.prt with pll := true } } : State) with pd := { ({ rs power [(Reg.PCM_STS 1, 10), (Reg.PCM_BLANK 1, 4), (Reg.PCM_CODE 1, 1000), (Reg.PCM_MAX_ON 1, 900), (Reg.PCM_LIMIT 1, 0x8000800), (Reg.PCM_HARD 1, 3000)] with prt := { power.prt with pll := true } }).pd with brick := ({ rs power [(Reg.PCM_STS 1, 10), (Reg.PCM_BLANK 1, 4), (Reg.PCM_CODE 1, 1000), (Reg.PCM_MAX_ON 1, 900), (Reg.PCM_LIMIT 1, 0x8000800), (Reg.PCM_HARD 1, 3000)] with prt := { power.prt with pll := true } }).pd.brick.set 1 { ({ rs power [(Reg.PCM_STS 1, 10), (Reg.PCM_BLANK 1, 4), (Reg.PCM_CODE 1, 1000), (Reg.PCM_MAX_ON 1, 900), (Reg.PCM_LIMIT 1, 0x8000800), (Reg.PCM_HARD 1, 3000)] with prt := { power.prt with pll := true } }).pd.brick[1] with on := true, armed := true } } }, ?_⟩; decide +kernel
  · refine ⟨1, 2048, 5, { ({ rs power [(Reg.PCM_STS 1, 10), (Reg.PCM_BLANK 1, 4), (Reg.PCM_CODE 1, 1000), (Reg.PCM_MAX_ON 1, 900), (Reg.PCM_LIMIT 1, 0x8000800), (Reg.PCM_HARD 1, 3000)] with prt := { power.prt with pll := true } } : State) with pd := { ({ rs power [(Reg.PCM_STS 1, 10), (Reg.PCM_BLANK 1, 4), (Reg.PCM_CODE 1, 1000), (Reg.PCM_MAX_ON 1, 900), (Reg.PCM_LIMIT 1, 0x8000800), (Reg.PCM_HARD 1, 3000)] with prt := { power.prt with pll := true } }).pd with brick := ({ rs power [(Reg.PCM_STS 1, 10), (Reg.PCM_BLANK 1, 4), (Reg.PCM_CODE 1, 1000), (Reg.PCM_MAX_ON 1, 900), (Reg.PCM_LIMIT 1, 0x8000800), (Reg.PCM_HARD 1, 3000)] with prt := { power.prt with pll := true } }).pd.brick.set 1 { ({ rs power [(Reg.PCM_STS 1, 10), (Reg.PCM_BLANK 1, 4), (Reg.PCM_CODE 1, 1000), (Reg.PCM_MAX_ON 1, 900), (Reg.PCM_LIMIT 1, 0x8000800), (Reg.PCM_HARD 1, 3000)] with prt := { power.prt with pll := true } }).pd.brick[1] with on := true, armed := true } } }, ?_⟩; decide +kernel
  · refine ⟨1, 900, { ({ rs power [(Reg.PCM_STS 1, 10), (Reg.PCM_BLANK 1, 4), (Reg.PCM_CODE 1, 1000), (Reg.PCM_MAX_ON 1, 900), (Reg.PCM_LIMIT 1, 0x8000800), (Reg.PCM_HARD 1, 3000)] with prt := { power.prt with pll := true } } : State) with pd := { ({ rs power [(Reg.PCM_STS 1, 10), (Reg.PCM_BLANK 1, 4), (Reg.PCM_CODE 1, 1000), (Reg.PCM_MAX_ON 1, 900), (Reg.PCM_LIMIT 1, 0x8000800), (Reg.PCM_HARD 1, 3000)] with prt := { power.prt with pll := true } }).pd with brick := ({ rs power [(Reg.PCM_STS 1, 10), (Reg.PCM_BLANK 1, 4), (Reg.PCM_CODE 1, 1000), (Reg.PCM_MAX_ON 1, 900), (Reg.PCM_LIMIT 1, 0x8000800), (Reg.PCM_HARD 1, 3000)] with prt := { power.prt with pll := true } }).pd.brick.set 1 { ({ rs power [(Reg.PCM_STS 1, 10), (Reg.PCM_BLANK 1, 4), (Reg.PCM_CODE 1, 1000), (Reg.PCM_MAX_ON 1, 900), (Reg.PCM_LIMIT 1, 0x8000800), (Reg.PCM_HARD 1, 3000)] with prt := { power.prt with pll := true } }).pd.brick[1] with on := true, armed := true } } }, ?_⟩; decide +kernel
  · refine ⟨1, -3000, { ({ rs power [(Reg.PCM_STS 1, 10), (Reg.PCM_BLANK 1, 4), (Reg.PCM_CODE 1, 1000), (Reg.PCM_MAX_ON 1, 900), (Reg.PCM_LIMIT 1, 0x8000800), (Reg.PCM_HARD 1, 3000)] with prt := { power.prt with pll := true } } : State) with pd := { ({ rs power [(Reg.PCM_STS 1, 10), (Reg.PCM_BLANK 1, 4), (Reg.PCM_CODE 1, 1000), (Reg.PCM_MAX_ON 1, 900), (Reg.PCM_LIMIT 1, 0x8000800), (Reg.PCM_HARD 1, 3000)] with prt := { power.prt with pll := true } }).pd with brick := ({ rs power [(Reg.PCM_STS 1, 10), (Reg.PCM_BLANK 1, 4), (Reg.PCM_CODE 1, 1000), (Reg.PCM_MAX_ON 1, 900), (Reg.PCM_LIMIT 1, 0x8000800), (Reg.PCM_HARD 1, 3000)] with prt := { power.prt with pll := true } }).pd.brick.set 1 { ({ rs power [(Reg.PCM_STS 1, 10), (Reg.PCM_BLANK 1, 4), (Reg.PCM_CODE 1, 1000), (Reg.PCM_MAX_ON 1, 900), (Reg.PCM_LIMIT 1, 0x8000800), (Reg.PCM_HARD 1, 3000)] with prt := { power.prt with pll := true } }).pd.brick[1] with on := true, armed := true } } }, ?_⟩; decide +kernel
  · refine ⟨1, { (rs (up) [(Reg.PRT_CBC_PERSIST, 3)] : State) with pd := { (rs (up) [(Reg.PRT_CBC_PERSIST, 3)]).pd with brick := (rs (up) [(Reg.PRT_CBC_PERSIST, 3)]).pd.brick.set 1 { (rs (up) [(Reg.PRT_CBC_PERSIST, 3)]).pd.brick[1] with cbcRun := 3 } } }, ?_⟩; decide +kernel
  · refine ⟨1, rs up [(Reg.DIN_STS 9, 4)], ?_⟩; decide +kernel

theorem witness_BricksStartStopAndClear :
    (∃ (t : Nat) (w : Writer) (b : Fin 48) (v : Word) (s : State), admits s w (Reg.PCM_CTL ↑b) 32 (BitVec.toNat v) = true ∧ BitVec.toNat v % 2 = 1 ∧ bitOf (BitVec.toNat v) 1 = false ∧ bitOf (BitVec.toNat v) 2 = false ∧ s.bst b = stOff ∧ s.pcmRuns = true ∧ (s.at t).drives = true) ∧
    (∃ (t : Nat) (w : Writer) (b : Fin 48) (v : Word) (s : State) (i : Instr), (admits s w (Reg.PCM_CTL ↑b) 32 (BitVec.toNat v) = true ∧ BitVec.toNat v % 2 = 0 ∧ bitOf (BitVec.toNat v) 1 = false ∧ (s.bst b = stStarting ∨ s.bst b = stRunning)) ∧ i ∈ [Instr.pcmEnable t w b v, Instr.pcmExclude t w b v]) ∧
    (∃ (w : Writer) (b : Fin 48) (v : Word) (s : State), admits s w (Reg.PCM_CTL ↑b) 32 (BitVec.toNat v) = true ∧ BitVec.toNat v % 2 = 1 ∧ bitOf (BitVec.toNat v) 1 = false ∧ bitOf (BitVec.toNat v) 2 = false ∧ s.bst b = stStopping) ∧
    (∃ (w : Writer) (b : Fin 48) (v : Word) (s : State), admits s w (Reg.PCM_CTL ↑b) 32 (BitVec.toNat v) = true ∧ bitOf (BitVec.toNat v) 2 = true ∧ (s.bst b = stStarting ∨ s.bst b = stRunning) ∧ bitOf (BitVec.toNat v) 1 = false) ∧
    (∃ (w : Writer) (b : Fin 48) (v : Word) (s : State), admits s w (Reg.PCM_CTL ↑b) 32 (BitVec.toNat v) = true ∧ bitOf (BitVec.toNat v) 1 = true ∧ BitVec.toNat v % 2 = 0 ∧ s.bst b = stFault ∧ s.brickGone b = true) ∧
    (∃ (w : Writer) (b : Fin 48) (v : Word) (s : State), admits s w (Reg.PCM_CTL ↑b) 32 (BitVec.toNat v) = true ∧ bitOf (BitVec.toNat v) 1 = true ∧ BitVec.toNat v % 2 = 0 ∧ s.bst b = stFault ∧ s.brickGone b = false) ∧
    (∃ (t : Nat) (k : Nat) (b : Fin 48) (s : State), s.bst b = stStopping ∧ s.pd.brick[b].ramp = some k ∧ k + 4 ≤ max s.now t / 4000 ∧ s.bit (Reg.PCM_STS ↑b) 7 = false) ∧
    (∃ (t : Nat) (k : Nat) (b : Fin 48) (s : State), s.bst b = stStopping ∧ s.pd.brick[b].ramp = some k ∧ k + 4 ≤ max s.now t / 4000 ∧ s.bit (Reg.PCM_STS ↑b) 7 = true ∧ s.brickExcl b = false ∧ s.pcmRuns = true ∧ (s.at t).drives = true) := by
  refine ⟨?_, ?_, ?_, ?_, ?_, ?_, ?_, ?_⟩
  · refine ⟨8000, nug, 3, 1, power, ?_⟩; decide +kernel
  · refine ⟨8000, nug, 1, 0, power, .pcmEnable 8000 nug 1 0, ?_, ?_⟩
    · decide +kernel
    · simp
  · refine ⟨nug, 1, 1, rs power [(Reg.PCM_STS 1, 3)], ?_⟩; decide +kernel
  · refine ⟨nug, 1, 5, power, ?_⟩; decide +kernel
  · refine ⟨nug, 1, 2, rs power [(Reg.PCM_STS 1, 0x205)], ?_⟩; decide +kernel
  · refine ⟨nug, 1, 2, rs power [(Reg.PCM_STS 1, 0x305), (Reg.DIN_STS 9, 4)], ?_⟩; decide +kernel
  · refine ⟨24000, 2, 1, { (rs power [(Reg.PCM_STS 1, 3)] : State) with pd := { (rs power [(Reg.PCM_STS 1, 3)]).pd with brick := (rs power [(Reg.PCM_STS 1, 3)]).pd.brick.set 1 { (rs power [(Reg.PCM_STS 1, 3)]).pd.brick[1] with ramp := some 2 } } }, ?_⟩; decide +kernel
  · refine ⟨24000, 2, 1, { (rs power [(Reg.PCM_STS 1, 0x83)] : State) with pd := { (rs power [(Reg.PCM_STS 1, 0x83)]).pd with brick := (rs power [(Reg.PCM_STS 1, 0x83)]).pd.brick.set 1 { (rs power [(Reg.PCM_STS 1, 0x83)]).pd.brick[1] with ramp := some 2 } } }, ?_⟩; decide +kernel

theorem witness_RotationAndSheddingKeepTheirOrder :
    (∃ (t : Nat) (s : State), s.pulseUp = true ∧ (s.at t).rotDue = true ∧ (s.at t).inReadd = false ∧ s.bit Reg.PLT_CTL 0 = true ∧ s.bit Reg.PLT_STS 1 = false) ∧
    (∃ (t : Nat) (s : State), s.pulseUp = true ∧ (s.at t).rotDue = true ∧ (s.at t).inReadd = false ∧ s.bit Reg.PLT_CTL 0 = false ∧ s.bit Reg.PLT_STS 1 = true) ∧
    (∃ (t : Nat) (s : State), s.pulseUp = true ∧ (s.at t).rotDue = true ∧ (s.at t).inReadd = true) ∧
    (∃ (t : Nat) (s : State), s.bit Reg.PLT_STS 0 = true ∧ (s.at t).inReadd = false ∧ max s.now t % 4000 = 0 ∧ s.pd.deferred = 1 ∧ s.bit Reg.PLT_CTL 0 = true) ∧
    (∃ (w : Writer) (i : Fin 12) (v : Word) (s : State), admits s w (Reg.PLT_MAP ↑i) 32 (BitVec.toNat v) = true) ∧
    (∃ (t : Nat) (b : Nat) (s : State), s.pd.b0 = some b ∧ max s.now t = b + 4000) ∧
    (∃ (t : Nat) (b : Nat) (s : State), s.pd.lowSince = some b ∧ s.bit Reg.SHD_CTL 0 = true ∧ s.pd.shedPulse = none ∧ (s.at t).holdoff = false ∧ (s.at t).inReadd = false ∧ max s.now t % 4000 = 0 ∧ b + s.reg Reg.SHD_DWELL * 1000000 ≤ max s.now t) ∧
    (∃ (t : Nat) (k : Nat) (b : Nat) (x : Nat) (s : State), s.pd.shedPulse = some k ∧ s.pd.lowSince = some b ∧ s.bit Reg.SHD_CTL 0 = true ∧ max s.now t % 4000 = 0 ∧ k + 16 ≤ max s.now t / 4000 ∧ (s.at t).canShed = true ∧ (s.at t).strs = [x] ∧ (s.at t).activeOf x ≠ []) ∧
    (∃ (t : Nat) (s : State), (s.at t).holdoff = false) := by
  refine ⟨?_, ?_, ?_, ?_, ?_, ?_, ?_, ?_, ?_⟩
  · refine ⟨8000, rs power [(Reg.PLT_PERIOD, 2), (Reg.PLT_CTL, 1)], ?_⟩; decide +kernel
  · refine ⟨8000, rs power [(Reg.PLT_PERIOD, 2), (Reg.PLT_CTL, 0), (Reg.PLT_STS, 2)], ?_⟩; decide +kernel
  · refine ⟨8000, { (rs power [(Reg.PLT_PERIOD, 2), (Reg.PLT_CTL, 1)] : State) with pd := { (rs power [(Reg.PLT_PERIOD, 2), (Reg.PLT_CTL, 1)]).pd with b0 := some 4000 } }, ?_⟩; decide +kernel
  · refine ⟨12000, { (rs power [(Reg.PLT_PERIOD, 2), (Reg.PLT_CTL, 1), (Reg.PLT_STS, 1)] : State) with pd := { (rs power [(Reg.PLT_PERIOD, 2), (Reg.PLT_CTL, 1), (Reg.PLT_STS, 1)]).pd with b0 := some 4000, deferred := 1 } }, ?_⟩; decide +kernel
  · refine ⟨nug, 2, 0x01020304, power, ?_⟩; decide +kernel
  · refine ⟨8000, 4000, { (power : State) with pd := { (power).pd with b0 := some 4000 } }, ?_⟩; decide +kernel
  · refine ⟨2000000, 4000, { (rs power [(Reg.SHD_CTL, 1), (Reg.SHD_DWELL, 1), (Reg.SHD_MIN, 1)] : State) with pd := { (rs power [(Reg.SHD_CTL, 1), (Reg.SHD_DWELL, 1), (Reg.SHD_MIN, 1)]).pd with lowSince := some 4000, n := (2, 2) } }, ?_⟩; decide +kernel
  · refine ⟨2000000, 3, 4000, 1, { (rs power [(Reg.SHD_CTL, 1), (Reg.SHD_DWELL, 1), (Reg.SHD_MIN, 1), (Reg.CTC_STS 0, 0), (Reg.PCM_STS 0, 0), (Reg.PCM_STS 1, 0)] : State) with pd := { (rs power [(Reg.SHD_CTL, 1), (Reg.SHD_DWELL, 1), (Reg.SHD_MIN, 1), (Reg.CTC_STS 0, 0), (Reg.PCM_STS 0, 0), (Reg.PCM_STS 1, 0)]).pd with lowSince := some 4000, n := (2, 2), shedPulse := some 3 } }, ?_⟩; decide +kernel
  · refine ⟨2000000, { (rs power [(Reg.SHD_HOLDOFF, 1), (Reg.SHD_STS, 0x100)] : State) with pd := { (rs power [(Reg.SHD_HOLDOFF, 1), (Reg.SHD_STS, 0x100)]).pd with lastStep := some 4 } }, ?_⟩; decide +kernel

theorem witness_ChannelsStartRetryAndStop :
    (∃ (t : Nat) (w : Writer) (n : Fin 4) (v : Word) (s : State) (i : Instr), (admits s w (Reg.VMC_CTL ↑n) 32 (BitVec.toNat v) = true ∧ vmcCtlOk n s (BitVec.toNat v) = true ∧ bitOf (BitVec.toNat v) 2 = false ∧ BitVec.toNat v % 2 = 1 ∧ s.vmst n = stOff ∧ (s.at t).drives = true ∧ s.blk 264 = stRunning) ∧ i ∈ [Instr.vmcEnable t w n v, Instr.vmcTargetMode t w n v]) ∧
    (∃ (t : Nat) (w : Writer) (n : Fin 4) (v : Word) (s : State) (i : Instr), (admits s w (Reg.VMC_CTL ↑n) 32 (BitVec.toNat v) = true ∧ vmcCtlOk n s (BitVec.toNat v) = true ∧ bitOf (BitVec.toNat v) 2 = false ∧ BitVec.toNat v % 2 = 0 ∧ (s.vmst n = stStarting ∨ s.vmst n = stRunning ∨ s.vmst n = stHold)) ∧ i ∈ [Instr.vmcEnable t w n v, Instr.vmcTargetMode t w n v]) ∧
    (∃ (w : Writer) (n : Fin 4) (v : Word) (s : State), admits s w (Reg.VMC_CTL ↑n) 32 (BitVec.toNat v) = true ∧ bitOf (BitVec.toNat v) 1 = true ∧ 2 ≤ ↑n) ∧
    (∃ (w : Writer) (n : Fin 4) (v : Word) (s : State), admits s w (Reg.VMC_CTL ↑n) 32 (BitVec.toNat v) = true ∧ bitOf (BitVec.toNat v) 2 = true ∧ BitVec.toNat v % 2 = 0 ∧ bitOf (BitVec.toNat v) 1 = false ∧ s.vmst n = stFault ∧ s.vmGone n = true) ∧
    (∃ (held : Nat) (n : Fin 4) (s : State), s.vmst n = stStarting ∧ 1000000 ≤ held ∧ s.vmWithin n = true) ∧
    (∃ (t : Nat) (n : Fin 4) (s : State), s.vmst n = stStarting ∧ s.vm[n].startAt + s.reg (Reg.VMC_TIMEOUT ↑n) * 1000000 ≤ max s.now t) ∧
    (∃ (held : Nat) (n : Fin 4) (s : State), s.vmShort n held = true ∧ s.fld (Reg.VMC_STS ↑n) 16 4 < s.fld (Reg.VMC_SHORT ↑n) 24 4) ∧
    (∃ (held : Nat) (n : Fin 4) (s : State), s.vmShort n held = true ∧ s.fld (Reg.VMC_SHORT ↑n) 24 4 ≤ s.fld (Reg.VMC_STS ↑n) 16 4) ∧
    (∃ (t : Nat) (n : Fin 4) (s : State), s.vmst n = stHold ∧ s.vm[n].holdAt + s.reg (Reg.VMC_HICCUP_OFF ↑n) * 1000000 ≤ max s.now t ∧ s.fld (Reg.VMC_STS ↑n) 16 4 < 15 ∧ (s.at t).drives = true ∧ s.blk 264 = stRunning) ∧
    (∃ (t : Nat) (n : Fin 4) (s : State), s.vmst n = stRunning ∧ s.vm[n].runAt + 1000000000 ≤ max s.now t) ∧
    (∃ (t : Nat) (n : Fin 4) (s : State), s.vmst n = stStopping ∧ s.vm[n].stopAt + 1000000 ≤ max s.now t ∧ s.bit (Reg.VMC_STS ↑n) 4 = false) ∧
    (∃ (t : Nat) (n : Fin 4) (s : State), (s.vmst n = stStarting ∨ s.vmst n = stRunning ∨ s.vmst n = stStopping) ∧ max s.now t % 10000 = ↑n * 2500) := by
  refine ⟨?_, ?_, ?_, ?_, ?_, ?_, ?_, ?_, ?_, ?_, ?_, ?_⟩
  · refine ⟨8000, nug, 2, 1, power, .vmcEnable 8000 nug 2 1, ?_, ?_⟩
    · decide +kernel
    · simp
  · refine ⟨8000, nug, 1, 2, rs power [(Reg.VMC_STS 1, 2)], .vmcEnable 8000 nug 1 2, ?_, ?_⟩
    · decide +kernel
    · simp
  · refine ⟨nug, 2, 2, power, ?_⟩; decide +kernel
  · refine ⟨nug, 2, 4, rs power [(Reg.VMC_STS 2, 0x30205)], ?_⟩; decide +kernel
  · refine ⟨1000000, 2, rs power [(Reg.VMC_STS 2, 1), (Reg.VMC_TARGET 2, 1200), (Reg.VMC_VOUT 2, 0x41400000)], ?_⟩; decide +kernel
  · refine ⟨8000000, 2, rs power [(Reg.VMC_STS 2, 1), (Reg.VMC_TIMEOUT 2, 8)], ?_⟩; decide +kernel
  · refine ⟨5000, 2, rs power [(Reg.VMC_STS 2, 2), (Reg.VMC_TARGET 2, 1200), (Reg.VMC_SHORT 2, 0x3200005), (Reg.VMC_ILIM 2, 100), (Reg.VMC_IOUT 2, 0x40000000)], ?_⟩; decide +kernel
  · refine ⟨5000, 2, rs power [(Reg.VMC_STS 2, 0x30002), (Reg.VMC_TARGET 2, 1200), (Reg.VMC_SHORT 2, 0x3200005), (Reg.VMC_ILIM 2, 100), (Reg.VMC_IOUT 2, 0x40000000)], ?_⟩; decide +kernel
  · refine ⟨8000000, 2, rs power [(Reg.VMC_STS 2, 0x10006), (Reg.VMC_HICCUP_OFF 2, 8)], ?_⟩; decide +kernel
  · refine ⟨1000000000, 2, rs power [(Reg.VMC_STS 2, 0x10002)], ?_⟩; decide +kernel
  · refine ⟨1000000, 2, rs power [(Reg.VMC_STS 2, 0x10003)], ?_⟩; decide +kernel
  · refine ⟨15000, 2, rs power [(Reg.VMC_STS 2, 0x10003)], ?_⟩; decide +kernel

theorem witness_ControlLawsSampleAsR208 :
    (∃ (t : Nat) (wait : Nat) (i : Fin 64) (s : State), (s.at t).cleDue ↑i = true ∧ sparseFind s.cle.swap ↑i = none ∧ wait + cleCycles (s.cleN ↑i) (s.cleM ↑i) ≤ fieldOf (s.cleRec (↑i) 2) 16 16 ∧ fieldOf (s.cleRec (↑i) 2) 0 8 = 0 ∧ (f32 (cleDot (List.map (fun e => ((s.at t).coef (↑i) ((s.at t).cleBankOf ↑i) (96 + e.snd), e.fst)) ((s.at t).cleX ↑i).zipIdx ++ List.map (fun e => ((s.at t).coef (↑i) ((s.at t).cleBankOf ↑i) (104 + e.snd), e.fst)) ((s.at t).cleInputs (↑i) ((s.at t).cleBankOf ↑i)).zipIdx)) ≠ Fv.nan)) ∧
    (∃ (t : Nat) (wait : Nat) (i : Fin 64) (s : State), (s.at t).cleDue ↑i = true ∧ sparseFind s.cle.swap ↑i = none ∧ fieldOf (s.cleRec (↑i) 2) 16 16 < wait + cleCycles (s.cleN ↑i) (s.cleM ↑i)) ∧
    (∃ (i : Fin 64) (s : State) (c : Fin 4), 16 ≤ (sparseFind s.cle.missRun ↑i).getD 0 ∧ i.val = c.val ∧ s.vmst c ≠ stFault) ∧
    (∃ (i : Fin 64) (s : State), 16 ≤ (sparseFind s.cle.missRun ↑i).getD 0 ∧ ↑i = 4) ∧
    (∃ (i : Fin 64) (s : State), 16 ≤ (sparseFind s.cle.missRun ↑i).getD 0 ∧ (↑i = 5 ∨ ↑i = 6)) ∧
    (∃ (i : Fin 64) (s : State), 16 ≤ (sparseFind s.cle.missRun ↑i).getD 0 ∧ 7 ≤ ↑i) ∧
    (∃ (w : Writer) (v : Word) (s : State), admits s w Reg.CLE_SWAP 32 (BitVec.toNat v) = true ∧ s.cleOn (BitVec.toNat v % 64) = true) ∧
    (∃ (w : Writer) (v : Word) (s : State), admits s w Reg.CLE_SWAP 32 (BitVec.toNat v) = true ∧ s.cleOn (BitVec.toNat v % 64) = false) ∧
    (∃ (t : Nat) (i : Fin 64) (bank : Bool) (s : State), (s.at t).cleDue ↑i = true ∧ sparseFind s.cle.swap ↑i = some bank) ∧
    (∃ (w : Writer) (v : Word) (s : State), admits s w Reg.CLE_WDATA 32 (BitVec.toNat v) = true ∧ s.coefOpen (s.fld Reg.CLE_WADDR 0 6) (s.bit Reg.CLE_WADDR 6) = true) ∧
    (∃ (w : Writer) (v : Word) (s : State), admits s w Reg.CLE_WDATA 32 (BitVec.toNat v) = true ∧ s.coefOpen (s.fld Reg.CLE_WADDR 0 6) (s.bit Reg.CLE_WADDR 6) = false) ∧
    (∃ (w : Writer) (i : Fin 64) (k : Fin 4) (v : Word) (s : State), admits s w (Reg.CLE_REC0 ↑i + 4 * ↑k) 32 (BitVec.toNat v) = true ∧ cleRecOk (↑i) (↑k) s (BitVec.toNat v) = true) ∧
    (∃ (t : Nat) (i : Fin 64) (bank : Bool) (s : State) (m : State), ((s.at t).cleDue ↑i = true ∧ sparseFind s.cle.swap ↑i = some bank) ∧ exec (Instr.cleBankSwap t i) s = Host.Outcome.next m) := by
  refine ⟨?_, ?_, ?_, ?_, ?_, ?_, ?_, ?_, ?_, ?_, ?_, ?_, ?_⟩
  · refine ⟨4000, 3, 9, { (rs power [(Reg.CLE_REC0 9, 1048585), (Reg.CLE_REC0 9 + 4, 0), (Reg.CLE_REC0 9 + 8, 0x7F0000)] : State) with cle := { power.cle with bank := [(cleKey 9 false 96, 0x3f800000), (cleKey 9 false 97, 0x40000000), (cleKey 9 false 0, 0x3f800000), (cleKey 9 false 104, 0x3f000000), (cleKey 9 false 108, 0xC2C80000), (cleKey 9 false 109, 0x42C80000)], x := [(9, [0x3f800000, 0x40400000])] } }, ?_⟩; decide +kernel
  · refine ⟨4000, 300, 9, { (rs power [(Reg.CLE_REC0 9, 1048585), (Reg.CLE_REC0 9 + 4, 0), (Reg.CLE_REC0 9 + 8, 0x7F0000)] : State) with cle := { power.cle with bank := [(cleKey 9 false 96, 0x3f800000), (cleKey 9 false 97, 0x40000000), (cleKey 9 false 0, 0x3f800000), (cleKey 9 false 104, 0x3f000000), (cleKey 9 false 108, 0xC2C80000), (cleKey 9 false 109, 0x42C80000)], x := [(9, [0x3f800000, 0x40400000])] } }, ?_⟩; decide +kernel
  · refine ⟨2, { power with cle := { power.cle with missRun := [(2, 16)] } }, 2, ?_⟩; decide +kernel
  · refine ⟨4, { power with cle := { power.cle with missRun := [(4, 16)] } }, ?_⟩; decide +kernel
  · refine ⟨5, { power with cle := { power.cle with missRun := [(5, 16)] } }, ?_⟩; decide +kernel
  · refine ⟨9, { power with cle := { power.cle with missRun := [(9, 16)] } }, ?_⟩; decide +kernel
  · refine ⟨nug, 265, { (rs power [(Reg.CLE_REC0 9, 1048585), (Reg.CLE_REC0 9 + 4, 0), (Reg.CLE_REC0 9 + 8, 0x7F0000)] : State) with cle := { power.cle with x := [] } }, ?_⟩; decide +kernel
  · refine ⟨nug, 266, power, ?_⟩; decide +kernel
  · refine ⟨4000, 9, true, { (rs power [(Reg.CLE_REC0 9, 1048585), (Reg.CLE_REC0 9 + 4, 0), (Reg.CLE_REC0 9 + 8, 0x7F0000)] : State) with cle := { power.cle with swap := [(9, true)], x := [(9, [5, 6])] } }, ?_⟩; decide +kernel
  · refine ⟨nug, 77, rs power [(Reg.CLE_WADDR, 0x3FC9)], ?_⟩; decide +kernel
  · refine ⟨nug, 77, rs power [(Reg.CLE_WADDR, 0x89)], ?_⟩; decide +kernel
  · refine ⟨nug, 9, 0, 1048585, power, ?_⟩; decide +kernel
  · refine ⟨4000, 9, true, { (rs power [(Reg.CLE_REC0 9, 1048585), (Reg.CLE_REC0 9 + 4, 0), (Reg.CLE_REC0 9 + 8, 0x7F0000)] : State) with cle := { power.cle with swap := [(9, true)], x := [(9, [5, 6])] } }, (after (.cleBankSwap 4000 9) { (rs power [(Reg.CLE_REC0 9, 1048585), (Reg.CLE_REC0 9 + 4, 0), (Reg.CLE_REC0 9 + 8, 0x7F0000)] : State) with cle := { power.cle with swap := [(9, true)], x := [(9, [5, 6])] } }), ?_, ?_⟩
    · decide +kernel
    · rfl

theorem witness_ProtectionTripsLatchAndClear :
    (∃ (h : Nat) (x : F32) (s : State), s.pulseUp = true ∧ s.above (BitVec.toNat x) Reg.PRT_OV_WARN = true ∧ 100000 ≤ h ∧ s.bit Reg.PRT_STS 0 = false) ∧
    (∃ (h : Nat) (x : F32) (s : State), s.pulseUp = true ∧ s.above (BitVec.toNat x) Reg.PRT_OV_TRIP = true ∧ 2000 ≤ h ∧ s.bit Reg.PRT_STS 8 = false) ∧
    (∃ (h : Nat) (x : F32) (s : State), s.pulseUp = true ∧ s.below (BitVec.toNat x) Reg.PRT_UV_WARN = true ∧ 50000 ≤ h ∧ s.bit Reg.PRT_STS 1 = false) ∧
    (∃ (t : Nat) (h : Nat) (x : F32) (s : State), (s.at t).uvTrips (BitVec.toNat x) h = true) ∧
    (∃ (h : Nat) (x : Str) (i : F32) (s : State), s.pulseUp = true ∧ s.above (abs32 (BitVec.toNat i)) Reg.PRT_OC_WARN = true ∧ 1000000 ≤ h ∧ s.bit Reg.PRT_STS (2 + ↑(strNum x)) = false) ∧
    (∃ (h : Nat) (x : Str) (i : F32) (s : State), s.pulseUp = true ∧ s.above (abs32 (BitVec.toNat i)) Reg.PRT_OC_TRIP = true ∧ 10000 ≤ h ∧ s.bit Reg.PRT_STS (10 + ↑(strNum x)) = false) ∧
    (∃ (t : Nat) (a : Nat) (x : Str) (i : F32) (s : State), sel s.prt.opening ↑(strNum x) = some a ∧ ((f32 (BitVec.toNat i)).abs.lt (Fv.ofNat 5) = true ∨ a + 2000000 ≤ max s.now t)) ∧
    (∃ (t : Nat) (h : Nat) (x : Str) (pre : Bool) (s : State), (s.at t).drives = true ∧ s.fbDiffers (strNum x) pre = true ∧ 1000000 ≤ h ∧ (if pre = true then s.ctc[strNum x].preAt else s.ctc[strNum x].mainAt) + s.reg Reg.PRT_CTC_WIN * 1000000 ≤ max s.now t ∧ s.bit Reg.PRT_STS (12 + ↑(strNum x)) = false) ∧
    (∃ (h : Nat) (x : F32) (s : State), (f32 (BitVec.toNat x)).abs.lt ((f32 (s.reg Reg.PRT_OC_WARN)).sub (Fv.ofNat 20)) = true ∧ 10000000 ≤ h) ∧
    (∃ (h : Nat) (x : F32) (s : State), (f32 (BitVec.toNat x)).lt ((f32 (s.reg Reg.PRT_OV_WARN)).sub (Fv.pow2 (-1))) = true ∧ 1000000 ≤ h) ∧
    (∃ (h : Nat) (x : F32) (s : State), ((f32 (s.reg Reg.PRT_UV_WARN)).add (Fv.ofNat 1)).lt (f32 (BitVec.toNat x)) = true ∧ 1000000 ≤ h) ∧
    (∃ (w : Writer) (v : Word) (s : State), admits s w Reg.PRT_CLR 32 (BitVec.toNat v) = true ∧ (s.clearing (BitVec.toNat v)).any s.tripHolds = false) ∧
    (∃ (w : Writer) (v : Word) (s : State), admits s w Reg.PRT_CLR 32 (BitVec.toNat v) = true ∧ (s.clearing (BitVec.toNat v)).any s.tripHolds = true) ∧
    (∃ (w : Writer) (v : Word) (s : State) (k : Nat) (b : Fin 48), admits s w Reg.PRT_CLR 32 (BitVec.toNat v) = true ∧ k ∈ [8, 9] ∧ s.clearing (BitVec.toNat v) = [k] ∧ s.tripHolds k = false ∧ s.bst b = stFault ∧ ((sparseFind s.prt.stopped k).getD []).contains ↑b = true ∧ (((sparseErase s.prt.stopped k).any fun e => e.snd.contains ↑b) = false)) ∧
    (∃ (s : State), s.prt.pll = true ∧ s.pw.pulse ≠ PulsePhase.off) ∧
    (∃ (h : Nat) (s : State), s.prt.pll = false ∧ 1000000 ≤ h) ∧
    (∃ (t : Nat) (s : State), ((s.at t).ownLine = false ∨ s.clp.contest = true)) := by
  refine ⟨?_, ?_, ?_, ?_, ?_, ?_, ?_, ?_, ?_, ?_, ?_, ?_, ?_, ?_, ?_, ?_, ?_⟩
  · refine ⟨100000, 0x44800000, rs power [(Reg.PRT_OV_WARN, 0x44480000), (Reg.PRT_OV_TRIP, 0x44500000), (Reg.PRT_UV_WARN, 0x44340000), (Reg.PRT_UV_TRIP, 0x44200000), (Reg.PRT_OC_WARN, 0x43000000), (Reg.PRT_OC_TRIP, 0x43400000)], ?_⟩; decide +kernel
  · refine ⟨2000, 0x44800000, rs power [(Reg.PRT_OV_WARN, 0x44480000), (Reg.PRT_OV_TRIP, 0x44500000), (Reg.PRT_UV_WARN, 0x44340000), (Reg.PRT_UV_TRIP, 0x44200000), (Reg.PRT_OC_WARN, 0x43000000), (Reg.PRT_OC_TRIP, 0x43400000)], ?_⟩; decide +kernel
  · refine ⟨50000, 0x43800000, rs power [(Reg.PRT_OV_WARN, 0x44480000), (Reg.PRT_OV_TRIP, 0x44500000), (Reg.PRT_UV_WARN, 0x44340000), (Reg.PRT_UV_TRIP, 0x44200000), (Reg.PRT_OC_WARN, 0x43000000), (Reg.PRT_OC_TRIP, 0x43400000)], ?_⟩; decide +kernel
  · refine ⟨8000, 2000, 0x43800000, rs power [(Reg.PRT_OV_WARN, 0x44480000), (Reg.PRT_OV_TRIP, 0x44500000), (Reg.PRT_UV_WARN, 0x44340000), (Reg.PRT_UV_TRIP, 0x44200000), (Reg.PRT_OC_WARN, 0x43000000), (Reg.PRT_OC_TRIP, 0x43400000)], ?_⟩; decide +kernel
  · refine ⟨1000000, .A, 0xC4000000, rs power [(Reg.PRT_OV_WARN, 0x44480000), (Reg.PRT_OV_TRIP, 0x44500000), (Reg.PRT_UV_WARN, 0x44340000), (Reg.PRT_UV_TRIP, 0x44200000), (Reg.PRT_OC_WARN, 0x43000000), (Reg.PRT_OC_TRIP, 0x43400000)], ?_⟩; decide +kernel
  · refine ⟨10000, .A, 0xC4000000, rs power [(Reg.PRT_OV_WARN, 0x44480000), (Reg.PRT_OV_TRIP, 0x44500000), (Reg.PRT_UV_WARN, 0x44340000), (Reg.PRT_UV_TRIP, 0x44200000), (Reg.PRT_OC_WARN, 0x43000000), (Reg.PRT_OC_TRIP, 0x43400000), (Reg.CTC_STS 0, 1), (Reg.CTC_STS 1, 1)], ?_⟩; decide +kernel
  · refine ⟨8000, 5, .A, 0x40000000, { (rs power [(Reg.PRT_OV_WARN, 0x44480000), (Reg.PRT_OV_TRIP, 0x44500000), (Reg.PRT_UV_WARN, 0x44340000), (Reg.PRT_UV_TRIP, 0x44200000), (Reg.PRT_OC_WARN, 0x43000000), (Reg.PRT_OC_TRIP, 0x43400000)] : State) with prt := { power.prt with opening := (some 5, some 5) } }, ?_⟩; decide +kernel
  · refine ⟨800000000, 1000000, .A, true, rs power [(Reg.PRT_OV_WARN, 0x44480000), (Reg.PRT_OV_TRIP, 0x44500000), (Reg.PRT_UV_WARN, 0x44340000), (Reg.PRT_UV_TRIP, 0x44200000), (Reg.PRT_OC_WARN, 0x43000000), (Reg.PRT_OC_TRIP, 0x43400000), (Reg.CTC_STS 0, 0x82), (Reg.CTC_STS 1, 0x82)], ?_⟩; decide +kernel
  · refine ⟨10000000, 0x40000000, rs power [(Reg.PRT_OV_WARN, 0x44480000), (Reg.PRT_OV_TRIP, 0x44500000), (Reg.PRT_UV_WARN, 0x44340000), (Reg.PRT_UV_TRIP, 0x44200000), (Reg.PRT_OC_WARN, 0x43000000), (Reg.PRT_OC_TRIP, 0x43400000), (Reg.PRT_STS, 15)], ?_⟩; decide +kernel
  · refine ⟨1000000, 0x40000000, rs power [(Reg.PRT_OV_WARN, 0x44480000), (Reg.PRT_OV_TRIP, 0x44500000), (Reg.PRT_UV_WARN, 0x44340000), (Reg.PRT_UV_TRIP, 0x44200000), (Reg.PRT_OC_WARN, 0x43000000), (Reg.PRT_OC_TRIP, 0x43400000), (Reg.PRT_STS, 15)], ?_⟩; decide +kernel
  · refine ⟨1000000, 0x44800000, rs power [(Reg.PRT_OV_WARN, 0x44480000), (Reg.PRT_OV_TRIP, 0x44500000), (Reg.PRT_UV_WARN, 0x44340000), (Reg.PRT_UV_TRIP, 0x44200000), (Reg.PRT_OC_WARN, 0x43000000), (Reg.PRT_OC_TRIP, 0x43400000), (Reg.PRT_STS, 15)], ?_⟩; decide +kernel
  · refine ⟨nug, 256, rs power [(Reg.PRT_OV_WARN, 0x44480000), (Reg.PRT_OV_TRIP, 0x44500000), (Reg.PRT_UV_WARN, 0x44340000), (Reg.PRT_UV_TRIP, 0x44200000), (Reg.PRT_OC_WARN, 0x43000000), (Reg.PRT_OC_TRIP, 0x43400000), (Reg.PRT_STS, 0x3F00), (Reg.HVS_VBUS, 0x44460000)], ?_⟩; decide +kernel
  · refine ⟨nug, 16128, rs power [(Reg.PRT_OV_WARN, 0x44480000), (Reg.PRT_OV_TRIP, 0x44500000), (Reg.PRT_UV_WARN, 0x44340000), (Reg.PRT_UV_TRIP, 0x44200000), (Reg.PRT_OC_WARN, 0x43000000), (Reg.PRT_OC_TRIP, 0x43400000), (Reg.PRT_STS, 0x3F00), (Reg.HVS_VBUS, 0x44800000)], ?_⟩; decide +kernel
  · refine ⟨nug, 256, { (rs power [(Reg.PRT_OV_WARN, 0x44480000), (Reg.PRT_OV_TRIP, 0x44500000), (Reg.PRT_UV_WARN, 0x44340000), (Reg.PRT_UV_TRIP, 0x44200000), (Reg.PRT_OC_WARN, 0x43000000), (Reg.PRT_OC_TRIP, 0x43400000), (Reg.PRT_STS, 0x100), (Reg.HVS_VBUS, 0x44460000), (Reg.PCM_STS 1, 0x405)] : State) with prt := { power.prt with stopped := [(8, [1, 2])] } }, 8, 1, ?_⟩; decide +kernel
  · refine ⟨rs power [(Reg.PRT_OV_WARN, 0x44480000), (Reg.PRT_OV_TRIP, 0x44500000), (Reg.PRT_UV_WARN, 0x44340000), (Reg.PRT_UV_TRIP, 0x44200000), (Reg.PRT_OC_WARN, 0x43000000), (Reg.PRT_OC_TRIP, 0x43400000)], ?_⟩; decide +kernel
  · refine ⟨1000000, { (rs power [(Reg.PRT_OV_WARN, 0x44480000), (Reg.PRT_OV_TRIP, 0x44500000), (Reg.PRT_UV_WARN, 0x44340000), (Reg.PRT_UV_TRIP, 0x44200000), (Reg.PRT_OC_WARN, 0x43000000), (Reg.PRT_OC_TRIP, 0x43400000), (Reg.VMC_STS 1, 0x405), (Reg.VMC_STS 2, 0x205), (Reg.PCM_STS 3, 0x305), (Reg.PCM_STS 1, 0x605)] : State) with prt := { power.prt with pll := false } }, ?_⟩; decide +kernel
  · refine ⟨8000, { power with clp := { power.clp with contest := true } }, ?_⟩; decide +kernel

theorem witness_BeadLoopsCarryCommandsAndReplies :
    (∃ (t : Nat) (s : State), (s.at t).beadTx = true) ∧
    (∃ (t : Nat) (s : State), (s.at t).beadTx = true ∧ s.ship = false) ∧
    (∃ (t : Nat) (s : State) (v : BitVec 16), (s.at t).beadTx = true ∧ v.toNat % 32 ≤ 16 ∧ bitOf v.toNat 5 = true) ∧
    (∃ (t : Nat) (s : State) (v : BitVec 16), (s.at t).beadTx = true ∧ v.toNat % 32 ≤ 16 ∧ bitOf v.toNat 5 = false) ∧
    (∃ (t : Nat) (x : Str) (s : State), (s.at t).beadTx = true ∧ s.forceOk ↑(strNum x) = true) ∧
    (∃ (t : Nat) (x : Str) (s : State), (s.at t).beadTx = true ∧ s.forceOk ↑(strNum x) = false) ∧
    (∃ (f : BitVec 176) (s : State), s.pulseUp = true ∧ s.ship = false ∧ replyCrcOk f = true ∧ rpl f 0 4 < 15) ∧
    (∃ (f : BitVec 176) (s : State), s.pulseUp = true ∧ s.ship = false ∧ replyCrcOk f = false) ∧
    (∃ (x : Str) (s : State), 10 ≤ s.loop[strNum x].sumBad ∧ s.bit Reg.HVS_STS (1 + ↑(strNum x)) = false) ∧
    (∃ (x : Str) (h : Fin 16) (s : State), s.pulseUp = true ∧ s.loop[strNum x].hopFailed.contains ↑h = false) ∧
    (∃ (t : Nat) (x : Str) (h : Fin 16) (s : State), (s.at t).beadTx = true ∧ s.loop[strNum x].hopFailed.contains ↑h = true) ∧
    (∃ (t : Nat) (s : State), max s.now t % 1000000 = 0) ∧
    (∃ (t : Nat) (b : Nat) (x : Str) (s : State), s.loop[strNum x].lowSince = some b ∧ b + 1000000000 ≤ max s.now t) ∧
    (∃ (w : Writer) (i : Fin 15) (v : Word) (s : State), admits s w (Reg.BDS_BAL_REQ ↑i) 32 (BitVec.toNat v) = true) ∧
    (∃ (t : Nat) (s : State), s.loop[0].balWritten + 10000000000 ≤ max s.now t) ∧
    (∃ (t : Nat) (w : Writer) (v : Word) (s : State), admits s w Reg.BDS_BAL_FORCE 32 (BitVec.toNat v) = true ∧ (s.at t).beadTx = true ∧ balForceOk s (BitVec.toNat v) = true) ∧
    (∃ (t : Nat) (w : Writer) (v : Word) (s : State), admits s w Reg.BDS_BAL_FORCE 32 (BitVec.toNat v) = true ∧ (s.at t).beadTx = true ∧ balForceOk s (BitVec.toNat v) = false) := by
  refine ⟨?_, ?_, ?_, ?_, ?_, ?_, ?_, ?_, ?_, ?_, ?_, ?_, ?_, ?_, ?_, ?_, ?_⟩
  · refine ⟨8000, power, ?_⟩; decide +kernel
  · refine ⟨8000, { (power : State) with loop := (power).loop.set 0 { (power).loop[0] with cycle := 17 } }, ?_⟩; decide +kernel
  · refine ⟨8000, power, 32, ?_⟩; decide +kernel
  · refine ⟨8000, rs (power) [(Reg.BDS_CELL_FLAGS 0 + 32, 0x02020202)], 0, ?_⟩; decide +kernel
  · refine ⟨8000, .A, { rs (power) [(Reg.CTC_STS 0, 0), (Reg.CTC_STS 1, 0)] with lc := .fab }, ?_⟩; decide +kernel
  · refine ⟨8000, .A, power, ?_⟩; decide +kernel
  · refine ⟨reply 42631591215171870619100690114577176698679394307, rs (power) [(Reg.BDS_LIM_OV_WARN, 0x40600000), (Reg.BDS_LIM_OV_TRIP, 0x40700000), (Reg.BDS_LIM_UV_WARN, 0x40000000)], ?_⟩; decide +kernel
  · refine ⟨5, power, ?_⟩; decide +kernel
  · refine ⟨.A, { (power : State) with loop := (power).loop.set 0 { (power).loop[0] with sumBad := 10 } }, ?_⟩; decide +kernel
  · refine ⟨.A, 5, power, ?_⟩; decide +kernel
  · refine ⟨8000, .A, 5, { (power : State) with loop := (power).loop.set 0 { (power).loop[0] with hopFailed := [3, 5], hopGood := [(5, 7)] } }, ?_⟩; decide +kernel
  · refine ⟨2000000, { (power : State) with loop := (power).loop.set 0 { (power).loop[0] with hopFailed := [5], hopGood := [(5, 100)] } }, ?_⟩; decide +kernel
  · refine ⟨2000000000, 4, .A, { (rs (power) [(Reg.BDS_STS, 0x30)] : State) with loop := (rs (power) [(Reg.BDS_STS, 0x30)]).loop.set 0 { (rs (power) [(Reg.BDS_STS, 0x30)]).loop[0] with lowSince := some 4 } }, ?_⟩; decide +kernel
  · refine ⟨nug, 3, 4660, power, ?_⟩; decide +kernel
  · refine ⟨10000000000, { ({ (power : State) with loop := (power).loop.set 0 { (power).loop[0] with bead := (power).loop[0].bead.set 3 { (power).loop[0].bead[3] with bal := 5 } } } : State) with loop := ({ (power : State) with loop := (power).loop.set 0 { (power).loop[0] with bead := (power).loop[0].bead.set 3 { (power).loop[0].bead[3] with bal := 5 } } }).loop.set 1 { ({ (power : State) with loop := (power).loop.set 0 { (power).loop[0] with bead := (power).loop[0].bead.set 3 { (power).loop[0].bead[3] with bal := 5 } } }).loop[1] with bead := ({ (power : State) with loop := (power).loop.set 0 { (power).loop[0] with bead := (power).loop[0].bead.set 3 { (power).loop[0].bead[3] with bal := 5 } } }).loop[1].bead.set 3 { ({ (power : State) with loop := (power).loop.set 0 { (power).loop[0] with bead := (power).loop[0].bead.set 3 { (power).loop[0].bead[3] with bal := 5 } } }).loop[1].bead[3] with bal := 5 } } }, ?_⟩; decide +kernel
  · refine ⟨8000, nug, 1114116, { rs (power) [(Reg.CTC_STS 0, 0), (Reg.CTC_STS 1, 0)] with lc := .provision }, ?_⟩; decide +kernel
  · refine ⟨8000, nug, 1114114, powerFab, ?_⟩; decide +kernel

theorem witness_CellRulesActOnConsecutiveReadings :
    (∃ (x : Str) (c : Fin 240) (s : State), s.ship = false ∧ 2 ≤ s.runLen (strNum x) 0 ↑c) ∧
    (∃ (x : Str) (c : Fin 240) (s : State), s.ship = false ∧ 2 ≤ s.runLen (strNum x) 2 ↑c) ∧
    (∃ (x : Str) (c : Fin 240) (s : State), s.ship = false ∧ 2 ≤ s.runLen (strNum x) 1 ↑c ∧ s.cellLatched (strNum x) 0 = false) ∧
    (∃ (x : Str) (c : Fin 240) (s : State), s.ship = false ∧ 2 ≤ s.runLen (strNum x) 3 ↑c ∧ s.cellLatched (strNum x) 1 = false) ∧
    (∃ (x : Str) (c : Fin 240) (s : State), s.ship = false ∧ 2 ≤ s.runLen (strNum x) 4 ↑c ∧ s.cellLatched (strNum x) 2 = false) ∧
    (∃ (x : Str) (q : Fin 120) (s : State), s.ship = false ∧ 2 ≤ s.runLen (strNum x) 5 ↑q) ∧
    (∃ (x : Str) (q : Fin 120) (s : State), s.ship = false ∧ 2 ≤ s.runLen (strNum x) 6 ↑q ∧ s.cellLatched (strNum x) 3 = false) ∧
    (∃ (x : Str) (q : Fin 120) (s : State), s.ship = false ∧ 1 ≤ s.runLen (strNum x) 7 ↑q) ∧
    (∃ (x : Str) (q : Fin 120) (s : State), s.ship = false ∧ 10 ≤ s.runLen (strNum x) 8 ↑q) ∧
    (∃ (t : Nat) (x : Str) (j : Fin 15) (s : State), s.ship = false ∧ s.cellLatched (strNum x) 4 = false ∧ (s.bead (strNum x) j).awake = true ∧ (s.bead (strNum x) j).lastReply + 50000000 ≤ max s.now t) ∧
    (∃ (x : Str) (j : Fin 15) (s : State), s.ship = false ∧ s.cellLatched (strNum x) 4 = false ∧ 3 ≤ (s.bead (strNum x) j).mismatchRun) ∧
    (∃ (h : Nat) (x : Str) (i : Fin 240) (s : State), uvBelow (s.cellHalfUv (strNum x) ↑i) (rn32 ((f32 (s.reg Reg.BDS_LIM_OV_WARN)).sub ((Fv.ofNat 3).div (Fv.ofNat 100)))) = true ∧ 100000000 ≤ h) ∧
    (∃ (h : Nat) (x : Str) (i : Fin 240) (s : State), uvAbove (s.cellHalfUv (strNum x) ↑i) (rn32 ((f32 (s.reg Reg.BDS_LIM_UV_WARN)).add ((Fv.ofNat 3).div (Fv.ofNat 100)))) = true ∧ 100000000 ≤ h) ∧
    (∃ (h : Nat) (x : Str) (i : Fin 240) (s : State), tBelow (s.tempAt (strNum x) ↑i) (s.reg Reg.BDS_LIM_T_WARN) (-3) = true ∧ 10000000000 ≤ h) ∧
    (∃ (x : Str) (i : Fin 240) (s : State), tAbove (s.tempAt (strNum x) ↑i) (s.reg Reg.BDS_LIM_T_COLD) 2 = true) ∧
    (∃ (x : Str) (i : Fin 240) (s : State), 10 ≤ s.runLen (strNum x) 9 ↑i) ∧
    (∃ (w : Writer) (s : State), admits s w Reg.BDS_CTL 32 (4 + s.fld Reg.BDS_CTL 0 1) = true) := by
  refine ⟨?_, ?_, ?_, ?_, ?_, ?_, ?_, ?_, ?_, ?_, ?_, ?_, ?_, ?_, ?_, ?_, ?_⟩
  · refine ⟨.A, 37, ((power).countRun 0 0 37 true).countRun 0 0 37 true, ?_⟩; decide +kernel
  · refine ⟨.A, 37, ((power).countRun 0 2 37 true).countRun 0 2 37 true, ?_⟩; decide +kernel
  · refine ⟨.A, 37, ((power).countRun 0 1 37 true).countRun 0 1 37 true, ?_⟩; decide +kernel
  · refine ⟨.A, 37, ((power).countRun 0 3 37 true).countRun 0 3 37 true, ?_⟩; decide +kernel
  · refine ⟨.A, 37, ((power).countRun 0 4 37 true).countRun 0 4 37 true, ?_⟩; decide +kernel
  · refine ⟨.A, 37, ((power).countRun 0 5 37 true).countRun 0 5 37 true, ?_⟩; decide +kernel
  · refine ⟨.A, 37, ((power).countRun 0 6 37 true).countRun 0 6 37 true, ?_⟩; decide +kernel
  · refine ⟨.A, 37, (power).countRun 0 7 37 true, ?_⟩; decide +kernel
  · refine ⟨.A, 37, ((((((((((power).countRun 0 8 37 true).countRun 0 8 37 true).countRun 0 8 37 true).countRun 0 8 37 true).countRun 0 8 37 true).countRun 0 8 37 true).countRun 0 8 37 true).countRun 0 8 37 true).countRun 0 8 37 true).countRun 0 8 37 true, ?_⟩; decide +kernel
  · refine ⟨50000000, .A, 3, { (power : State) with loop := (power).loop.set 0 { (power).loop[0] with bead := (power).loop[0].bead.set 3 { (power).loop[0].bead[3] with awake := true } } }, ?_⟩; decide +kernel
  · refine ⟨.A, 3, { (power : State) with loop := (power).loop.set 0 { (power).loop[0] with bead := (power).loop[0].bead.set 3 { (power).loop[0].bead[3] with mismatchRun := 3 } } }, ?_⟩; decide +kernel
  · refine ⟨100000000, .A, 5, (rs (power) [(Reg.BDS_LIM_OV_WARN, 0x40600000), (Reg.BDS_LIM_UV_WARN, 0x40000000), (Reg.BDS_LIM_T_WARN, 0x42480000), (Reg.BDS_LIM_T_COLD, 0xC1200000)]).setCellFlag 0 5 4 true, ?_⟩; decide +kernel
  · refine ⟨100000000, .A, 5, ((rs (power) [(Reg.BDS_LIM_OV_WARN, 0x40600000), (Reg.BDS_LIM_UV_WARN, 0x40000000), (Reg.BDS_LIM_T_WARN, 0x42480000), (Reg.BDS_LIM_T_COLD, 0xC1200000)]).setCellFlag 0 5 5 true).setHalf (Reg.BDS_CELL_V 0) 5 60000, ?_⟩; decide +kernel
  · refine ⟨10000000000, .A, 5, { (rs (power) [(Reg.BDS_LIM_OV_WARN, 0x40600000), (Reg.BDS_LIM_UV_WARN, 0x40000000), (Reg.BDS_LIM_T_WARN, 0x42480000), (Reg.BDS_LIM_T_COLD, 0xC1200000)] : State) with loop := (rs (power) [(Reg.BDS_LIM_OV_WARN, 0x40600000), (Reg.BDS_LIM_UV_WARN, 0x40000000), (Reg.BDS_LIM_T_WARN, 0x42480000), (Reg.BDS_LIM_T_COLD, 0xC1200000)]).loop.set 0 { (rs (power) [(Reg.BDS_LIM_OV_WARN, 0x40600000), (Reg.BDS_LIM_UV_WARN, 0x40000000), (Reg.BDS_LIM_T_WARN, 0x42480000), (Reg.BDS_LIM_T_COLD, 0xC1200000)]).loop[0] with warnTemps := [3, 5] } }, ?_⟩; decide +kernel
  · refine ⟨.A, 5, { (rs (power) [(Reg.BDS_LIM_OV_WARN, 0x40600000), (Reg.BDS_LIM_UV_WARN, 0x40000000), (Reg.BDS_LIM_T_WARN, 0x42480000), (Reg.BDS_LIM_T_COLD, 0xC1200000)] : State) with loop := (rs (power) [(Reg.BDS_LIM_OV_WARN, 0x40600000), (Reg.BDS_LIM_UV_WARN, 0x40000000), (Reg.BDS_LIM_T_WARN, 0x42480000), (Reg.BDS_LIM_T_COLD, 0xC1200000)]).loop.set 0 { (rs (power) [(Reg.BDS_LIM_OV_WARN, 0x40600000), (Reg.BDS_LIM_UV_WARN, 0x40000000), (Reg.BDS_LIM_T_WARN, 0x42480000), (Reg.BDS_LIM_T_COLD, 0xC1200000)]).loop[0] with coldInputs := [3, 5] } }, ?_⟩; decide +kernel
  · refine ⟨.A, 5, { (((((((((((power).countRun 0 9 5 true).countRun 0 9 5 true).countRun 0 9 5 true).countRun 0 9 5 true).countRun 0 9 5 true).countRun 0 9 5 true).countRun 0 9 5 true).countRun 0 9 5 true).countRun 0 9 5 true).countRun 0 9 5 true : State) with loop := (((((((((((power).countRun 0 9 5 true).countRun 0 9 5 true).countRun 0 9 5 true).countRun 0 9 5 true).countRun 0 9 5 true).countRun 0 9 5 true).countRun 0 9 5 true).countRun 0 9 5 true).countRun 0 9 5 true).countRun 0 9 5 true).loop.set 0 { (((((((((((power).countRun 0 9 5 true).countRun 0 9 5 true).countRun 0 9 5 true).countRun 0 9 5 true).countRun 0 9 5 true).countRun 0 9 5 true).countRun 0 9 5 true).countRun 0 9 5 true).countRun 0 9 5 true).countRun 0 9 5 true).loop[0] with tempFault := [3, 5] } }, ?_⟩; decide +kernel
  · refine ⟨nug, rs (power) [(Reg.BDS_TRIP_STS, 0x3F3F), (Reg.BDS_CTL, 1)], ?_⟩; decide +kernel

theorem witness_SenseWiresAreTestedAndJudged :
    (∃ (x : Str) (j : Fin 15) (d : List Int) (s : State), s.pulseUp = true ∧ s.ship = false ∧ s.loop[strNum x].owt = none ∧ (∀ (p : Fin 16) (k : Fin 3), s.cellFlag (strNum x) (16 * ↑j + ↑p) ↑k = false) ∧ (s.bead (strNum x) j).plausRun = 0 ∧ (∀ (p : Fin 16), (fun p => (Fv.ofInt (d.getD p 0)).le ((f32 (s.reg Reg.BDS_SW_DEV)).mul (Fv.ofNat 1000000)).neg) ↑p = false ∧ (fun p => ((f32 (s.reg Reg.BDS_SW_DEV)).mul (Fv.ofNat 1000000)).le (Fv.ofInt (d.getD p 0))) ↑p = false)) ∧
    (∃ (x : Str) (j : Fin 15) (d : List Int) (s : State) (k : Fin 16), s.pulseUp = true ∧ s.ship = false ∧ s.loop[strNum x].owt = none ∧ (∀ (p : Fin 16) (k : Fin 3), s.cellFlag (strNum x) (16 * ↑j + ↑p) ↑k = false) ∧ (s.bead (strNum x) j).plausRun = 0 ∧ 1 ≤ ↑k ∧ ((fun p => (Fv.ofInt (d.getD p 0)).le ((f32 (s.reg Reg.BDS_SW_DEV)).mul (Fv.ofNat 1000000)).neg) (↑k - 1) = true) ∧ ((fun p => ((f32 (s.reg Reg.BDS_SW_DEV)).mul (Fv.ofNat 1000000)).le (Fv.ofInt (d.getD p 0))) ↑k = true) ∧ (d.getD (↑k - 1) 0 + d.getD (↑k) 0).natAbs ≤ 10000 ∧ (∀ (p : Fin 16), ↑p ≠ ↑k - 1 → p ≠ k → (fun p => (Fv.ofInt (d.getD p 0)).le ((f32 (s.reg Reg.BDS_SW_DEV)).mul (Fv.ofNat 1000000)).neg) ↑p = false ∧ (fun p => ((f32 (s.reg Reg.BDS_SW_DEV)).mul (Fv.ofNat 1000000)).le (Fv.ofInt (d.getD p 0))) ↑p = false)) ∧
    (∃ (x : Str) (j : Fin 15) (d : List Int) (s : State) (p : Fin 16), s.pulseUp = true ∧ s.ship = false ∧ s.loop[strNum x].owt = none ∧ (∀ (p : Fin 16) (k : Fin 3), s.cellFlag (strNum x) (16 * ↑j + ↑p) ↑k = false) ∧ (s.bead (strNum x) j).plausRun = 0 ∧ ((fun p => (Fv.ofInt (d.getD p 0)).le ((f32 (s.reg Reg.BDS_SW_DEV)).mul (Fv.ofNat 1000000)).neg) ↑p = true) ∧ ((fun p => ((f32 (s.reg Reg.BDS_SW_DEV)).mul (Fv.ofNat 1000000)).le (Fv.ofInt (d.getD p 0))) ↑p = false) ∧ (∀ (q : Fin 16), q ≠ p → (fun p => (Fv.ofInt (d.getD p 0)).le ((f32 (s.reg Reg.BDS_SW_DEV)).mul (Fv.ofNat 1000000)).neg) ↑q = false ∧ (fun p => ((f32 (s.reg Reg.BDS_SW_DEV)).mul (Fv.ofNat 1000000)).le (Fv.ofInt (d.getD p 0))) ↑q = false) ∧ (↑p = 0 ∨ (d.getD (↑p - 1) 0).natAbs ≤ 10000) ∧ (↑p = 15 ∨ (d.getD (↑p + 1) 0).natAbs ≤ 10000)) ∧
    (∃ (c0 : Nat) (ev : Nat) (x : Str) (j : Fin 15) (k : Fin 17) (s : State), s.loop[strNum x].owt = some (↑j, ↑k, c0, ev) ∧ c0 ≠ 0 ∧ c0 + 6 ≤ s.loop[strNum x].cycle ∧ ev % 8 = 0) ∧
    (∃ (mv : Nat) (c0 : Nat) (ev : Nat) (x : Str) (j : Fin 15) (k : Fin 17) (s : State), s.loop[strNum x].owt = some (↑j, ↑k, c0, ev) ∧ c0 ≠ 0 ∧ c0 + 6 ≤ s.loop[strNum x].cycle ∧ ev % 8 ≠ 0 ∧ 300000 ≤ mv) ∧
    (∃ (mv : Nat) (c0 : Nat) (ev : Nat) (x : Str) (j : Fin 15) (k : Fin 17) (s : State), s.loop[strNum x].owt = some (↑j, ↑k, c0, ev) ∧ c0 ≠ 0 ∧ c0 + 6 ≤ s.loop[strNum x].cycle ∧ ev % 8 ≠ 0 ∧ ev % 8 < 4 ∧ mv < 300000) ∧
    (∃ (mv : Nat) (c0 : Nat) (ev : Nat) (x : Str) (j : Fin 15) (k : Fin 17) (s : State) (p : Fin 16), s.loop[strNum x].owt = some (↑j, ↑k, c0, ev) ∧ c0 ≠ 0 ∧ c0 + 6 ≤ s.loop[strNum x].cycle ∧ ev = 4 + 8 * ↑p ∧ mv < 300000) ∧
    (∃ (mv : Nat) (c0 : Nat) (ev : Nat) (x : Str) (j : Fin 15) (k : Fin 17) (s : State) (p : Fin 16), s.loop[strNum x].owt = some (↑j, ↑k, c0, ev) ∧ c0 ≠ 0 ∧ c0 + 6 ≤ s.loop[strNum x].cycle ∧ ev = 4 + 8 * ↑p + 128 ∧ mv ≤ 20000 ∧ s.cellLatched (strNum x) 5 = false) ∧
    (∃ (t : Nat) (due : Nat) (j : Nat) (k : Nat) (x : Str) (s : State), s.loop[strNum x].owt = none ∧ dueRetest s.loop[strNum x] (max s.now t) = some (j, k, due)) ∧
    (∃ (w : Writer) (s : State), admits s w Reg.BDS_CTL 32 (2 + s.fld Reg.BDS_CTL 0 1) = true ∧ s.owtGoOk = true) ∧
    (∃ (w : Writer) (s : State), admits s w Reg.BDS_CTL 32 (2 + s.fld Reg.BDS_CTL 0 1) = true ∧ s.owtGoOk = false) := by
  refine ⟨?_, ?_, ?_, ?_, ?_, ?_, ?_, ?_, ?_, ?_, ?_⟩
  · refine ⟨.A, 3, [100,-200], rs (power) [(Reg.BDS_SW_DEV, 0x3d4ccccd)], ?_⟩; decide +kernel
  · refine ⟨.A, 3, [100,-60000,60000], rs (power) [(Reg.BDS_SW_DEV, 0x3d4ccccd)], 2, ?_⟩; decide +kernel
  · refine ⟨.A, 3, [-60000,0,0,0,0,0,0,0,0,0,0,0,0,0,0,0], rs (power) [(Reg.BDS_SW_DEV, 0x3d4ccccd)], 0, ?_⟩; decide +kernel
  · refine ⟨3, 0, .A, 3, 0, ({ (rs (power) [(Reg.BDS_OWT_RES, 1)] : State) with loop := (rs (power) [(Reg.BDS_OWT_RES, 1)]).loop.set 0 { (rs (power) [(Reg.BDS_OWT_RES, 1)]).loop[0] with owt := some (3, (0, (3, 0))), cycle := 9, openWires := [(3,0)] } }).flagWire 0 3 0 2 true, ?_⟩; decide +kernel
  · refine ⟨300000, 3, 1, .A, 3, 0, { (rs (power) [(Reg.BDS_OWT_RES, 1)] : State) with loop := (rs (power) [(Reg.BDS_OWT_RES, 1)]).loop.set 0 { (rs (power) [(Reg.BDS_OWT_RES, 1)]).loop[0] with owt := some (3, (0, (3, 1))), cycle := 9 } }, ?_⟩; decide +kernel
  · refine ⟨0, 3, 2, .A, 3, 0, { (rs (power) [(Reg.BDS_OWT_RES, 1)] : State) with loop := (rs (power) [(Reg.BDS_OWT_RES, 1)]).loop.set 0 { (rs (power) [(Reg.BDS_OWT_RES, 1)]).loop[0] with owt := some (3, (0, (3, 2))), cycle := 9 } }, ?_⟩; decide +kernel
  · refine ⟨20000, 3, 4, .A, 3, 0, { (rs (power) [(Reg.BDS_OWT_RES, 1)] : State) with loop := (rs (power) [(Reg.BDS_OWT_RES, 1)]).loop.set 0 { (rs (power) [(Reg.BDS_OWT_RES, 1)]).loop[0] with owt := some (3, (0, (3, 4))), cycle := 9 } }, 0, ?_⟩; decide +kernel
  · refine ⟨20000, 3, 132, .A, 3, 0, { (rs (power) [(Reg.BDS_OWT_RES, 1)] : State) with loop := (rs (power) [(Reg.BDS_OWT_RES, 1)]).loop.set 0 { (rs (power) [(Reg.BDS_OWT_RES, 1)]).loop[0] with owt := some (3, (0, (3, 132))), cycle := 9 } }, 0, ?_⟩; decide +kernel
  · refine ⟨60000000000, 5, 3, 7, .A, { (power : State) with loop := (power).loop.set 0 { (power).loop[0] with unresolved := [(3, (7, 5))] } }, ?_⟩; decide +kernel
  · refine ⟨nug, rs (power) [(Reg.BDS_OWT, 0xE6)], ?_⟩; decide +kernel
  · refine ⟨nug, rs (power) [(Reg.BDS_OWT, 0xFE)], ?_⟩; decide +kernel

theorem witness_ContactorsCloseAndOpenInOrder :
    (∃ (t : Nat) (w : Writer) (x : Str) (v : Word) (s : State), admits s w (Reg.CTC_CTL ↑(strNum x)) 32 (BitVec.toNat v) = true ∧ bitOf (BitVec.toNat v) 1 = false ∧ bitOf (BitVec.toNat v) 0 = true ∧ s.ctcState ↑(strNum x) = stOff ∧ (s.at t).drives = true ∧ s.closeFails (strNum x) = 0 ∧ s.ctcState ↑(other (strNum x)) ≠ stStarting) ∧
    (∃ (t : Nat) (w : Writer) (x : Str) (v : Word) (s : State), admits s w (Reg.CTC_CTL ↑(strNum x)) 32 (BitVec.toNat v) = true ∧ bitOf (BitVec.toNat v) 1 = false ∧ bitOf (BitVec.toNat v) 0 = true ∧ s.ctcState ↑(strNum x) = stOff ∧ (s.at t).drives = true ∧ s.closeFails (strNum x) = 0 ∧ s.ctcState ↑(other (strNum x)) = stStarting) ∧
    (∃ (t : Nat) (w : Writer) (x : Str) (v : Word) (s : State), admits s w (Reg.CTC_CTL ↑(strNum x)) 32 (BitVec.toNat v) = true ∧ bitOf (BitVec.toNat v) 1 = false ∧ bitOf (BitVec.toNat v) 0 = true ∧ s.ctcState ↑(strNum x) = stOff ∧ (s.at t).drives = true ∧ s.closeFails (strNum x) ≠ 0) ∧
    (∃ (w : Writer) (x : Str) (v : Word) (s : State), admits s w (Reg.CTC_CTL ↑(strNum x)) 32 (BitVec.toNat v) = true ∧ bitOf (BitVec.toNat v) 1 = false ∧ bitOf (BitVec.toNat v) 0 = false ∧ s.ctcState ↑(strNum x) = stRunning ∧ s.bit (Reg.CTC_STS ↑(strNum x)) 6 = true) ∧
    (∃ (w : Writer) (x : Str) (v : Word) (s : State), admits s w (Reg.CTC_CTL ↑(strNum x)) 32 (BitVec.toNat v) = true ∧ bitOf (BitVec.toNat v) 1 = false ∧ bitOf (BitVec.toNat v) 0 = false ∧ s.ctcState ↑(strNum x) = stStarting ∧ s.bit (Reg.CTC_STS ↑(strNum x)) 6 = false) ∧
    (∃ (w : Writer) (x : Str) (v : Word) (s : State), admits s w (Reg.CTC_CTL ↑(strNum x)) 32 (BitVec.toNat v) = true ∧ bitOf (BitVec.toNat v) 1 = false ∧ s.ctcState ↑(strNum x) = stStopping) ∧
    (∃ (w : Writer) (x : Str) (v : Word) (s : State), admits s w (Reg.CTC_CTL ↑(strNum x)) 32 (BitVec.toNat v) = true ∧ bitOf (BitVec.toNat v) 1 = true ∧ bitOf (BitVec.toNat v) 0 = false ∧ s.ctcState ↑(strNum x) = stFault ∧ s.ctcGone (strNum x) = true) ∧
    (∃ (w : Writer) (x : Str) (v : Word) (s : State), admits s w (Reg.CTC_CTL ↑(strNum x)) 32 (BitVec.toNat v) = true ∧ bitOf (BitVec.toNat v) 1 = true ∧ bitOf (BitVec.toNat v) 0 = false ∧ s.ctcState ↑(strNum x) = stFault ∧ s.fbOpen (strNum x) = false) ∧
    (∃ (x : Str) (s : State), s.ctcState ↑(strNum x) = stStarting ∧ s.bit (Reg.CTC_STS ↑(strNum x)) 7 = true) ∧
    (∃ (x : Str) (s : State), s.ctcState ↑(strNum x) = stStarting ∧ s.bit (Reg.CTC_STS ↑(strNum x)) 5 = true) ∧
    (∃ (t : Nat) (x : Str) (s : State), s.ctcState ↑(strNum x) = stStarting ∧ s.vmst (preVm (strNum x)) = stRunning ∧ s.bit (Reg.CTC_STS ↑(strNum x)) 5 = false ∧ s.vm[preVm (strNum x)].runAt + 100000000 ≤ max s.now t) ∧
    (∃ (t : Nat) (x : Str) (s : State), s.ctcState ↑(strNum x) = stStarting ∧ s.bit (Reg.CTC_STS ↑(strNum x)) 5 = true ∧ s.bit (Reg.CTC_STS ↑(strNum x)) 6 = false ∧ s.ctc[strNum x].mainAt + 20000000 ≤ max s.now t) ∧
    (∃ (t : Nat) (x : Str) (s : State), s.ctcState ↑(strNum x) = stStarting ∧ s.vmst (preVm (strNum x)) ≠ stRunning ∧ s.bit (Reg.CTC_STS ↑(strNum x)) 5 = false ∧ s.bit (Reg.CTC_STS ↑(strNum x)) 7 = true ∧ s.bit (Reg.CTC_STS ↑(strNum x)) 8 = false ∧ s.ctc[strNum x].preAt + 20000000 ≤ max s.now t) ∧
    (∃ (x : Str) (s : State), s.ctc[strNum x].waiting = true ∧ s.ctcState ↑(strNum x) = stOff ∧ (s.ctcState ↑(other (strNum x)) = stRunning ∨ s.ctcState ↑(other (strNum x)) = stOff ∨ s.ctcState ↑(other (strNum x)) = stFault) ∧ s.closeFails (strNum x) = 0) ∧
    (∃ (x : Str) (s : State), s.ctc[strNum x].waiting = true ∧ s.ctcState ↑(strNum x) = stOff ∧ (s.ctcState ↑(other (strNum x)) = stRunning ∨ s.ctcState ↑(other (strNum x)) = stOff ∨ s.ctcState ↑(other (strNum x)) = stFault) ∧ s.closeFails (strNum x) ≠ 0) ∧
    (∃ (x : Str) (i : F32) (s : State), s.ctcState ↑(strNum x) = stStopping ∧ s.bit (Reg.CTC_STS ↑(strNum x)) 5 = true ∧ s.ctc[strNum x].leaving = false ∧ s.bricksStill (strNum x) = true ∧ (f32 (BitVec.toNat i)).abs.lt (Fv.ofNat 5) = true) ∧
    (∃ (t : Nat) (x : Str) (i : F32) (s : State) (a : Nat), s.ctcState ↑(strNum x) = stStopping ∧ s.bit (Reg.CTC_STS ↑(strNum x)) 5 = true ∧ s.ctc[strNum x].leaving = false ∧ s.bricksStill (strNum x) = true ∧ (f32 (BitVec.toNat i)).abs.lt (Fv.ofNat 5) = false ∧ s.ctc[strNum x].bricksOff = some a ∧ a + 10000000 ≤ max s.now t) ∧
    (∃ (x : Str) (s : State), s.ctcState ↑(strNum x) = stStopping ∧ s.bit (Reg.CTC_STS ↑(strNum x)) 5 = false ∧ s.bit (Reg.CTC_STS ↑(strNum x)) 7 = false ∧ s.bit (Reg.CTC_STS ↑(strNum x)) 8 = false ∧ s.bit (Reg.CTC_STS ↑(strNum x)) 4 = false) ∧
    (∃ (x : Str) (s : State), s.ctcState ↑(strNum x) = stStopping ∧ s.bit (Reg.CTC_STS ↑(strNum x)) 5 = false ∧ s.bit (Reg.CTC_STS ↑(strNum x)) 7 = false ∧ s.bit (Reg.CTC_STS ↑(strNum x)) 8 = false ∧ s.bit (Reg.CTC_STS ↑(strNum x)) 4 = true ∧ s.closeFails (strNum x) = 0 ∧ s.ctcState ↑(other (strNum x)) ≠ stStarting) ∧
    (∃ (x : Str) (s : State), s.ctcState ↑(strNum x) = stStopping ∧ s.bit (Reg.CTC_STS ↑(strNum x)) 5 = false ∧ s.bit (Reg.CTC_STS ↑(strNum x)) 7 = false ∧ s.bit (Reg.CTC_STS ↑(strNum x)) 6 = false ∧ s.bit (Reg.CTC_STS ↑(strNum x)) 4 = false) := by
  refine ⟨?_, ?_, ?_, ?_, ?_, ?_, ?_, ?_, ?_, ?_, ?_, ?_, ?_, ?_, ?_, ?_, ?_, ?_, ?_, ?_⟩
  · refine ⟨8000, nug, .A, 1, ready, ?_⟩; decide +kernel
  · refine ⟨8000, nug, .A, 1, rs (ready) [(Reg.CTC_STS 1, 1)], ?_⟩; decide +kernel
  · refine ⟨8000, nug, .A, 1, rs (power) [(Reg.CTC_STS 0, 0)], ?_⟩; decide +kernel
  · refine ⟨nug, .A, 0, rs (ready) [(Reg.CTC_STS 0, 0x62)], ?_⟩; decide +kernel
  · refine ⟨nug, .A, 0, rs (ready) [(Reg.CTC_STS 0, 0x81)], ?_⟩; decide +kernel
  · refine ⟨nug, .A, 1, rs (ready) [(Reg.CTC_STS 0, 3)], ?_⟩; decide +kernel
  · refine ⟨nug, .A, 2, rs (ready) [(Reg.CTC_STS 0, 65541), (Reg.HVS_ISTR 0, 0)], ?_⟩; decide +kernel
  · refine ⟨nug, .A, 2, rs (ready) [(Reg.CTC_STS 0, 65605)], ?_⟩; decide +kernel
  · refine ⟨.A, rs (ready) [(Reg.CTC_STS 0, 0x81)], ?_⟩; decide +kernel
  · refine ⟨.A, rs (ready) [(Reg.CTC_STS 0, 0xA1), (Reg.VMC_CTL 0, 1), (Reg.VMC_STS 0, 2)], ?_⟩; decide +kernel
  · refine ⟨100000000, .A, rs (ready) [(Reg.CTC_STS 0, 0x181), (Reg.VMC_CTL 0, 1), (Reg.VMC_STS 0, 2)], ?_⟩; decide +kernel
  · refine ⟨100000000, .A, rs (ready) [(Reg.CTC_STS 0, 0x1A1), (Reg.VMC_CTL 0, 1), (Reg.VMC_STS 0, 2)], ?_⟩; decide +kernel
  · refine ⟨100000000, .A, rs (ready) [(Reg.CTC_STS 0, 0x81)], ?_⟩; decide +kernel
  · refine ⟨.A, { (ready : State) with ctc := (ready).ctc.set 0 { (ready).ctc[0] with waiting := true } }, ?_⟩; decide +kernel
  · refine ⟨.A, { (rs (ready) [(Reg.CTC_SHIP, 1)] : State) with ctc := (rs (ready) [(Reg.CTC_SHIP, 1)]).ctc.set 0 { (rs (ready) [(Reg.CTC_SHIP, 1)]).ctc[0] with waiting := true } }, ?_⟩; decide +kernel
  · refine ⟨.A, 0x40000000, rs (ready) [(Reg.CTC_STS 0, 0x63)], ?_⟩; decide +kernel
  · refine ⟨10008000, .A, 0x44000000, { (rs (ready) [(Reg.CTC_STS 0, 0x63)] : State) with ctc := (rs (ready) [(Reg.CTC_STS 0, 0x63)]).ctc.set 0 { (rs (ready) [(Reg.CTC_STS 0, 0x63)]).ctc[0] with bricksOff := some 8000 } }, 8000, ?_⟩; decide +kernel
  · refine ⟨.A, rs (ready) [(Reg.CTC_STS 0, 0x43)], ?_⟩; decide +kernel
  · refine ⟨.A, rs (ready) [(Reg.CTC_STS 0, 0x53)], ?_⟩; decide +kernel
  · refine ⟨.A, rs (ready) [(Reg.CTC_STS 0, 0x103)], ?_⟩; decide +kernel

theorem witness_RestWindowsLearningAndShipMode :
    (∃ (t : Nat) (a : Nat) (x : Str) (s : State), s.ctc[strNum x].restAt = some a ∧ s.ctcState ↑(strNum x) = stHold ∧ a + 90000000000 ≤ max s.now t ∧ max s.now t % 1000000 = 0) ∧
    (∃ (t : Nat) (x : Str) (s : State), s.ctcState ↑(strNum x) = stRunning ∧ s.anchorMin < (s.at t).anchorAge (strNum x) ∧ s.ctc[strNum x].lastRest = none ∧ s.ctc[strNum x].excEnd = none ∧ s.ctc[strNum x].excAt = none) ∧
    (∃ (t : Nat) (a : Nat) (x : Str) (s : State), s.ctc[strNum x].excAt = some a ∧ a + 10000000000 ≤ max s.now t) ∧
    (∃ (t : Nat) (x : Str) (s : State), s.blk 16 = stRunning ∧ (s.ctc[strNum x].journalDue = true ∨ s.ctc[strNum x].learnedAt + 3600000000000 ≤ max s.now t) ∧ s.jnlRefuses = false ∧ s.isOwner = true) ∧
    (∃ (w : Writer) (s : State), admits s w Reg.CTC_SHIP 32 2 = true ∧ shipPath w = true ∧ s.ship = false) ∧
    (∃ (w : Writer) (s : State), admits s w Reg.CTC_SHIP 32 4 = true ∧ shipPath w = true ∧ s.shipExitOk = true) ∧
    (∃ (w : Writer) (s : State), admits s w Reg.CTC_SHIP 32 4 = true ∧ (shipPath w = false ∨ s.shipExitOk = false)) ∧
    (∃ (s : State), s.prt.ship = 1 ∧ s.ctcState 0 = stOff ∧ s.ctcState 1 = stOff) ∧
    (∃ (s : State), s.prt.ship = 2) := by
  refine ⟨?_, ?_, ?_, ?_, ?_, ?_, ?_, ?_, ?_⟩
  · refine ⟨90001000000, 5, .A, { ({ (rs (power) [(Reg.CTC_STS 0, 0x66), (Reg.BDS_STS, 0x180)] : State) with ctc := (rs (power) [(Reg.CTC_STS 0, 0x66), (Reg.BDS_STS, 0x180)]).ctc.set 0 { (rs (power) [(Reg.CTC_STS 0, 0x66), (Reg.BDS_STS, 0x180)]).ctc[0] with restAt := some 5 } } : State) with est := ({ (rs (power) [(Reg.CTC_STS 0, 0x66), (Reg.BDS_STS, 0x180)] : State) with ctc := (rs (power) [(Reg.CTC_STS 0, 0x66), (Reg.BDS_STS, 0x180)]).ctc.set 0 { (rs (power) [(Reg.CTC_STS 0, 0x66), (Reg.BDS_STS, 0x180)]).ctc[0] with restAt := some 5 } }).est.set 0 { ({ (rs (power) [(Reg.CTC_STS 0, 0x66), (Reg.BDS_STS, 0x180)] : State) with ctc := (rs (power) [(Reg.CTC_STS 0, 0x66), (Reg.BDS_STS, 0x180)]).ctc.set 0 { (rs (power) [(Reg.CTC_STS 0, 0x66), (Reg.BDS_STS, 0x180)]).ctc[0] with restAt := some 5 } }).est[0] with sigma := 100 } }, ?_⟩; decide +kernel
  · refine ⟨4500050000000, .A, rs (power) [(Reg.BDS_ANCHOR_INTERVAL, 1)], ?_⟩; decide +kernel
  · refine ⟨10000000005, 5, .A, { (power : State) with ctc := (power).ctc.set 0 { (power).ctc[0] with excAt := some 5 } }, ?_⟩; decide +kernel
  · refine ⟨3600000000000, .A, owner, ?_⟩; decide +kernel
  · refine ⟨nug, power, ?_⟩; decide +kernel
  · refine ⟨nug, rs (ready) [(Reg.CTC_SHIP, 1), (Reg.HVS_VBUS, 0x42480000)], ?_⟩; decide +kernel
  · refine ⟨nug, rs (ready) [(Reg.CTC_SHIP, 1), (Reg.HVS_VBUS, 0x40480000)], ?_⟩; decide +kernel
  · refine ⟨{ rs ready [(Reg.VMC_STS 3, 2), (Reg.VMC_CTL 3, 1)] with prt := { power.prt with ship := 1 } }, ?_⟩; decide +kernel
  · refine ⟨{ rs ready [(Reg.CTC_SHIP, 1)] with prt := { power.prt with ship := 2 } }, ?_⟩; decide +kernel

theorem witness_EveryEpochIsApportionedExactly :
    (∃ (e : EpochSt) (rest : List EpochSt) (s : State), s.hmk.epochs = e :: rest ∧ e.stage = EpochStage.read) := by
  refine ⟨{ epoch0 with policy := 0 }, [], { (owner : State) with hmk := { (owner).hmk with epochs := [{ epoch0 with policy := 0 }] } }, ?_⟩; decide +kernel

theorem witness_EpochsAreChainedSealedAndReleased :
    (∃ (e : EpochSt) (s : State), s.metering = true ∧ s.hmk.takeover = false ∧ s.hmk.epochs = [e] ∧ e.stop = none) ∧
    (∃ (s : State), s.metering = false) ∧
    (∃ (e : EpochSt) (rest : List EpochSt) (s : State), s.hmk.epochs = e :: rest ∧ e.stage = EpochStage.read ∧ (s.reconOf e (s.recordsOf e)).fails = true) ∧
    (∃ (e : EpochSt) (rest : List EpochSt) (s : State), s.hmk.epochs = e :: rest ∧ e.stage = EpochStage.reconciled ∧ s.hmk.tip = none) ∧
    (∃ (e : EpochSt) (rest : List EpochSt) (s : State) (p : ChainTip), s.hmk.epochs = e :: rest ∧ e.stage = EpochStage.reconciled ∧ s.hmk.tip = some p) ∧
    (∃ (e : EpochSt) (rest : List EpochSt) (s : State), s.hmk.epochs = e :: rest ∧ e.stage = EpochStage.rooted ∧ s.jnlRefuses = false ∧ s.isOwner = true) ∧
    (∃ (e : EpochSt) (rest : List EpochSt) (s : State), s.hmk.epochs = e :: rest ∧ e.stage = EpochStage.journalled) ∧
    (∃ (t : Nat) (e : EpochSt) (rest : List EpochSt) (s : State), s.hmk.epochs = e :: rest ∧ e.stage = EpochStage.sealed ∧ s.baseUp = true ∧ s.jnlHas e.jseq = true ∧ (s.at t).mirrorOn = false ∧ arcBytes s.hmk.archive + arcSize e.recs.length ≤ arcMax) ∧
    (∃ (t : Nat) (e : EpochSt) (rest : List EpochSt) (s : State), s.hmk.epochs = e :: rest ∧ e.stage = EpochStage.sealed ∧ s.baseUp = true ∧ s.jnlHas e.jseq = true ∧ (s.at t).mirrorOn = true ∧ s.jnl.unacked.contains e.jseq = true) ∧
    (∃ (k : Nat) (i : Fin 64) (x : SessSt) (a : ArcEpoch) (s : State), s.nug.sess[i] = some x ∧ s.nugRuns = true ∧ x.subscribed = true ∧ s.bit Reg.HMK_CTL 0 = true ∧ sparseFind s.hmk.sent ↑i = some k ∧ (List.find? (fun a => decide (k < a.seq)) s.hmk.archive = some a)) ∧
    (∃ (w : Writer) (v : DWord) (s : State) (q : Nat), admits s w Reg.HMK_ACK 64 (BitVec.toNat v) = true ∧ s.newestReleased = some q ∧ s.reg Reg.HMK_ACK ≤ BitVec.toNat v ∧ BitVec.toNat v ≤ q) ∧
    (∃ (w : Writer) (v : DWord) (s : State), admits s w Reg.HMK_ACK 64 (BitVec.toNat v) = true ∧ BitVec.toNat v < s.reg Reg.HMK_ACK) ∧
    (∃ (w : Writer) (v : Word) (s : State), admits s w Reg.HMK_POLICY 32 (BitVec.toNat v) = true ∧ BitVec.toNat v ≤ 2) ∧
    (∃ (w : Writer) (v : Word) (s : State), admits s w Reg.HMK_POLICY 32 (BitVec.toNat v) = true ∧ 2 < BitVec.toNat v) := by
  refine ⟨?_, ?_, ?_, ?_, ?_, ?_, ?_, ?_, ?_, ?_, ?_, ?_, ?_, ?_⟩
  · refine ⟨{ epoch0 with stop := none, stage := .metering }, { ({ (owner : State) with hmk := { (owner).hmk with epochs := [{ epoch0 with stop := none, stage := .metering }] } } : State) with now := 1249999999 }, ?_⟩; decide +kernel
  · refine ⟨{ (up : State) with hmk := { (up).hmk with epochs := [epoch0] } }, ?_⟩; decide +kernel
  · refine ⟨{ epoch0 with bus := 100000000000 }, [epoch0], { (owner : State) with hmk := { (owner).hmk with epochs := [{ epoch0 with bus := 100000000000 }, epoch0] } }, ?_⟩; decide +kernel
  · refine ⟨{ epoch0 with stage := .reconciled }, [epoch0], { (owner : State) with hmk := { (owner).hmk with epochs := [{ epoch0 with stage := .reconciled }, epoch0] } }, ?_⟩; decide +kernel
  · refine ⟨{ epoch0 with stage := .reconciled }, [epoch0], { (owner : State) with hmk := { (owner).hmk with epochs := [{ epoch0 with stage := .reconciled }, epoch0], tip := some ⟨[1], 8, 3, 5⟩ } }, ⟨[1], 8, 3, 5⟩, ?_⟩; decide +kernel
  · refine ⟨{ epoch0 with stage := .rooted }, [epoch0], { (owner : State) with hmk := { (owner).hmk with epochs := [{ epoch0 with stage := .rooted }, epoch0] } }, ?_⟩; decide +kernel
  · refine ⟨{ epoch0 with stage := .journalled, root := List.range 32 |>.map (BitVec.ofNat 8) }, [epoch0], { (owner : State) with hmk := { (owner).hmk with epochs := [{ epoch0 with stage := .journalled, root := List.range 32 |>.map (BitVec.ofNat 8) }, epoch0] } }, ?_⟩; decide +kernel
  · refine ⟨5, { epoch0 with stage := .sealed, jseq := 6 }, [epoch0], { { (owner : State) with hmk := { (owner).hmk with epochs := [{ epoch0 with stage := .sealed, jseq := 6 }, epoch0] } } with jnl := { owner.jnl with log := [(0, ⟨0x40, 6, 5, 6, true, false, false, false, []⟩)] } }, ?_⟩; decide +kernel
  · refine ⟨900, { epoch0 with stage := .sealed, jseq := 6 }, [epoch0], { rs ({ { (owner : State) with hmk := { (owner).hmk with epochs := [{ epoch0 with stage := .sealed, jseq := 6 }, epoch0] } } with jnl := { owner.jnl with log := [(0, ⟨0x40, 6, 5, 6, true, false, false, false, []⟩)], unacked := [6] } }) [(Reg.SLK_STS, 4), (Reg.SLK_CTL, 1)] with clp := { owner.clp with peerRole := 2 } }, ?_⟩; decide +kernel
  · refine ⟨8, 5, ⟨.admin, true, true, [], 0, 0⟩, ⟨9, 4, 0, [], 3, [], 500⟩, { rs ({ (owner : State) with hmk := { (owner).hmk with archive := [⟨9, 4, 0, [], 3, [], 500⟩], sent := [(5, 8)] } }) [(Reg.NUG_STS, 1)] with nug := { owner.nug with sess := owner.nug.sess.set 5 (some ⟨.admin, true, true, [], 0, 0⟩) } }, ?_⟩; decide +kernel
  · refine ⟨nug, 9, { (owner : State) with hmk := { (owner).hmk with archive := [⟨9, 4, 0, [], 3, [], 500⟩] } }, 9, ?_⟩; decide +kernel
  · refine ⟨nug, 2, rs owner [(Reg.HMK_ACK, 5)], ?_⟩; decide +kernel
  · refine ⟨nug, 2, { owner with lc := .provision }, ?_⟩; decide +kernel
  · refine ⟨nug, 3, { owner with lc := .provision }, ?_⟩; decide +kernel

theorem witness_ChainLanesComeUpAndAreChecked :
    (∃ (t : Nat) (l : Fin 4) (f : FlitIn) (s : State) (i : Instr), (s.laneOpen l = true ∧ f.ue = true) ∧ i ∈ [Instr.jrjIdent t l f, Instr.jrjEcho t l f, Instr.jrjTime t l f, Instr.jrjReport t l f, Instr.jrjStep t l f, Instr.jrjLimit t l f]) ∧
    (∃ (t : Nat) (l : Fin 4) (f : FlitIn) (s : State) (i : Instr), (s.laneOpen l = true ∧ f.ue = false ∧ frHcrcOk (fitBytes 256 f.bytes) = false) ∧ i ∈ [Instr.jrjIdent t l f, Instr.jrjEcho t l f, Instr.jrjTime t l f, Instr.jrjReport t l f, Instr.jrjStep t l f, Instr.jrjLimit t l f]) ∧
    (∃ (t : Nat) (l : Fin 4) (f : FlitIn) (s : State) (i : Instr), (s.laneOpen l = true ∧ f.ue = false ∧ frHcrcOk (fitBytes 256 f.bytes) = true ∧ frCrcOk (fitBytes 256 f.bytes) = false) ∧ i ∈ [Instr.jrjIdent t l f, Instr.jrjEcho t l f, Instr.jrjTime t l f, Instr.jrjReport t l f, Instr.jrjStep t l f, Instr.jrjLimit t l f]) ∧
    (∃ (l : Fin 4) (s : State), s.laneMay l = true ∧ (s.lane l = lkDown ∨ s.lane l = lkTraining)) ∧
    (∃ (l : Fin 4) (s : State), s.bit (Reg.CHN_STS ↑l) 3 = true) ∧
    (∃ (w : Writer) (l : Fin 4) (s : State), admits s w (Reg.CHN_CTL ↑l) 32 (s.reg (Reg.CHN_CTL ↑l) % 2 + 2) = true ∧ s.reg (Reg.CHN_CTL ↑l) % 2 = 1 ∧ s.laneOpen l = true) ∧
    (∃ (w : Writer) (l : Fin 4) (s : State), admits s w (Reg.CHN_CTL ↑l) 32 (s.reg (Reg.CHN_CTL ↑l) % 2 + 2) = true ∧ s.reg (Reg.CHN_CTL ↑l) % 2 = 1 ∧ s.lane l = lkDown) ∧
    (∃ (d : Dir) (s : State) (l : Fin 4), s.baseUp = true ∧ l ∈ lanesOf (dirNum d)) ∧
    (∃ (t : Nat) (a : Nat) (d : Dir) (s : State) (l : Fin 4), l ∈ lanesOf (dirNum d) ∧ s.chn.lane[l].initAt = some a ∧ a ≤ max s.now t ∧ s.lane l = lkDown) ∧
    (∃ (l : Fin 4) (f : FlitIn) (s : State) (c : Nat) (k : Nat), frameTaken s l f 1 ∧ s.lane l = lkIdent ∧ s.laneCause l (fitBytes 256 f.bytes) = (c, k) ∧ c ≠ 0) ∧
    (∃ (l : Fin 4) (f : FlitIn) (s : State) (k : Nat), frameTaken s l f 1 ∧ s.lane l = lkIdent ∧ s.laneCause l (fitBytes 256 f.bytes) = (0, k)) ∧
    (∃ (l : Fin 4) (f : FlitIn) (s : State), frameTaken s l f 2 ∧ leAt (fitBytes 256 f.bytes) 32 8 = 0) ∧
    (∃ (l : Fin 4) (f : FlitIn) (s : State), frameTaken s l f 2 ∧ leAt (fitBytes 256 f.bytes) 32 8 ≠ 0 ∧ s.chn.lane[l].t1s.contains (leAt (fitBytes 256 f.bytes) 24 8) = true) := by
  refine ⟨?_, ?_, ?_, ?_, ?_, ?_, ?_, ?_, ?_, ?_, ?_, ?_, ?_⟩
  · refine ⟨8000, 1, ({ (fr 3 7 0 3 100 []) with ue := true } : FlitIn), ring3, .jrjTime 8000 1 ({ (fr 3 7 0 3 100 []) with ue := true } : FlitIn), ?_, ?_⟩
    · decide +kernel
    · simp
  · refine ⟨8000, 1, ({ (fr 3 7 0 3 100 []) with bytes := put ((fr 3 7 0 3 100 [])).bytes [(7,1,0)] } : FlitIn), ring3, .jrjTime 8000 1 ({ (fr 3 7 0 3 100 []) with bytes := put ((fr 3 7 0 3 100 [])).bytes [(7,1,0)] } : FlitIn), ?_, ?_⟩
    · decide +kernel
    · simp
  · refine ⟨8000, 1, ({ (fr 3 7 0 3 100 []) with bytes := put ((fr 3 7 0 3 100 [])).bytes [(0xFC,1,0)] } : FlitIn), ring3, .jrjTime 8000 1 ({ (fr 3 7 0 3 100 []) with bytes := put ((fr 3 7 0 3 100 [])).bytes [(0xFC,1,0)] } : FlitIn), ?_, ?_⟩
    · decide +kernel
    · simp
  · refine ⟨1, rs (ring3) [(Reg.CHN_STS 1, 0x10)], ?_⟩; decide +kernel
  · refine ⟨2, ring3, ?_⟩; decide +kernel
  · refine ⟨nug, 2, { (ring3 : State) with chn := { (ring3).chn with lane := (ring3).chn.lane.set 2 { (ring3).chn.lane[2] with identAt := 4 } } }, ?_⟩; decide +kernel
  · refine ⟨nug, 2, { (rs (ring3) [(Reg.CHN_STS 2, 0x10)] : State) with chn := { (rs (ring3) [(Reg.CHN_STS 2, 0x10)]).chn with lane := (rs (ring3) [(Reg.CHN_STS 2, 0x10)]).chn.lane.set 2 { (rs (ring3) [(Reg.CHN_STS 2, 0x10)]).chn.lane[2] with held := true } } }, ?_⟩; decide +kernel
  · refine ⟨.east, ring3, 0, ?_⟩; decide +kernel
  · refine ⟨8000, 5, .east, { (rs (ring3) [(Reg.CHN_STS 0, 0x10)] : State) with chn := { (rs (ring3) [(Reg.CHN_STS 0, 0x10)]).chn with lane := (rs (ring3) [(Reg.CHN_STS 0, 0x10)]).chn.lane.set 0 { (rs (ring3) [(Reg.CHN_STS 0, 0x10)]).chn.lane[0] with initAt := some 5, held := true } } }, 0, ?_⟩; decide +kernel
  · refine ⟨0, (fr 1 11 0 3 100 [(0x18, 8, 77), (0x24, 1, 11)]), rs (ring3) [(Reg.CHN_STS 0, 0x1A)], 1, 0, ?_⟩; simp only [frameTaken]; decide +kernel
  · refine ⟨0, ident 7 77 1 0, rs (ring3) [(Reg.CHN_STS 0, 0x1A)], 1, ?_⟩; simp only [frameTaken]; decide +kernel
  · refine ⟨0, fr 2 7 0 3 100 [(0x18, 8, 500)], ring3, ?_⟩; simp only [frameTaken]; decide +kernel
  · refine ⟨0, fr 2 7 0 3 100 [(0x18, 8, 500),(0x20,8,900),(0x28,8,1000)], { (ring3 : State) with chn := { (ring3).chn with lane := (ring3).chn.lane.set 0 { (ring3).chn.lane[0] with t1s := [400, 500], delays := [3, 9] } } }, ?_⟩; simp only [frameTaken]; decide +kernel

theorem witness_JarrojoFloodsAndItsStage :
    (∃ (t : Nat) (s : State), (s.at t).stageMay = true ∧ s.chainDrive = false) ∧
    (∃ (t : Nat) (s : State), (s.at t).stageMay = false ∧ s.chainDrive = true) ∧
    (∃ (t : Nat) (s : State) (a : Nat), s.chn.quarSince = some a ∧ s.chainDrive = true ∧ s.allQuarantined = true ∧ a + 1000000000 ≤ max s.now t) ∧
    (∃ (t : Nat) (s : State), s.rootEligible = true ∧ s.bit Reg.JRJ_STS 2 = false ∧ (s.chn.badRoot = true ∨ s.chn.lastTime + 3 ≤ max s.now t / 1000000)) ∧
    (∃ (t : Nat) (s : State) (a : Nat) (n : Nat), s.chn.eligSince = some a ∧ s.myNode = some n ∧ s.rootEligible = true ∧ s.bit Reg.JRJ_STS 2 = false ∧ n < s.reg Reg.JRJ_ROOT ∧ a + 10000000000 ≤ max s.now t) ∧
    (∃ (w : Writer) (v : Word) (s : State), admits s w Reg.JRJ_CTL 32 (BitVec.toNat v) = true ∧ BitVec.toNat v % 2 = 0 ∧ s.chainDrive = true) ∧
    (∃ (w : Writer) (v : Word) (s : State), admits s w Reg.JRJ_CTL 32 (BitVec.toNat v) = true ∧ s.chainDrive = false) ∧
    (∃ (t : Nat) (l : Fin 4) (f : FlitIn) (s : State) (x : Instr × Nat), (s.lane l = lkAdmitted ∧ frameTaken s l f x.snd ∧ (x.snd = 3 → s.time.source ≠ TimeSource.chain) ∧ some (frOrigin (fitBytes 256 f.bytes)) ≠ s.myNode ∧ s.chn.seen.contains (frOrigin (fitBytes 256 f.bytes), frSeq (fitBytes 256 f.bytes)) = false) ∧ x ∈ [(Instr.jrjTime t l f, 3), (Instr.jrjReport t l f, 4), (Instr.jrjStep t l f, 5), (Instr.jrjLimit t l f, 6)]) ∧
    (∃ (t : Nat) (l : Fin 4) (f : FlitIn) (s : State) (x : Instr × Nat), (s.lane l = lkAdmitted ∧ frameTaken s l f x.snd ∧ (x.snd = 3 → s.time.source ≠ TimeSource.chain) ∧ x.snd ≠ 3 ∧ s.chn.seen.contains (frOrigin (fitBytes 256 f.bytes), frSeq (fitBytes 256 f.bytes)) = true) ∧ x ∈ [(Instr.jrjTime t l f, 3), (Instr.jrjReport t l f, 4), (Instr.jrjStep t l f, 5), (Instr.jrjLimit t l f, 6)]) ∧
    (∃ (l : Fin 4) (f : FlitIn) (s : State), s.lane l = lkAdmitted ∧ some (frOrigin (fitBytes 256 f.bytes)) ≠ s.myNode ∧ s.chn.seen.contains (frOrigin (fitBytes 256 f.bytes), frSeq (fitBytes 256 f.bytes)) = false ∧ frameTaken s l f 3 ∧ s.bit Reg.JRJ_STS 2 = false ∧ s.betterTime (fitBytes 256 f.bytes) = true ∧ s.time.source ≠ TimeSource.chain) ∧
    (∃ (l : Fin 4) (f : FlitIn) (s : State), s.lane l = lkAdmitted ∧ some (frOrigin (fitBytes 256 f.bytes)) ≠ s.myNode ∧ s.chn.seen.contains (frOrigin (fitBytes 256 f.bytes), frSeq (fitBytes 256 f.bytes)) = false ∧ frameTaken s l f 4 ∧ (∀ (x : Report), sparseFind s.chn.reports (frOrigin (fitBytes 256 f.bytes)) = some x → x.frame ≤ leAt (fitBytes 256 f.bytes) 24 8)) ∧
    (∃ (l : Fin 4) (f : FlitIn) (s : State), s.lane l = lkAdmitted ∧ some (frOrigin (fitBytes 256 f.bytes)) ≠ s.myNode ∧ s.chn.seen.contains (frOrigin (fitBytes 256 f.bytes), frSeq (fitBytes 256 f.bytes)) = false ∧ frameTaken s l f 5 ∧ byteAt (fitBytes 256 f.bytes) 24 ≤ 2) ∧
    (∃ (l : Fin 4) (f : FlitIn) (s : State), s.lane l = lkAdmitted ∧ some (frOrigin (fitBytes 256 f.bytes)) ≠ s.myNode ∧ s.chn.seen.contains (frOrigin (fitBytes 256 f.bytes), frSeq (fitBytes 256 f.bytes)) = false ∧ frameTaken s l f 5 ∧ byteAt (fitBytes 256 f.bytes) 24 = 3 ∧ s.chn.tripsSeen.contains (frOrigin (fitBytes 256 f.bytes), leAt (fitBytes 256 f.bytes) 26 2) = false) ∧
    (∃ (l : Fin 4) (f : FlitIn) (s : State), s.lane l = lkAdmitted ∧ some (frOrigin (fitBytes 256 f.bytes)) ≠ s.myNode ∧ s.chn.seen.contains (frOrigin (fitBytes 256 f.bytes), frSeq (fitBytes 256 f.bytes)) = false ∧ frameTaken s l f 6) := by
  refine ⟨?_, ?_, ?_, ?_, ?_, ?_, ?_, ?_, ?_, ?_, ?_, ?_, ?_, ?_⟩
  · refine ⟨8000, rs (ring3) [(Reg.JRJ_STS, 0)], ?_⟩; decide +kernel
  · refine ⟨8000, rs (ring3) [(Reg.JRJ_CTL, 0)], ?_⟩; decide +kernel
  · refine ⟨1000000005, { (rs (ring3) [(Reg.CHN_STS 0, 0x1D), (Reg.CHN_STS 1, 0x1D), (Reg.CHN_STS 2, 0x1D), (Reg.CHN_STS 3, 0x1D)] : State) with chn := { (rs (ring3) [(Reg.CHN_STS 0, 0x1D), (Reg.CHN_STS 1, 0x1D), (Reg.CHN_STS 2, 0x1D), (Reg.CHN_STS 3, 0x1D)]).chn with quarSince := some 5 } }, 5, ?_⟩; decide +kernel
  · refine ⟨3000000, { { (ring3 : State) with chn := { (ring3).chn with lastTime := 0, eligSince := some 5 } } with time := { ring3.time with tstate := .lockedPtp } }, ?_⟩; decide +kernel
  · refine ⟨10000000005, { rs ({ (ring3 : State) with chn := { (ring3).chn with lastTime := 0, eligSince := some 5 } }) [(Reg.JRJ_ROOT, 7)] with time := { ring3.time with tstate := .lockedPtp } }, 5, 5, ?_⟩; decide +kernel
  · refine ⟨nug, 2, ring3, ?_⟩; decide +kernel
  · refine ⟨nug, 1, rs (ring3) [(Reg.JRJ_STS, 0)], ?_⟩; decide +kernel
  · refine ⟨28000, 1, (fr 3 7 2 3 100 [(0x18, 1, 1)]), ring3, (.jrjTime 28000 1 (fr 3 7 2 3 100 [(0x18, 1, 1)]), 3), ?_, ?_⟩
    · simp only [frameTaken]; decide +kernel
    · simp
  · refine ⟨28000, 1, (fr 5 7 2 3 100 [(0x18, 1, 1)]), { (ring3 : State) with chn := { (ring3).chn with seen := [(7, 3)] } }, (.jrjStep 28000 1 (fr 5 7 2 3 100 [(0x18, 1, 1)]), 5), ?_, ?_⟩
    · simp only [frameTaken]; decide +kernel
    · simp
  · refine ⟨1, fr 3 7 0 3 0xFFFFFFFFFFFFFFFF [(0x18, 8, 5000), (0x20, 1, 2)], rs (ring3) [(Reg.CHN_DELAY 1, 100)], ?_⟩; simp only [frameTaken]; decide +kernel
  · refine ⟨1, fr 4 7 0 3 27000 [(0x18, 8, 5000), (0x20, 4, 3)], ring3, ?_⟩; simp only [frameTaken]; decide +kernel
  · refine ⟨1, fr 5 7 0 3 27000 [(0x18, 1, 2), (0x1C, 4, 3)], ring3, ?_⟩; simp only [frameTaken]; decide +kernel
  · refine ⟨1, fr 5 7 0 3 27000 [(0x18, 1, 3), (0x1C, 4, 0xFFFFFFF0)], ring3, ?_⟩; simp only [frameTaken]; decide +kernel
  · refine ⟨1, fr 6 7 0 3 27000 [(0x18, 4, 500), (0x24, 8, 99999999)], ring3, ?_⟩; simp only [frameTaken]; decide +kernel

theorem witness_TheLeaseDecidesOwnership :
    (∃ (s : State), s.pulseUp = true) ∧
    (∃ (p : ClaspPath) (f : BitVec 48) (s : State), s.pulseUp = true ∧ (p = ClaspPath.slot → s.bit Reg.SLK_CTL 0 = true) ∧ claspOk f = false) ∧
    (∃ (p : ClaspPath) (f : BitVec 48) (s : State), s.pulseUp = true ∧ (p = ClaspPath.slot → s.bit Reg.SLK_CTL 0 = true) ∧ claspOk f = true ∧ s.duplicate p (cfr f 8 24) = true) ∧
    (∃ (p : ClaspPath) (f : BitVec 48) (s : State), s.pulseUp = true ∧ (p = ClaspPath.slot → s.bit Reg.SLK_CTL 0 = true) ∧ claspOk f = true ∧ s.duplicate p (cfr f 8 24) = false ∧ cfr f 5 3 = 4 ∧ 1 ≤ epochAhead (cfr f 8 24) s.clp.peerEpoch ∧ epochAhead (cfr f 8 24) s.clp.peerEpoch ≤ 6) ∧
    (∃ (p : ClaspPath) (f : BitVec 48) (s : State), s.pulseUp = true ∧ (p = ClaspPath.slot → s.bit Reg.SLK_CTL 0 = true) ∧ claspOk f = true ∧ s.duplicate p (cfr f 8 24) = false ∧ cfr f 5 3 = 5 ∧ s.clp.role = 1 ∧ s.clp.guardAt = none) ∧
    (∃ (t : Nat) (s : State), s.pulseUp = true ∧ s.clp.peerValid = true ∧ s.clp.renewAt + 6000 ≤ max s.now t) ∧
    (∃ (t : Nat) (g : Nat) (s : State), s.clp.guardAt = some g ∧ g + 2000 ≤ max s.now t ∧ s.claimHolds = true ∧ s.clp.guardHeard = false) ∧
    (∃ (t : Nat) (g : Nat) (s : State), s.clp.guardAt = some g ∧ g + 2000 ≤ max s.now t ∧ (s.claimHolds = false ∨ s.clp.guardHeard = true)) ∧
    (∃ (t : Nat) (s : State), s.clp.drive = true ∧ s.clp.timerAt + 4000 ≤ max s.now t) ∧
    (∃ (t : Nat) (s : State), s.pulseUp = true ∧ (s.at t).ownLine = false) ∧
    (∃ (t : Nat) (s : State), s.pulseUp = true ∧ (s.at t).ownLine = true ∧ s.clp.role = 4 ∧ (s.clp.peerRole = 1 ∨ s.clp.peerRole = 2) ∧ s.clp.peerLineOk = true ∧ s.clp.peerContest = false ∧ s.bit Reg.CLP_CTL 1 = true) ∧
    (∃ (s : State), s.pulseUp = true ∧ s.clp.line = true ∧ s.clp.peerLine = true ∧ s.clp.contest = false) ∧
    (∃ (t : Nat) (a : Nat) (s : State), s.clp.contestPeerLow = some a ∧ s.clp.contest = true ∧ a + 10000000 ≤ max s.now t) ∧
    (∃ (t : Nat) (w : Writer) (s : State), admits s w Reg.CLP_CTL 32 (s.fld Reg.CLP_CTL 1 2 * 2 + 8) = true ∧ (s.at t).ownLineOk = true) ∧
    (∃ (t : Nat) (w : Writer) (s : State), admits s w Reg.CLP_CTL 32 (s.fld Reg.CLP_CTL 1 2 * 2 + 8) = true ∧ (s.at t).ownLineOk = false) ∧
    (∃ (t : Nat) (w : Writer) (s : State), admits s w Reg.CLP_CTL 32 (s.fld Reg.CLP_CTL 1 2 * 2 + 1) = true ∧ s.clp.role = 4 ∧ (s.at t).peerReady = true ∧ s.clp.peerContest = false ∧ s.clp.yieldDue = none) ∧
    (∃ (t : Nat) (w : Writer) (s : State), admits s w Reg.CLP_CTL 32 (s.fld Reg.CLP_CTL 1 2 * 2 + 1) = true ∧ (s.clp.role ≠ 4 ∨ (s.at t).peerReady = false)) ∧
    (∃ (t : Nat) (y : Nat) (s : State), s.clp.yieldAt = some y ∧ s.clp.role = 5 ∧ y + 100000 ≤ max s.now t) ∧
    (∃ (t : Nat) (a : Nat) (s : State), s.clp.listenAt = some a ∧ s.clp.role = 1 ∧ s.clp.peerValid = false ∧ s.clp.guardAt = none ∧ s.mayClaim = true ∧ a + s.reg Reg.CLP_LISTEN * 1000000 ≤ max s.now t) ∧
    (∃ (t : Nat) (s : State), s.pulseUp = true ∧ s.clp.peerSeen ≠ 0 ∧ s.clp.peerSeen + 1000000 ≤ max s.now t) ∧
    (∃ (t : Nat) (s : State), s.pulseUp = true ∧ (s.at t).pathLive s.clp.wireAt = false ∧ (s.at t).pathLive s.clp.slkAt = true) := by
  refine ⟨?_, ?_, ?_, ?_, ?_, ?_, ?_, ?_, ?_, ?_, ?_, ?_, ?_, ?_, ?_, ?_, ?_, ?_, ?_, ?_, ?_⟩
  · refine ⟨up, ?_⟩; decide +kernel
  · refine ⟨.wire, 1, owner, ?_⟩; decide +kernel
  · refine ⟨.wire, clf 4 7 15, { (standby : State) with clp := { (standby).clp with peerEpoch := 8, wireEpoch := 5, slkEpoch := 8 } }, ?_⟩; decide +kernel
  · refine ⟨.wire, clf 4 7 15, { (standby : State) with clp := { (standby).clp with peerEpoch := 6, wireEpoch := 5, slkEpoch := 6 } }, ?_⟩; decide +kernel
  · refine ⟨.wire, clf 5 7 15, { (standby : State) with clp := { (standby).clp with peerEpoch := 6, peerValid := true } }, ?_⟩; decide +kernel
  · refine ⟨8000, { (owner : State) with clp := { (owner).clp with peerValid := true, renewAt := 2000 } }, ?_⟩; decide +kernel
  · refine ⟨8000, 6000, { (rs (standby) [(Reg.CTC_STS 0, 0x40), (Reg.CTC_STS 1, 0x41)] : State) with clp := { (rs (standby) [(Reg.CTC_STS 0, 0x40), (Reg.CTC_STS 1, 0x41)]).clp with role := 3, guardAt := some 6000, checkOk := true, renewAt := 3 } }, ?_⟩; decide +kernel
  · refine ⟨8000, 6000, { ({ (rs (standby) [(Reg.CTC_STS 0, 0x40), (Reg.CTC_STS 1, 0x41)] : State) with clp := { (rs (standby) [(Reg.CTC_STS 0, 0x40), (Reg.CTC_STS 1, 0x41)]).clp with role := 3, guardAt := some 6000, checkOk := true, renewAt := 3 } } : State) with clp := { ({ (rs (standby) [(Reg.CTC_STS 0, 0x40), (Reg.CTC_STS 1, 0x41)] : State) with clp := { (rs (standby) [(Reg.CTC_STS 0, 0x40), (Reg.CTC_STS 1, 0x41)]).clp with role := 3, guardAt := some 6000, checkOk := true, renewAt := 3 } }).clp with peerLine := true } }, ?_⟩; decide +kernel
  · refine ⟨8000, { (power : State) with clp := { (power).clp with timerAt := 4000 } }, ?_⟩; decide +kernel
  · refine ⟨8000, standby, ?_⟩; decide +kernel
  · refine ⟨8000, { (rs (power) [(Reg.CLP_CTL, 2)] : State) with clp := { (rs (power) [(Reg.CLP_CTL, 2)]).clp with peerRole := 2, peerLineOk := true } }, ?_⟩; decide +kernel
  · refine ⟨{ (power : State) with clp := { (power).clp with peerLine := true } }, ?_⟩; decide +kernel
  · refine ⟨10008000, 8000, { (standby : State) with clp := { (standby).clp with contest := true, contestPeerLow := some 8000 } }, ?_⟩; decide +kernel
  · refine ⟨8000, nug, rs (owner) [(Reg.CLP_STS, 0x144)], ?_⟩; decide +kernel
  · refine ⟨8000, nug, { (rs (owner) [(Reg.CLP_STS, 0x144)] : State) with clp := { (rs (owner) [(Reg.CLP_STS, 0x144)]).clp with line := false } }, ?_⟩; decide +kernel
  · refine ⟨8000, nug, { (owner : State) with clp := { (owner).clp with peerRole := 2, peerSeen := 7000 } }, ?_⟩; decide +kernel
  · refine ⟨8000, nug, owner, ?_⟩; decide +kernel
  · refine ⟨108000, 8000, { ({ (rs (standby) [(Reg.CTC_STS 0, 0x40), (Reg.CTC_STS 1, 0x41)] : State) with clp := { (rs (standby) [(Reg.CTC_STS 0, 0x40), (Reg.CTC_STS 1, 0x41)]).clp with role := 3, guardAt := some 6000, checkOk := true, renewAt := 3 } } : State) with clp := { ({ (rs (standby) [(Reg.CTC_STS 0, 0x40), (Reg.CTC_STS 1, 0x41)] : State) with clp := { (rs (standby) [(Reg.CTC_STS 0, 0x40), (Reg.CTC_STS 1, 0x41)]).clp with role := 3, guardAt := some 6000, checkOk := true, renewAt := 3 } }).clp with role := 5, yieldAt := some 8000, guardAt := none, peerLine := true } }, ?_⟩; decide +kernel
  · refine ⟨2000008000, 8000, { (standby : State) with clp := { (standby).clp with listenAt := some 8000 } }, ?_⟩; decide +kernel
  · refine ⟨1008000, { (owner : State) with clp := { (owner).clp with peerSeen := 8000, peerRole := 2 } }, ?_⟩; decide +kernel
  · refine ⟨18000, { (standby : State) with clp := { (standby).clp with slkAt := 17000, wireAt := 5 } }, ?_⟩; decide +kernel

theorem witness_TheStandbyMirrorsAndRestores :
    (∃ (p : PeerIdent) (s : State), (s.pw.island = true ∨ s.baseUp = true) ∧ s.bit Reg.SLK_CTL 0 = true ∧ p.order = s.ownCode) ∧
    (∃ (p : PeerIdent) (s : State), (s.pw.island = true ∨ s.baseUp = true) ∧ s.bit Reg.SLK_CTL 0 = true ∧ p.order ≠ s.ownCode) ∧
    (∃ (g : List Byte) (s : State), (s.isOwner = false ∧ s.slkUp = true ∧ s.pulseUp = true) ∧ planWhole g = true) ∧
    (∃ (g : List Byte) (s : State), s.isOwner = false ∧ s.slkUp = true ∧ s.pulseUp = true ∧ planWhole g = false) ∧
    (∃ (s : State), s.isOwner = false ∧ s.slkUp = true) ∧
    (∃ (s : State), s.slkUp = true) ∧
    (∃ (s : State), s.isOwner = true ∧ s.slkUp = true ∧ s.jnlRefuses = false ∧ s.jnlCrit = false) ∧
    (∃ (s : State), s.isOwner = false ∧ s.slkUp = true ∧ s.jnl.resync = false) ∧
    (∃ (w : Writer) (s : State), admits s w Reg.SLK_CTL 32 (s.reg Reg.SLK_CTL % 2 + 2) = true ∧ s.isOwner = false ∧ s.jnl.resync = false ∧ s.slkUp = true) ∧
    (∃ (w : Writer) (s : State), admits s w Reg.SLK_CTL 32 (s.reg Reg.SLK_CTL % 2 + 2) = true ∧ (s.isOwner = true ∨ s.jnl.resync = true)) ∧
    (∃ (s : State), s.jnl.resync = true ∧ s.slkUp = true) ∧
    (∃ (w : Writer) (v : Word) (s : State), admits s w Reg.SLK_CTL 32 (BitVec.toNat v) = true ∧ bitOf (BitVec.toNat v) 1 = false ∧ BitVec.toNat v % 2 = 0) ∧
    (∃ (w : Writer) (v : Word) (s : State), admits s w Reg.SLK_CTL 32 (BitVec.toNat v) = true ∧ bitOf (BitVec.toNat v) 1 = false ∧ BitVec.toNat v % 2 = 1 ∧ s.fld Reg.SLK_STS 0 3 = 6) ∧
    (∃ (s : State), s.fld Reg.SLK_STS 0 3 ≠ 0) ∧
    (∃ (s : State), s.restoring = true ∧ s.runningPat = none ∧ s.seq.store ≠ [] ∧ s.clp.patTries < 2 ∧ s.storeIsOwners = false) ∧
    (∃ (s : State), s.restoring = true ∧ s.runningPat = none ∧ s.seq.store ≠ [] ∧ s.clp.patTries < 2 ∧ s.storeIsOwners = true) ∧
    (∃ (s : State), s.restoring = true ∧ s.runningPat.isSome = true ∧ s.usableCameo = none) ∧
    (∃ (s : State) (c : JRec) (q : Fv × Fv) (d : List Byte) (a : Nat) (n : Nat), s.restoring = true ∧ s.runningPat.isSome = true ∧ s.usableCameo = some (c, q) ∧ objectOf s.jnlRecs c = some d ∧ s.keepRegions = [(a, n)] ∧ n ≤ d.length) ∧
    (∃ (t : Nat) (a : Nat) (s : State), s.clp.cameoAt = some a ∧ s.patternActive = true ∧ a + 2000000000 ≤ max s.now t) := by
  refine ⟨?_, ?_, ?_, ?_, ?_, ?_, ?_, ?_, ?_, ?_, ?_, ?_, ?_, ?_, ?_, ?_, ?_, ?_, ?_⟩
  · refine ⟨⟨standby.ownCode, 0xABCDEF0123456789⟩, standby, ?_⟩; decide +kernel
  · refine ⟨⟨.B, 0xABCDEF0123456789⟩, standby, ?_⟩; decide +kernel
  · refine ⟨planRec 9 1796580712, standby, ?_, ?_⟩
    · decide +kernel
    · rw [planWhole, planRec_ok_9]; decide +kernel
  · refine ⟨(planRec 9 1796580712).take 100, standby, ?_⟩; decide +kernel
  · refine ⟨standby, ?_⟩; decide +kernel
  · refine ⟨{ (rs (owner) [(Reg.SLK_CTL, 1), (Reg.SLK_STS, 0x3C)] : State) with jnl := { (rs (owner) [(Reg.SLK_CTL, 1), (Reg.SLK_STS, 0x3C)]).jnl with unacked := [4, 5, 6] } }, ?_⟩; decide +kernel
  · refine ⟨rs (owner) [(Reg.SLK_CTL, 1), (Reg.SLK_STS, 0x3C)], ?_⟩; decide +kernel
  · refine ⟨standby, ?_⟩; decide +kernel
  · refine ⟨nug, standby, ?_⟩; decide +kernel
  · refine ⟨nug, owner, ?_⟩; decide +kernel
  · refine ⟨{ (standby : State) with jnl := { (standby).jnl with resync := true } }, ?_⟩; decide +kernel
  · refine ⟨nug, 0, rs (owner) [(Reg.SLK_CTL, 1), (Reg.SLK_STS, 0x3C)], ?_⟩; decide +kernel
  · refine ⟨nug, 1, rs (standby) [(Reg.SLK_CTL, 0), (Reg.SLK_STS, 6)], ?_⟩; decide +kernel
  · refine ⟨standby, ?_⟩; decide +kernel
  · refine ⟨{ ({ rs (owner) [(Reg.BLK_STS 0x10, 0), (Reg.JNL_STS, 1)] with seq := { up.seq with store := List.replicate 64 1#8 } } : State) with jnl := { ({ rs (owner) [(Reg.BLK_STS 0x10, 0), (Reg.JNL_STS, 1)] with seq := { up.seq with store := List.replicate 64 1#8 } }).jnl with log := [(4, ⟨0x18, 3, 5, 0x10, false, false, false, false, List.replicate 19 2#8⟩)] } }, ?_⟩; decide +kernel
  · refine ⟨{ rs (owner) [(Reg.BLK_STS 0x10, 0), (Reg.JNL_STS, 1)] with seq := { up.seq with store := List.replicate 64 1#8 } }, ?_⟩; decide +kernel
  · refine ⟨rs (owner) [(Reg.BLK_STS 0x10, 0), (Reg.JNL_STS, 1)], ?_⟩; decide +kernel
  · refine ⟨cameoed, cameoRec, (Fv.ofNat 3, Fv.ofNat 4), List.replicate 64 5#8, 0x1000, 64, ?_⟩; decide +kernel
  · refine ⟨2000008000, 8000, { (running : State) with clp := { (running).clp with cameoAt := some 8000, restoreAt := some 5 } }, ?_⟩; decide +kernel

theorem witness_MailboxesPostFetchAndAcknowledge :
    (∃ (a : Nat) (w : Writer) (n : Fin 64) (s : State), admits s w (Reg.MBX_POST (mbxPageOf n)) 32 (↑n % 16) = true ∧ s.baseUp = true ∧ agentOf w.path = some a ∧ apart s n ∧ s.mbxAdmits (↑n) a = true ∧ s.mbxRx ↑n ≠ 4) ∧
    (∃ (a : Nat) (w : Writer) (n : Fin 64) (s : State), admits s w (Reg.MBX_POST (mbxPageOf n)) 32 (↑n % 16) = true ∧ s.baseUp = true ∧ agentOf w.path = some a ∧ apart s n ∧ s.mbxAdmits (↑n) a = true ∧ s.mbxRx ↑n = 4 ∧ a ≠ 4 ∧ s.slkUp = true) ∧
    (∃ (a : Nat) (w : Writer) (n : Fin 64) (s : State), admits s w (Reg.MBX_POST (mbxPageOf n)) 32 (↑n % 16) = true ∧ s.baseUp = true ∧ agentOf w.path = some a ∧ apart s n ∧ s.mbxAdmits (↑n) a = true ∧ s.mbxRx ↑n = 4 ∧ a ≠ 4 ∧ s.slkUp = false) ∧
    (∃ (a : Nat) (w : Writer) (n : Fin 64) (s : State), admits s w (Reg.MBX_POST (mbxPageOf n)) 32 (↑n % 16) = true ∧ s.baseUp = true ∧ agentOf w.path = some a ∧ apart s n ∧ s.mbxAdmits (↑n) a = false ∧ ↑n ≠ 40 ∧ w.path ≠ Path.slot) ∧
    (∃ (a : Nat) (w : Writer) (n : Fin 64) (s : State), admits s w (Reg.MBX_POST (mbxPageOf n)) 32 (↑n % 16) = true ∧ s.baseUp = true ∧ agentOf w.path = some a ∧ apart s n ∧ s.mbxAdmits (↑n) a = false ∧ w.path = Path.slot) ∧
    (∃ (w : Writer) (n : Fin 64) (s : State), admits s w (Reg.MBX_POST (mbxPageOf n)) 32 (↑n % 16) = true ∧ w.path = Path.slot ∧ s.baseUp = false ∧ s.mbxAdmits (↑n) 4 = true) ∧
    (∃ (w : Writer) (n : Fin 64) (s : State), admits s w (Reg.MBX_POST (mbxPageOf n)) 32 (↑n % 16) = true ∧ agentOf w.path = none ∧ ↑n ≠ 40) ∧
    (∃ (w : Writer) (n : Fin 64) (s : State), admits s w (Reg.MBX_FETCH (mbxPageOf n)) 32 (↑n % 16) = true ∧ s.pathReceives w.path ↑n = true ∧ apart s n) ∧
    (∃ (w : Writer) (n : Fin 64) (s : State), admits s w (Reg.MBX_FETCH (mbxPageOf n)) 32 (↑n % 16) = true ∧ s.pathReceives w.path ↑n = false ∧ ↑n ≠ 40) ∧
    (∃ (w : Writer) (n : Fin 64) (v : Word) (s : State), admits s w (Reg.MBX_ACK ↑n) 32 (BitVec.toNat v) = true ∧ s.mayAck w.path n = true ∧ apart s n) ∧
    (∃ (w : Writer) (n : Fin 64) (v : Word) (s : State), admits s w (Reg.MBX_ACK ↑n) 32 (BitVec.toNat v) = true ∧ s.mayAck w.path n = false ∧ ↑n ≠ 40) ∧
    (∃ (w : Writer) (pg : Fin 4) (v : Word) (s : State), admits s w (Reg.MBX_WDATA ↑pg) 32 (BitVec.toNat v) = true) ∧
    (∃ (w : Writer) (s : State), s.basePowered = true ∧ w.path ≠ Path.lining ∧ (w.path ≠ Path.jtag ∨ lcJtag s.lc = true)) ∧
    (∃ (b : BitVec 16) (s : State), s.seq.body.active = true ∧ s.mbxAdmits (↑(mbpBox b)) 1 = true ∧ s.mbxRx ↑(mbpBox b) ≠ 4) ∧
    (∃ (b : BitVec 16) (s : State), s.seq.body.active = true ∧ s.mbxAdmits (↑(mbpBox b)) 1 = false ∧ ↑(mbpBox b) ≠ 40) ∧
    (∃ (b : BitVec 16) (s : State), s.seq.body.active = true ∧ s.pathReceives Path.mbp ↑(mbpBox b) = true) ∧
    (∃ (b : BitVec 16) (s : State), s.seq.body.active = true ∧ s.pathReceives Path.mbp ↑(mbpBox b) = false) ∧
    (∃ (b : BitVec 16) (s : State), s.seq.body.active = true ∧ s.mayAck Path.mbp (mbpBox b) = true ∧ apart s (mbpBox b) ∧ admits s mbpWriter (Reg.MBX_ACK ↑(mbpBox b)) 32 (s.le (s.mbpAddr b) 2) = true) ∧
    (∃ (n : Fin 64) (s : State), s.baseUp = true ∧ s.pulseUp = true ∧ s.mbxRx ↑n = 2 ∧ s.bit (Reg.MBX_STS ↑n) 0 = true ∧ s.coefCode s.mbx.box[n].msg.toNat ≠ 0) ∧
    (∃ (n : Fin 64) (s : State), s.baseUp = true ∧ s.pulseUp = true ∧ s.mbxRx ↑n = 2 ∧ s.bit (Reg.MBX_STS ↑n) 0 = true ∧ s.coefCode s.mbx.box[n].msg.toNat = 0) := by
  refine ⟨?_, ?_, ?_, ?_, ?_, ?_, ?_, ?_, ?_, ?_, ?_, ?_, ?_, ?_, ?_, ?_, ?_, ?_, ?_, ?_⟩
  · refine ⟨0, nug, 17, { (rs (rs (up) [(Reg.NUG_STS, 1), (Reg.SLK_CTL, 1), (Reg.SLK_STS, 0x1C), (Reg.MGP_CTL, 7)]) [(Reg.MBX_CFG 17, 73473)] : State) with mbx := { (rs (rs (up) [(Reg.NUG_STS, 1), (Reg.SLK_CTL, 1), (Reg.SLK_STS, 0x1C), (Reg.MGP_CTL, 7)]) [(Reg.MBX_CFG 17, 73473)]).mbx with staging := (rs (rs (up) [(Reg.NUG_STS, 1), (Reg.SLK_CTL, 1), (Reg.SLK_STS, 0x1C), (Reg.MGP_CTL, 7)]) [(Reg.MBX_CFG 17, 73473)]).mbx.staging.set 0 0x1234 } }, ?_⟩; simp only [apart]; decide +kernel
  · refine ⟨0, nug, 17, { (rs (rs (up) [(Reg.NUG_STS, 1), (Reg.SLK_CTL, 1), (Reg.SLK_STS, 0x1C), (Reg.MGP_CTL, 7)]) [(Reg.MBX_CFG 17, 16523012)] : State) with mbx := { (rs (rs (up) [(Reg.NUG_STS, 1), (Reg.SLK_CTL, 1), (Reg.SLK_STS, 0x1C), (Reg.MGP_CTL, 7)]) [(Reg.MBX_CFG 17, 16523012)]).mbx with staging := (rs (rs (up) [(Reg.NUG_STS, 1), (Reg.SLK_CTL, 1), (Reg.SLK_STS, 0x1C), (Reg.MGP_CTL, 7)]) [(Reg.MBX_CFG 17, 16523012)]).mbx.staging.set 0 0x1234 } }, ?_⟩; simp only [apart]; decide +kernel
  · refine ⟨0, nug, 17, { (rs (rs (rs (up) [(Reg.NUG_STS, 1), (Reg.SLK_CTL, 1), (Reg.SLK_STS, 0x1C), (Reg.MGP_CTL, 7)]) [(Reg.SLK_STS, 0)]) [(Reg.MBX_CFG 17, 16523012)] : State) with mbx := { (rs (rs (rs (up) [(Reg.NUG_STS, 1), (Reg.SLK_CTL, 1), (Reg.SLK_STS, 0x1C), (Reg.MGP_CTL, 7)]) [(Reg.SLK_STS, 0)]) [(Reg.MBX_CFG 17, 16523012)]).mbx with staging := (rs (rs (rs (up) [(Reg.NUG_STS, 1), (Reg.SLK_CTL, 1), (Reg.SLK_STS, 0x1C), (Reg.MGP_CTL, 7)]) [(Reg.SLK_STS, 0)]) [(Reg.MBX_CFG 17, 16523012)]).mbx.staging.set 0 0x1234 } }, ?_⟩; simp only [apart]; decide +kernel
  · refine ⟨0, nug, 0, rs (rs (up) [(Reg.NUG_STS, 1), (Reg.SLK_CTL, 1), (Reg.SLK_STS, 0x1C), (Reg.MGP_CTL, 7)]) [(Reg.MBX_CFG 0, 7682)], ?_⟩; simp only [apart]; decide +kernel
  · refine ⟨4, peer, 0, rs (rs (up) [(Reg.NUG_STS, 1), (Reg.SLK_CTL, 1), (Reg.SLK_STS, 0x1C), (Reg.MGP_CTL, 7)]) [(Reg.MBX_CFG 0, 3842)], ?_⟩; simp only [apart]; decide +kernel
  · refine ⟨peer, 5, { ({ (rs (up) [(Reg.MBX_CFG 5, 7936)] : State) with pw := { up.pw with base := .off, island := true } } : State) with mbx := { ({ (rs (up) [(Reg.MBX_CFG 5, 7936)] : State) with pw := { up.pw with base := .off, island := true } }).mbx with heldMsgs := [(1,1),(1,2),(2,2),(3,3)] } }, ?_⟩; decide +kernel
  · refine ⟨⟨.uart, 0, .admin⟩, 17, { (rs (up) [(Reg.NUG_STS, 1), (Reg.SLK_CTL, 1), (Reg.SLK_STS, 0x1C), (Reg.MGP_CTL, 7)] : State) with lc := .returned }, ?_⟩; decide +kernel
  · refine ⟨nug, 0, { (rs (rs (rs (up) [(Reg.NUG_STS, 1), (Reg.SLK_CTL, 1), (Reg.SLK_STS, 0x1C), (Reg.MGP_CTL, 7)]) [(Reg.MBX_CFG 0, 7936), (Reg.MBX_STS 0, 0)]) [(Reg.MBX_SEQ 0, 9)] : State) with mbx := { (rs (rs (rs (up) [(Reg.NUG_STS, 1), (Reg.SLK_CTL, 1), (Reg.SLK_STS, 0x1C), (Reg.MGP_CTL, 7)]) [(Reg.MBX_CFG 0, 7936), (Reg.MBX_STS 0, 0)]) [(Reg.MBX_SEQ 0, 9)]).mbx with box := ((rs (rs (rs (up) [(Reg.NUG_STS, 1), (Reg.SLK_CTL, 1), (Reg.SLK_STS, 0x1C), (Reg.MGP_CTL, 7)]) [(Reg.MBX_CFG 0, 7936), (Reg.MBX_STS 0, 0)]) [(Reg.MBX_SEQ 0, 9)]).mbx.box.set 0 { (rs (rs (rs (up) [(Reg.NUG_STS, 1), (Reg.SLK_CTL, 1), (Reg.SLK_STS, 0x1C), (Reg.MGP_CTL, 7)]) [(Reg.MBX_CFG 0, 7936), (Reg.MBX_STS 0, 0)]) [(Reg.MBX_SEQ 0, 9)]).mbx.box[0] with msg := 0x55AA }) } }, ?_⟩; simp only [apart]; decide +kernel
  · refine ⟨nug, 0, rs (rs (up) [(Reg.NUG_STS, 1), (Reg.SLK_CTL, 1), (Reg.SLK_STS, 0x1C), (Reg.MGP_CTL, 7)]) [(Reg.MBX_CFG 0, 7938)], ?_⟩; decide +kernel
  · refine ⟨nug, 0, 0x0102, { (rs (rs (rs (up) [(Reg.NUG_STS, 1), (Reg.SLK_CTL, 1), (Reg.SLK_STS, 0x1C), (Reg.MGP_CTL, 7)]) [(Reg.MBX_CFG 0, 7936), (Reg.MBX_STS 0, 1)]) [(Reg.MBX_SEQ 0, 9), (Reg.MBX_FETCH_SEQ 0, 9)] : State) with mbx := { (rs (rs (rs (up) [(Reg.NUG_STS, 1), (Reg.SLK_CTL, 1), (Reg.SLK_STS, 0x1C), (Reg.MGP_CTL, 7)]) [(Reg.MBX_CFG 0, 7936), (Reg.MBX_STS 0, 1)]) [(Reg.MBX_SEQ 0, 9), (Reg.MBX_FETCH_SEQ 0, 9)]).mbx with box := ((rs (rs (rs (up) [(Reg.NUG_STS, 1), (Reg.SLK_CTL, 1), (Reg.SLK_STS, 0x1C), (Reg.MGP_CTL, 7)]) [(Reg.MBX_CFG 0, 7936), (Reg.MBX_STS 0, 1)]) [(Reg.MBX_SEQ 0, 9), (Reg.MBX_FETCH_SEQ 0, 9)]).mbx.box.set 0 { (rs (rs (rs (up) [(Reg.NUG_STS, 1), (Reg.SLK_CTL, 1), (Reg.SLK_STS, 0x1C), (Reg.MGP_CTL, 7)]) [(Reg.MBX_CFG 0, 7936), (Reg.MBX_STS 0, 1)]) [(Reg.MBX_SEQ 0, 9), (Reg.MBX_FETCH_SEQ 0, 9)]).mbx.box[0] with msg := 0x55AA, fetched := true, fromAgent := 4 }) } }, ?_⟩; simp only [apart]; decide +kernel
  · refine ⟨nug, 0, 5, rs (rs (up) [(Reg.NUG_STS, 1), (Reg.SLK_CTL, 1), (Reg.SLK_STS, 0x1C), (Reg.MGP_CTL, 7)]) [(Reg.MBX_CFG 0, 7936), (Reg.MBX_STS 0, 1)], ?_⟩; decide +kernel
  · refine ⟨nug, 0, 0x89ABCDEF, rs (up) [(Reg.NUG_STS, 1), (Reg.SLK_CTL, 1), (Reg.SLK_STS, 0x1C), (Reg.MGP_CTL, 7)], ?_⟩; decide +kernel
  · refine ⟨nug, (rs (up) [(Reg.NUG_STS, 1), (Reg.SLK_CTL, 1), (Reg.SLK_STS, 0x1C), (Reg.MGP_CTL, 7)]).setDsel 0 (nug).path 0x3F5, ?_⟩; decide +kernel
  · refine ⟨8128, rs ({ (rs (running) [(Reg.NUG_STS, 1), (Reg.SLK_CTL, 1), (Reg.SLK_STS, 0x1C)] : State) with seq := { running.seq with bank0 := ⟨.active, some { pat0 with mbxDesc := [0x2000, 0x3000] }, 0, 0, []⟩, body := { running.seq.body with active := true } } }) [(Reg.MBX_CFG 63, 7938)], ?_⟩; decide +kernel
  · refine ⟨8128, rs ({ (rs (running) [(Reg.NUG_STS, 1), (Reg.SLK_CTL, 1), (Reg.SLK_STS, 0x1C)] : State) with seq := { running.seq with bank0 := ⟨.active, some { pat0 with mbxDesc := [0x2000, 0x3000] }, 0, 0, []⟩, body := { running.seq.body with active := true } } }) [(Reg.MBX_CFG 63, 7424)], ?_⟩; decide +kernel
  · refine ⟨8128, rs ({ (rs (running) [(Reg.NUG_STS, 1), (Reg.SLK_CTL, 1), (Reg.SLK_STS, 0x1C)] : State) with seq := { running.seq with bank0 := ⟨.active, some { pat0 with mbxDesc := [0x2000, 0x3000] }, 0, 0, []⟩, body := { running.seq.body with active := true } } }) [(Reg.MBX_CFG 63, 7937), (Reg.MBX_STS 63, 1)], ?_⟩; decide +kernel
  · refine ⟨8128, rs ({ (rs (running) [(Reg.NUG_STS, 1), (Reg.SLK_CTL, 1), (Reg.SLK_STS, 0x1C)] : State) with seq := { running.seq with bank0 := ⟨.active, some { pat0 with mbxDesc := [0x2000, 0x3000] }, 0, 0, []⟩, body := { running.seq.body with active := true } } }) [(Reg.MBX_CFG 63, 7936), (Reg.MBX_STS 63, 1)], ?_⟩; decide +kernel
  · refine ⟨8128, mb ({ (rs ({ (rs (running) [(Reg.NUG_STS, 1), (Reg.SLK_CTL, 1), (Reg.SLK_STS, 0x1C)] : State) with seq := { running.seq with bank0 := ⟨.active, some { pat0 with mbxDesc := [0x2000, 0x3000] }, 0, 0, []⟩, body := { running.seq.body with active := true } } }) [(Reg.MBX_CFG 63, 7937), (Reg.MBX_STS 63, 1)] : State) with mbx := { (rs ({ (rs (running) [(Reg.NUG_STS, 1), (Reg.SLK_CTL, 1), (Reg.SLK_STS, 0x1C)] : State) with seq := { running.seq with bank0 := ⟨.active, some { pat0 with mbxDesc := [0x2000, 0x3000] }, 0, 0, []⟩, body := { running.seq.body with active := true } } }) [(Reg.MBX_CFG 63, 7937), (Reg.MBX_STS 63, 1)]).mbx with box := ((rs ({ (rs (running) [(Reg.NUG_STS, 1), (Reg.SLK_CTL, 1), (Reg.SLK_STS, 0x1C)] : State) with seq := { running.seq with bank0 := ⟨.active, some { pat0 with mbxDesc := [0x2000, 0x3000] }, 0, 0, []⟩, body := { running.seq.body with active := true } } }) [(Reg.MBX_CFG 63, 7937), (Reg.MBX_STS 63, 1)]).mbx.box.set 63 { (rs ({ (rs (running) [(Reg.NUG_STS, 1), (Reg.SLK_CTL, 1), (Reg.SLK_STS, 0x1C)] : State) with seq := { running.seq with bank0 := ⟨.active, some { pat0 with mbxDesc := [0x2000, 0x3000] }, 0, 0, []⟩, body := { running.seq.body with active := true } } }) [(Reg.MBX_CFG 63, 7937), (Reg.MBX_STS 63, 1)]).mbx.box[63] with msg := 0x55AA, fetched := true }) } }) 0x3000 [0x41,0x02], ?_⟩; simp only [apart]; decide +kernel
  · refine ⟨20, { (rs (rs (rs (up) [(Reg.NUG_STS, 1), (Reg.SLK_CTL, 1), (Reg.SLK_STS, 0x1C), (Reg.MGP_CTL, 7)]) [(Reg.MBX_CFG 20, 7938), (Reg.MBX_STS 20, 1)]) [(Reg.MBX_SEQ 20, 6)] : State) with mbx := { (rs (rs (rs (up) [(Reg.NUG_STS, 1), (Reg.SLK_CTL, 1), (Reg.SLK_STS, 0x1C), (Reg.MGP_CTL, 7)]) [(Reg.MBX_CFG 20, 7938), (Reg.MBX_STS 20, 1)]) [(Reg.MBX_SEQ 20, 6)]).mbx with box := ((rs (rs (rs (up) [(Reg.NUG_STS, 1), (Reg.SLK_CTL, 1), (Reg.SLK_STS, 0x1C), (Reg.MGP_CTL, 7)]) [(Reg.MBX_CFG 20, 7938), (Reg.MBX_STS 20, 1)]) [(Reg.MBX_SEQ 20, 6)]).mbx.box.set 20 { (rs (rs (rs (up) [(Reg.NUG_STS, 1), (Reg.SLK_CTL, 1), (Reg.SLK_STS, 0x1C), (Reg.MGP_CTL, 7)]) [(Reg.MBX_CFG 20, 7938), (Reg.MBX_STS 20, 1)]) [(Reg.MBX_SEQ 20, 6)]).mbx.box[20] with msg := 0x01000140 }) } }, ?_⟩; decide +kernel
  · refine ⟨20, { (rs (rs (rs (up) [(Reg.NUG_STS, 1), (Reg.SLK_CTL, 1), (Reg.SLK_STS, 0x1C), (Reg.MGP_CTL, 7)]) [(Reg.MBX_CFG 20, 7938), (Reg.MBX_STS 20, 1)]) [(Reg.MBX_SEQ 20, 6)] : State) with mbx := { (rs (rs (rs (up) [(Reg.NUG_STS, 1), (Reg.SLK_CTL, 1), (Reg.SLK_STS, 0x1C), (Reg.MGP_CTL, 7)]) [(Reg.MBX_CFG 20, 7938), (Reg.MBX_STS 20, 1)]) [(Reg.MBX_SEQ 20, 6)]).mbx with box := ((rs (rs (rs (up) [(Reg.NUG_STS, 1), (Reg.SLK_CTL, 1), (Reg.SLK_STS, 0x1C), (Reg.MGP_CTL, 7)]) [(Reg.MBX_CFG 20, 7938), (Reg.MBX_STS 20, 1)]) [(Reg.MBX_SEQ 20, 6)]).mbx.box.set 20 { (rs (rs (rs (up) [(Reg.NUG_STS, 1), (Reg.SLK_CTL, 1), (Reg.SLK_STS, 0x1C), (Reg.MGP_CTL, 7)]) [(Reg.MBX_CFG 20, 7938), (Reg.MBX_STS 20, 1)]) [(Reg.MBX_SEQ 20, 6)]).mbx.box[20] with msg := 0x11223344aabbccdd0000000002030109 }) } }, ?_⟩; decide +kernel

theorem witness_SessionsDoorbellsAndNugensCores :
    (∃ (t : Nat) (i : Fin 64) (n : Fin 64) (m : Message) (c : BitVec 16) (e : SessSt) (s : State) (k : Instr), (s.nug.sess[i] = some e ∧ e.doorbell = true ∧ s.baseUp = true ∧ s.mgmtUp = true ∧ s.bit Reg.MGP_CTL 2 = true ∧ 1000 ≤ ((s.at t).recentOps e).length) ∧ k ∈ [Instr.doorbellPost t i n m, Instr.doorbellFetch t i n, Instr.doorbellAck t i n c]) ∧
    (∃ (t : Nat) (i : Fin 64) (n : Fin 64) (e : SessSt) (s : State), s.nug.sess[i] = some e ∧ e.doorbell = true ∧ s.baseUp = true ∧ s.mgmtUp = true ∧ s.bit Reg.MGP_CTL 2 = true ∧ ((s.at t).recentOps e).length < 1000 ∧ s.mbxAdmits (↑n) 3 = true ∧ s.mbxRx ↑n ≠ 4) ∧
    (∃ (t : Nat) (i : Fin 64) (n : Fin 64) (e : SessSt) (s : State), s.nug.sess[i] = some e ∧ e.doorbell = true ∧ s.baseUp = true ∧ s.mgmtUp = true ∧ s.bit Reg.MGP_CTL 2 = true ∧ ((s.at t).recentOps e).length < 1000 ∧ s.mbxRx ↑n = 3) ∧
    (∃ (t : Nat) (i : Fin 64) (n : Fin 64) (e : SessSt) (s : State), s.nug.sess[i] = some e ∧ e.doorbell = true ∧ s.baseUp = true ∧ s.mgmtUp = true ∧ s.bit Reg.MGP_CTL 2 = true ∧ ((s.at t).recentOps e).length < 1000 ∧ s.mbxAdmits (↑n) 3 = false) ∧
    (∃ (t : Nat) (i : Fin 64) (n : Fin 64) (e : SessSt) (s : State), s.nug.sess[i] = some e ∧ e.doorbell = true ∧ s.baseUp = true ∧ s.mgmtUp = true ∧ s.bit Reg.MGP_CTL 2 = true ∧ ((s.at t).recentOps e).length < 1000 ∧ s.mbxRx ↑n ≠ 3) ∧
    (∃ (t : Nat) (i : Fin 64) (n : Fin 64) (e : SessSt) (s : State), s.nug.sess[i] = some e ∧ e.doorbell = true ∧ s.baseUp = true ∧ s.mgmtUp = true ∧ s.bit Reg.MGP_CTL 2 = true ∧ ((s.at t).recentOps e).length < 1000 ∧ s.mayAck Path.mgmt n = true) ∧
    (∃ (t : Nat) (i : Fin 64) (n : Fin 64) (e : SessSt) (s : State), s.nug.sess[i] = some e ∧ e.doorbell = true ∧ s.baseUp = true ∧ s.mgmtUp = true ∧ s.bit Reg.MGP_CTL 2 = true ∧ ((s.at t).recentOps e).length < 1000 ∧ s.mayAck Path.mgmt n = false ∧ ↑n ≠ 40) ∧
    (∃ (h : TlsHello) (s : State), s.nugRuns = true ∧ s.mgmtUp = true ∧ admitRole s.lc h = none) ∧
    (∃ (h : TlsHello) (s : State) (r : Role) (i : Fin 64), s.nugRuns = true ∧ s.mgmtUp = true ∧ admitRole s.lc h = some r ∧ s.sessOpen < s.reg Reg.MGP_SESS_MAX ∧ s.freeSess = some i) ∧
    (∃ (h : TlsHello) (s : State) (r : Role), s.nugRuns = true ∧ s.mgmtUp = true ∧ admitRole s.lc h = some r ∧ s.reg Reg.MGP_SESS_MAX ≤ s.sessOpen) ∧
    (∃ (i : Fin 64) (e : SessSt) (s : State), s.nug.sess[i] = some e ∧ s.nugRuns = true ∧ s.mgmtUp = true ∧ s.bit Reg.MGP_CTL 1 = true ∧ s.bit Reg.NUG_STS 3 = false) ∧
    (∃ (i : Fin 64) (q : RedfishReq) (e : SessSt) (s : State), s.nug.sess[i] = some e ∧ s.nugRuns = true ∧ s.mgmtUp = true ∧ s.bit Reg.MGP_CTL 1 = true ∧ s.bit Reg.NUG_STS 3 = true ∧ q.tenant = true) ∧
    (∃ (i : Fin 64) (q : RedfishReq) (e : SessSt) (s : State), s.nug.sess[i] = some e ∧ s.nugRuns = true ∧ s.mgmtUp = true ∧ s.bit Reg.MGP_CTL 1 = true ∧ s.bit Reg.NUG_STS 3 = true ∧ q.tenant = false ∧ q.ask = RedfishAsk.get) ∧
    (∃ (i : Fin 64) (q : RedfishReq) (e : SessSt) (s : State) (on : Bool), s.nug.sess[i] = some e ∧ s.nugRuns = true ∧ s.mgmtUp = true ∧ s.bit Reg.MGP_CTL 1 = true ∧ s.bit Reg.NUG_STS 3 = true ∧ q.tenant = false ∧ q.ask = RedfishAsk.subscribe on) ∧
    (∃ (i : Fin 64) (q : RedfishReq) (e : SessSt) (s : State) (g : BitVec 32) (c : SvcCmd), s.nug.sess[i] = some e ∧ s.nugRuns = true ∧ s.mgmtUp = true ∧ s.bit Reg.MGP_CTL 1 = true ∧ s.bit Reg.NUG_STS 3 = true ∧ q.tenant = false ∧ q.ask = RedfishAsk.write g c ∧ svcRole s.lc c e.role = false) ∧
    (∃ (t : Nat) (s : State), s.baseUp = true ∧ s.bit Reg.NUG_STS 0 = true ∧ s.nug.kickAt + s.reg Reg.NUG_WDOG * 1000000 ≤ max s.now t) ∧
    (∃ (t : Nat) (s : State), s.baseUp = true ∧ s.bit Reg.NUG_STS 0 = true ∧ max s.now t < s.nug.kickAt + s.reg Reg.NUG_WDOG * 1000000) ∧
    (∃ (w : Writer) (v : Word) (s : State), admits s w Reg.NUG_WDOG_KICK 32 (BitVec.toNat v) = true) ∧
    (∃ (w : Writer) (s : State), admits s w Reg.NUG_CTL 32 2 = true ∧ s.baseUp = true) ∧
    (∃ (w : Writer) (s : State), admits s w Reg.NUG_CTL 32 1 = true ∧ s.baseUp = true ∧ (s.clp.role ≠ 1 ∨ s.clp.peerValid = false)) ∧
    (∃ (w : Writer) (s : State), admits s w Reg.NUG_CTL 32 1 = true ∧ s.baseUp = true ∧ s.clp.role = 1 ∧ s.clp.peerValid = true) ∧
    (∃ (t : Nat) (s : State), s.baseUp = true ∧ s.clp.role = 1 ∧ s.clp.peerValid = true ∧ s.pw.lastService + 600000000000 ≤ max s.now t) ∧
    (∃ (t : Nat) (s : State), s.baseUp = true ∧ s.clp.role = 1 ∧ s.clp.peerValid = true ∧ max s.now t < s.pw.lastService + 600000000000) := by
  refine ⟨?_, ?_, ?_, ?_, ?_, ?_, ?_, ?_, ?_, ?_, ?_, ?_, ?_, ?_, ?_, ?_, ?_, ?_, ?_, ?_, ?_, ?_, ?_⟩
  · refine ⟨8000, 5, 20, 9, 9, ⟨.operator, true, false, List.replicate 1000 7000, 3, 200⟩, { (rs (up) [(Reg.NUG_STS, 1), (Reg.SLK_CTL, 1), (Reg.SLK_STS, 0x1C), (Reg.MGP_CTL, 7)] : State) with nug := { (rs (up) [(Reg.NUG_STS, 1), (Reg.SLK_CTL, 1), (Reg.SLK_STS, 0x1C), (Reg.MGP_CTL, 7)]).nug with sess := (rs (up) [(Reg.NUG_STS, 1), (Reg.SLK_CTL, 1), (Reg.SLK_STS, 0x1C), (Reg.MGP_CTL, 7)]).nug.sess.set 5 (some ⟨.operator, true, false, List.replicate 1000 7000, 3, 200⟩) } }, .doorbellFetch 8000 5 20, ?_, ?_⟩
    · decide +kernel
    · simp
  · refine ⟨8000, 5, 20, ⟨.operator, true, false, [], 3, 200⟩, { (rs (rs (up) [(Reg.NUG_STS, 1), (Reg.SLK_CTL, 1), (Reg.SLK_STS, 0x1C), (Reg.MGP_CTL, 7)]) [(Reg.MBX_CFG 20, 2048), (Reg.MBX_STS 20, 0)] : State) with nug := { (rs (rs (up) [(Reg.NUG_STS, 1), (Reg.SLK_CTL, 1), (Reg.SLK_STS, 0x1C), (Reg.MGP_CTL, 7)]) [(Reg.MBX_CFG 20, 2048), (Reg.MBX_STS 20, 0)]).nug with sess := (rs (rs (up) [(Reg.NUG_STS, 1), (Reg.SLK_CTL, 1), (Reg.SLK_STS, 0x1C), (Reg.MGP_CTL, 7)]) [(Reg.MBX_CFG 20, 2048), (Reg.MBX_STS 20, 0)]).nug.sess.set 5 (some ⟨.operator, true, false, [], 3, 200⟩) } }, ?_⟩; decide +kernel
  · refine ⟨8000, 5, 20, ⟨.operator, true, false, [], 3, 200⟩, { (rs (rs (up) [(Reg.NUG_STS, 1), (Reg.SLK_CTL, 1), (Reg.SLK_STS, 0x1C), (Reg.MGP_CTL, 7)]) [(Reg.MBX_CFG 20, 2051), (Reg.MBX_STS 20, 0)] : State) with nug := { (rs (rs (up) [(Reg.NUG_STS, 1), (Reg.SLK_CTL, 1), (Reg.SLK_STS, 0x1C), (Reg.MGP_CTL, 7)]) [(Reg.MBX_CFG 20, 2051), (Reg.MBX_STS 20, 0)]).nug with sess := (rs (rs (up) [(Reg.NUG_STS, 1), (Reg.SLK_CTL, 1), (Reg.SLK_STS, 0x1C), (Reg.MGP_CTL, 7)]) [(Reg.MBX_CFG 20, 2051), (Reg.MBX_STS 20, 0)]).nug.sess.set 5 (some ⟨.operator, true, false, [], 3, 200⟩) } }, ?_⟩; decide +kernel
  · refine ⟨8000, 5, 20, ⟨.operator, true, false, [], 3, 200⟩, { (rs (rs (up) [(Reg.NUG_STS, 1), (Reg.SLK_CTL, 1), (Reg.SLK_STS, 0x1C), (Reg.MGP_CTL, 7)]) [(Reg.MBX_CFG 20, 1792)] : State) with nug := { (rs (rs (up) [(Reg.NUG_STS, 1), (Reg.SLK_CTL, 1), (Reg.SLK_STS, 0x1C), (Reg.MGP_CTL, 7)]) [(Reg.MBX_CFG 20, 1792)]).nug with sess := (rs (rs (up) [(Reg.NUG_STS, 1), (Reg.SLK_CTL, 1), (Reg.SLK_STS, 0x1C), (Reg.MGP_CTL, 7)]) [(Reg.MBX_CFG 20, 1792)]).nug.sess.set 5 (some ⟨.operator, true, false, [], 3, 200⟩) } }, ?_⟩; decide +kernel
  · refine ⟨8000, 5, 20, ⟨.operator, true, false, [], 3, 200⟩, { (rs (rs (up) [(Reg.NUG_STS, 1), (Reg.SLK_CTL, 1), (Reg.SLK_STS, 0x1C), (Reg.MGP_CTL, 7)]) [(Reg.MBX_CFG 20, 1792)] : State) with nug := { (rs (rs (up) [(Reg.NUG_STS, 1), (Reg.SLK_CTL, 1), (Reg.SLK_STS, 0x1C), (Reg.MGP_CTL, 7)]) [(Reg.MBX_CFG 20, 1792)]).nug with sess := (rs (rs (up) [(Reg.NUG_STS, 1), (Reg.SLK_CTL, 1), (Reg.SLK_STS, 0x1C), (Reg.MGP_CTL, 7)]) [(Reg.MBX_CFG 20, 1792)]).nug.sess.set 5 (some ⟨.operator, true, false, [], 3, 200⟩) } }, ?_⟩; decide +kernel
  · refine ⟨8000, 5, 20, ⟨.operator, true, false, [], 3, 200⟩, { ({ (rs (rs (up) [(Reg.NUG_STS, 1), (Reg.SLK_CTL, 1), (Reg.SLK_STS, 0x1C), (Reg.MGP_CTL, 7)]) [(Reg.MBX_CFG 20, 2051), (Reg.MBX_STS 20, 1)] : State) with nug := { (rs (rs (up) [(Reg.NUG_STS, 1), (Reg.SLK_CTL, 1), (Reg.SLK_STS, 0x1C), (Reg.MGP_CTL, 7)]) [(Reg.MBX_CFG 20, 2051), (Reg.MBX_STS 20, 1)]).nug with sess := (rs (rs (up) [(Reg.NUG_STS, 1), (Reg.SLK_CTL, 1), (Reg.SLK_STS, 0x1C), (Reg.MGP_CTL, 7)]) [(Reg.MBX_CFG 20, 2051), (Reg.MBX_STS 20, 1)]).nug.sess.set 5 (some ⟨.operator, true, false, [], 3, 200⟩) } } : State) with mbx := { ({ (rs (rs (up) [(Reg.NUG_STS, 1), (Reg.SLK_CTL, 1), (Reg.SLK_STS, 0x1C), (Reg.MGP_CTL, 7)]) [(Reg.MBX_CFG 20, 2051), (Reg.MBX_STS 20, 1)] : State) with nug := { (rs (rs (up) [(Reg.NUG_STS, 1), (Reg.SLK_CTL, 1), (Reg.SLK_STS, 0x1C), (Reg.MGP_CTL, 7)]) [(Reg.MBX_CFG 20, 2051), (Reg.MBX_STS 20, 1)]).nug with sess := (rs (rs (up) [(Reg.NUG_STS, 1), (Reg.SLK_CTL, 1), (Reg.SLK_STS, 0x1C), (Reg.MGP_CTL, 7)]) [(Reg.MBX_CFG 20, 2051), (Reg.MBX_STS 20, 1)]).nug.sess.set 5 (some ⟨.operator, true, false, [], 3, 200⟩) } }).mbx with box := (({ (rs (rs (up) [(Reg.NUG_STS, 1), (Reg.SLK_CTL, 1), (Reg.SLK_STS, 0x1C), (Reg.MGP_CTL, 7)]) [(Reg.MBX_CFG 20, 2051), (Reg.MBX_STS 20, 1)] : State) with nug := { (rs (rs (up) [(Reg.NUG_STS, 1), (Reg.SLK_CTL, 1), (Reg.SLK_STS, 0x1C), (Reg.MGP_CTL, 7)]) [(Reg.MBX_CFG 20, 2051), (Reg.MBX_STS 20, 1)]).nug with sess := (rs (rs (up) [(Reg.NUG_STS, 1), (Reg.SLK_CTL, 1), (Reg.SLK_STS, 0x1C), (Reg.MGP_CTL, 7)]) [(Reg.MBX_CFG 20, 2051), (Reg.MBX_STS 20, 1)]).nug.sess.set 5 (some ⟨.operator, true, false, [], 3, 200⟩) } }).mbx.box.set 20 { ({ (rs (rs (up) [(Reg.NUG_STS, 1), (Reg.SLK_CTL, 1), (Reg.SLK_STS, 0x1C), (Reg.MGP_CTL, 7)]) [(Reg.MBX_CFG 20, 2051), (Reg.MBX_STS 20, 1)] : State) with nug := { (rs (rs (up) [(Reg.NUG_STS, 1), (Reg.SLK_CTL, 1), (Reg.SLK_STS, 0x1C), (Reg.MGP_CTL, 7)]) [(Reg.MBX_CFG 20, 2051), (Reg.MBX_STS 20, 1)]).nug with sess := (rs (rs (up) [(Reg.NUG_STS, 1), (Reg.SLK_CTL, 1), (Reg.SLK_STS, 0x1C), (Reg.MGP_CTL, 7)]) [(Reg.MBX_CFG 20, 2051), (Reg.MBX_STS 20, 1)]).nug.sess.set 5 (some ⟨.operator, true, false, [], 3, 200⟩) } }).mbx.box[20] with msg := 0x55AA, fetched := true, fromAgent := 4 }) } }, ?_⟩; decide +kernel
  · refine ⟨8000, 5, 20, ⟨.operator, true, false, [], 3, 200⟩, { (rs (rs (up) [(Reg.NUG_STS, 1), (Reg.SLK_CTL, 1), (Reg.SLK_STS, 0x1C), (Reg.MGP_CTL, 7)]) [(Reg.MBX_CFG 20, 2051), (Reg.MBX_STS 20, 1)] : State) with nug := { (rs (rs (up) [(Reg.NUG_STS, 1), (Reg.SLK_CTL, 1), (Reg.SLK_STS, 0x1C), (Reg.MGP_CTL, 7)]) [(Reg.MBX_CFG 20, 2051), (Reg.MBX_STS 20, 1)]).nug with sess := (rs (rs (up) [(Reg.NUG_STS, 1), (Reg.SLK_CTL, 1), (Reg.SLK_STS, 0x1C), (Reg.MGP_CTL, 7)]) [(Reg.MBX_CFG 20, 2051), (Reg.MBX_STS 20, 1)]).nug.sess.set 5 (some ⟨.operator, true, false, [], 3, 200⟩) } }, ?_⟩; decide +kernel
  · refine ⟨⟨false, true, true, [.admin], true⟩, rs (up) [(Reg.NUG_STS, 1), (Reg.SLK_CTL, 1), (Reg.SLK_STS, 0x1C), (Reg.MGP_CTL, 7)], ?_⟩; decide +kernel
  · refine ⟨⟨true, true, true, [.admin], true⟩, rs (up) [(Reg.NUG_STS, 1), (Reg.SLK_CTL, 1), (Reg.SLK_STS, 0x1C), (Reg.MGP_CTL, 7)], .admin, 0, ?_⟩; decide +kernel
  · refine ⟨⟨true, true, true, [.admin], true⟩, { (rs (rs (up) [(Reg.NUG_STS, 1), (Reg.SLK_CTL, 1), (Reg.SLK_STS, 0x1C), (Reg.MGP_CTL, 7)]) [(Reg.MGP_SESS_MAX, 1)] : State) with nug := { (rs (rs (up) [(Reg.NUG_STS, 1), (Reg.SLK_CTL, 1), (Reg.SLK_STS, 0x1C), (Reg.MGP_CTL, 7)]) [(Reg.MGP_SESS_MAX, 1)]).nug with sess := (rs (rs (up) [(Reg.NUG_STS, 1), (Reg.SLK_CTL, 1), (Reg.SLK_STS, 0x1C), (Reg.MGP_CTL, 7)]) [(Reg.MGP_SESS_MAX, 1)]).nug.sess.set 5 (some ⟨.operator, true, false, [], 3, 200⟩) } }, .admin, ?_⟩; decide +kernel
  · refine ⟨5, ⟨.operator, true, false, [], 3, 200⟩, { (rs (up) [(Reg.NUG_STS, 1), (Reg.SLK_CTL, 1), (Reg.SLK_STS, 0x1C), (Reg.MGP_CTL, 7)] : State) with nug := { (rs (up) [(Reg.NUG_STS, 1), (Reg.SLK_CTL, 1), (Reg.SLK_STS, 0x1C), (Reg.MGP_CTL, 7)]).nug with sess := (rs (up) [(Reg.NUG_STS, 1), (Reg.SLK_CTL, 1), (Reg.SLK_STS, 0x1C), (Reg.MGP_CTL, 7)]).nug.sess.set 5 (some ⟨.operator, true, false, [], 3, 200⟩) } }, ?_⟩; decide +kernel
  · refine ⟨5, ⟨true, .get⟩, ⟨.operator, true, false, [], 3, 200⟩, { (rs (rs (up) [(Reg.NUG_STS, 1), (Reg.SLK_CTL, 1), (Reg.SLK_STS, 0x1C), (Reg.MGP_CTL, 7)]) [(Reg.NUG_STS, 9)] : State) with nug := { (rs (rs (up) [(Reg.NUG_STS, 1), (Reg.SLK_CTL, 1), (Reg.SLK_STS, 0x1C), (Reg.MGP_CTL, 7)]) [(Reg.NUG_STS, 9)]).nug with sess := (rs (rs (up) [(Reg.NUG_STS, 1), (Reg.SLK_CTL, 1), (Reg.SLK_STS, 0x1C), (Reg.MGP_CTL, 7)]) [(Reg.NUG_STS, 9)]).nug.sess.set 5 (some ⟨.operator, true, false, [], 3, 200⟩) } }, ?_⟩; decide +kernel
  · refine ⟨5, ⟨false, .get⟩, ⟨.operator, true, false, [], 3, 200⟩, { (rs (rs (up) [(Reg.NUG_STS, 1), (Reg.SLK_CTL, 1), (Reg.SLK_STS, 0x1C), (Reg.MGP_CTL, 7)]) [(Reg.NUG_STS, 9)] : State) with nug := { (rs (rs (up) [(Reg.NUG_STS, 1), (Reg.SLK_CTL, 1), (Reg.SLK_STS, 0x1C), (Reg.MGP_CTL, 7)]) [(Reg.NUG_STS, 9)]).nug with sess := (rs (rs (up) [(Reg.NUG_STS, 1), (Reg.SLK_CTL, 1), (Reg.SLK_STS, 0x1C), (Reg.MGP_CTL, 7)]) [(Reg.NUG_STS, 9)]).nug.sess.set 5 (some ⟨.operator, true, false, [], 3, 200⟩) } }, ?_⟩; decide +kernel
  · refine ⟨5, ⟨false, .subscribe true⟩, ⟨.operator, true, false, [], 3, 200⟩, { (rs (rs (up) [(Reg.NUG_STS, 1), (Reg.SLK_CTL, 1), (Reg.SLK_STS, 0x1C), (Reg.MGP_CTL, 7)]) [(Reg.NUG_STS, 9)] : State) with nug := { (rs (rs (up) [(Reg.NUG_STS, 1), (Reg.SLK_CTL, 1), (Reg.SLK_STS, 0x1C), (Reg.MGP_CTL, 7)]) [(Reg.NUG_STS, 9)]).nug with sess := (rs (rs (up) [(Reg.NUG_STS, 1), (Reg.SLK_CTL, 1), (Reg.SLK_STS, 0x1C), (Reg.MGP_CTL, 7)]) [(Reg.NUG_STS, 9)]).nug.sess.set 5 (some ⟨.operator, true, false, [], 3, 200⟩) } }, true, ?_⟩; decide +kernel
  · refine ⟨5, ⟨false, .write 7 .imageActivate⟩, ⟨.operator, true, false, [], 3, 200⟩, { (rs (rs (up) [(Reg.NUG_STS, 1), (Reg.SLK_CTL, 1), (Reg.SLK_STS, 0x1C), (Reg.MGP_CTL, 7)]) [(Reg.NUG_STS, 9)] : State) with nug := { (rs (rs (up) [(Reg.NUG_STS, 1), (Reg.SLK_CTL, 1), (Reg.SLK_STS, 0x1C), (Reg.MGP_CTL, 7)]) [(Reg.NUG_STS, 9)]).nug with sess := (rs (rs (up) [(Reg.NUG_STS, 1), (Reg.SLK_CTL, 1), (Reg.SLK_STS, 0x1C), (Reg.MGP_CTL, 7)]) [(Reg.NUG_STS, 9)]).nug.sess.set 5 (some ⟨.operator, true, false, [], 3, 200⟩) } }, 7, .imageActivate, ?_⟩; decide +kernel
  · refine ⟨2000000000, rs (rs (up) [(Reg.NUG_STS, 1), (Reg.SLK_CTL, 1), (Reg.SLK_STS, 0x1C), (Reg.MGP_CTL, 7)]) [(Reg.NUG_WDOG, 2000)], ?_⟩; decide +kernel
  · refine ⟨1000, { (rs (rs (up) [(Reg.NUG_STS, 1), (Reg.SLK_CTL, 1), (Reg.SLK_STS, 0x1C), (Reg.MGP_CTL, 7)]) [(Reg.NUG_STS, 9)] : State) with nug := { (rs (rs (up) [(Reg.NUG_STS, 1), (Reg.SLK_CTL, 1), (Reg.SLK_STS, 0x1C), (Reg.MGP_CTL, 7)]) [(Reg.NUG_STS, 9)]).nug with sess := (rs (rs (up) [(Reg.NUG_STS, 1), (Reg.SLK_CTL, 1), (Reg.SLK_STS, 0x1C), (Reg.MGP_CTL, 7)]) [(Reg.NUG_STS, 9)]).nug.sess.set 5 (some ⟨.operator, true, false, [], 3, 200⟩) } }, ?_⟩; decide +kernel
  · refine ⟨nug, 5, rs (up) [(Reg.NUG_STS, 1), (Reg.SLK_CTL, 1), (Reg.SLK_STS, 0x1C), (Reg.MGP_CTL, 7)], ?_⟩; decide +kernel
  · refine ⟨adm, { (rs (rs (up) [(Reg.NUG_STS, 1), (Reg.SLK_CTL, 1), (Reg.SLK_STS, 0x1C), (Reg.MGP_CTL, 7)]) [(Reg.NUG_STS, 9)] : State) with nug := { (rs (rs (up) [(Reg.NUG_STS, 1), (Reg.SLK_CTL, 1), (Reg.SLK_STS, 0x1C), (Reg.MGP_CTL, 7)]) [(Reg.NUG_STS, 9)]).nug with sess := (rs (rs (up) [(Reg.NUG_STS, 1), (Reg.SLK_CTL, 1), (Reg.SLK_STS, 0x1C), (Reg.MGP_CTL, 7)]) [(Reg.NUG_STS, 9)]).nug.sess.set 5 (some ⟨.operator, true, false, [], 3, 200⟩) } }, ?_⟩; decide +kernel
  · refine ⟨nug, { (rs (up) [(Reg.NUG_STS, 1), (Reg.SLK_CTL, 1), (Reg.SLK_STS, 0x1C), (Reg.MGP_CTL, 7)] : State) with clp := { up.clp with role := 4 } }, ?_⟩; decide +kernel
  · refine ⟨nug, { (rs (up) [(Reg.NUG_STS, 1), (Reg.SLK_CTL, 1), (Reg.SLK_STS, 0x1C), (Reg.MGP_CTL, 7)] : State) with clp := { up.clp with role := 1, peerValid := true } }, ?_⟩; decide +kernel
  · refine ⟨600000008000, { (rs (up) [(Reg.NUG_STS, 1), (Reg.SLK_CTL, 1), (Reg.SLK_STS, 0x1C), (Reg.MGP_CTL, 7)] : State) with clp := { up.clp with role := 1, peerValid := true } }, ?_⟩; decide +kernel
  · refine ⟨8000, { (rs (up) [(Reg.NUG_STS, 1), (Reg.SLK_CTL, 1), (Reg.SLK_STS, 0x1C), (Reg.MGP_CTL, 7)] : State) with clp := { up.clp with role := 1, peerValid := true } }, ?_⟩; decide +kernel

theorem witness_ServiceCommandsHaveTheirEffects :
    (∃ (t : Nat) (o : SvcOrigin) (tag : Word) (c : SvcCmd) (r : Role) (i : Instr) (s : State), (svcTaken s o r ∧ svcRole s.lc c r = false) ∧ isSvc i t o tag c) ∧
    (∃ (t : Nat) (o : SvcOrigin) (tag : Word) (c : SvcCmd) (r : Role) (i : Instr) (s : State), (svcTaken s o r ∧ svcRole s.lc c r = true ∧ svcOpen s.lc c = false) ∧ isSvc i t o tag c) ∧
    (∃ (t : Nat) (o : SvcOrigin) (tag : Word) (c : SvcCmd) (i : Instr) (s : State), s.nugRuns = false ∧ isSvc i t o tag c) ∧
    (∃ (o : SvcOrigin) (s : State), svcTaken s o Role.admin ∧ 2 ^ 32 < (readHdr (memSrc s stageAddr)).total) ∧
    (∃ (o : SvcOrigin) (s : State), svcTaken s o Role.admin ∧ (readHdr (memSrc s stageAddr)).total ≤ 2 ^ 32 ∧ (s.seqBusy = true ∨ s.seq.loadBusy = true)) ∧
    (∃ (o : SvcOrigin) (s : State), svcTaken s o Role.admin ∧ (readHdr (memSrc s stageAddr)).total ≤ 2 ^ 32 ∧ s.seqBusy = false ∧ s.seq.loadBusy = false) ∧
    (∃ (o : SvcOrigin) (s : State), svcTaken s o Role.admin ∧ s.seqBusy = true) ∧
    (∃ (o : SvcOrigin) (b : Bool) (s : State), svcTaken s o Role.admin ∧ s.seqBusy = false ∧ swapGoOk b s = false) ∧
    (∃ (o : SvcOrigin) (b : Bool) (s : State), svcTaken s o Role.admin ∧ s.seqBusy = false ∧ swapGoOk b s = true) ∧
    (∃ (o : SvcOrigin) (r : Role) (l : List Byte) (s : State), svcTaken s o r ∧ (r = Role.operator ∨ r = Role.admin) ∧ lcOwnerData s.lc = true ∧ s.policyOk l = false) ∧
    (∃ (o : SvcOrigin) (r : Role) (l : List Byte) (s : State), svcTaken s o r ∧ (r = Role.operator ∨ r = Role.admin) ∧ lcOwnerData s.lc = true ∧ s.policyOk l = true ∧ s.jnlRefuses = true) ∧
    (∃ (o : SvcOrigin) (r : Role) (l : List Byte) (s : State), svcTaken s o r ∧ (r = Role.operator ∨ r = Role.admin) ∧ lcOwnerData s.lc = true ∧ s.policyOk l = true ∧ s.jnlRefuses = false) ∧
    (∃ (o : SvcOrigin) (l : List Byte) (s : State), svcTaken s o Role.admin ∧ lcOwnerData s.lc = true ∧ s.jnlRefuses = false ∧ s.policyOk l = false) ∧
    (∃ (o : SvcOrigin) (l : List Byte) (s : State), svcTaken s o Role.admin ∧ lcOwnerData s.lc = true ∧ s.jnlRefuses = false ∧ s.policyOk l = true) ∧
    (∃ (o : SvcOrigin) (r : Role) (s : State), svcTaken s o r ∧ (r = Role.operator ∨ r = Role.admin) ∧ s.jrjMember = false) ∧
    (∃ (o : SvcOrigin) (r : Role) (s : State), svcTaken s o r ∧ (r = Role.operator ∨ r = Role.admin) ∧ s.jrjMember = true) ∧
    (∃ (o : SvcOrigin) (g : SigVerdict) (s : State), svcTaken s o Role.admin ∧ lcOwnerData s.lc = true ∧ (g.rsa && g.slh) = false) ∧
    (∃ (o : SvcOrigin) (l : List Byte) (g : SigVerdict) (s : State), svcTaken s o Role.admin ∧ lcOwnerData s.lc = true ∧ (g.rsa && g.slh) = true ∧ wirFormat l = false) ∧
    (∃ (o : SvcOrigin) (l : List Byte) (g : SigVerdict) (s : State), svcTaken s o Role.admin ∧ lcOwnerData s.lc = true ∧ (g.rsa && g.slh) = true ∧ wirFormat l = true ∧ (∀ (p : List Byte), s.wiring = some p → wirVersion p < wirVersion l) ∧ s.jnlRefuses = false) ∧
    (∃ (o : SvcOrigin) (r : Role) (s : State), svcTaken s o r ∧ (r = Role.admin ∨ r = Role.service) ∧ s.ship = true) ∧
    (∃ (o : SvcOrigin) (r : Role) (s : State), svcTaken s o r ∧ (r = Role.admin ∨ r = Role.service) ∧ s.ship = false ∧ admits s nugWriter Reg.CTC_SHIP 32 2 = true) ∧
    (∃ (o : SvcOrigin) (r : Role) (s : State), svcTaken s o r ∧ (r = Role.admin ∨ r = Role.service) ∧ lcShipForced s.lc = false ∧ s.shipExitOk = false) ∧
    (∃ (o : SvcOrigin) (r : Role) (s : State), svcTaken s o r ∧ (r = Role.admin ∨ r = Role.service) ∧ s.shipExitOk = true ∧ admits s nugWriter Reg.CTC_SHIP 32 4 = true) ∧
    (∃ (o : SvcOrigin) (s : State), svcTaken s o Role.admin ∧ s.busyWith LongCmd.isImage = true) ∧
    (∃ (o : SvcOrigin) (s : State), svcTaken s o Role.admin ∧ s.busyWith LongCmd.isImage = false) ∧
    (∃ (o : SvcOrigin) (s : State), svcTaken s o Role.admin ∧ (s.image !s.nug.runB).isNone = true) ∧
    (∃ (o : SvcOrigin) (s : State), svcTaken s o Role.admin ∧ (s.image !s.nug.runB).isSome = true ∧ s.isOwner = false ∧ s.clp.drive = false) ∧
    (∃ (t : Nat) (o : SvcOrigin) (s : State), svcTaken s o Role.admin ∧ (s.image !s.nug.runB).isSome = true ∧ s.clp.role = 4 ∧ s.clp.drive = true ∧ (s.at t).peerReady = true ∧ s.clp.peerContest = false ∧ s.clp.yieldDue = none) ∧
    (∃ (t : Nat) (o : SvcOrigin) (s : State), svcTaken s o Role.admin ∧ (s.image !s.nug.runB).isSome = true ∧ s.clp.drive = true ∧ (s.at t).peerReady = false ∧ s.bit Reg.NUG_BOOT 3 = false) ∧
    (∃ (o : SvcOrigin) (r : Role) (s : State), svcTaken s o r ∧ r ≠ Role.service ∧ s.pufFail = true) ∧
    (∃ (o : SvcOrigin) (r : Role) (s : State), svcTaken s o r ∧ r ≠ Role.service ∧ s.pufFail = false ∧ s.trngFail = true) ∧
    (∃ (o : SvcOrigin) (r : Role) (s : State), svcTaken s o r ∧ r ≠ Role.service ∧ s.pufFail = false ∧ s.trngFail = false) ∧
    (∃ (o : SvcOrigin) (s : State), svcTaken s o Role.admin ∧ s.trngFail = true) ∧
    (∃ (o : SvcOrigin) (s : State), svcTaken s o Role.admin ∧ s.trngFail = false) ∧
    (∃ (t : Nat) (o : SvcOrigin) (a : LifeCycle) (k : List LcToken) (s : State), svcTaken s o Role.admin ∧ (s.at t).transCode a k ≠ 0) ∧
    (∃ (t : Nat) (o : SvcOrigin) (a : LifeCycle) (k : List LcToken) (s : State), svcTaken s o Role.admin ∧ (s.at t).transCode a k = 0) ∧
    (∃ (o : SvcOrigin) (k : OwnerKeys) (s : State), svcTaken s o Role.admin ∧ lcOwnerData s.lc = true ∧ k.wellFormed = true ∧ s.lc = LifeCycle.field ∧ (s.nug.owner = none ∨ k.signed = none)) ∧
    (∃ (o : SvcOrigin) (k : OwnerKeys) (s : State), svcTaken s o Role.admin ∧ lcOwnerData s.lc = true ∧ k.wellFormed = true ∧ (s.lc ≠ LifeCycle.field ∨ s.nug.owner.isSome = true ∧ ∃ v, k.signed = some v ∧ v.rsa = true ∧ v.slh = true)) ∧
    (∃ (o : SvcOrigin) (k : OwnerKeys) (s : State), svcTaken s o Role.admin ∧ lcOwnerData s.lc = true ∧ k.wellFormed = false) ∧
    (∃ (o : SvcOrigin) (s : State), svcTaken s o Role.admin ∧ lcOwnerData s.lc = true ∧ (255 ≤ s.fld Reg.LKT_CNT 16 8 ∨ s.pufFail = true)) ∧
    (∃ (o : SvcOrigin) (s : State), svcTaken s o Role.admin ∧ lcOwnerData s.lc = true ∧ s.fld Reg.LKT_CNT 16 8 < 255 ∧ s.pufFail = false ∧ s.trngFail = false ∧ s.busyWith LongCmd.isKeygen = false) := by
  refine ⟨?_, ?_, ?_, ?_, ?_, ?_, ?_, ?_, ?_, ?_, ?_, ?_, ?_, ?_, ?_, ?_, ?_, ?_, ?_, ?_, ?_, ?_, ?_, ?_, ?_, ?_, ?_, ?_, ?_, ?_, ?_, ?_, ?_, ?_, ?_, ?_, ?_, ?_, ?_, ?_, ?_⟩
  · refine ⟨8000, .peer .operator 21, 7, .patternStage ⟨true, true⟩, .operator, .patternStage 8000 (.peer .operator 21) 7 ⟨true, true⟩, svc (up) .operator, ?_, ?_⟩
    · simp only [svcTaken]; decide +kernel
    · rfl
  · refine ⟨8000, .peer .admin 21, 7, .policyCommit [], .admin, .policyCommit 8000 (.peer .admin 21) 7 [], { (svc (up) .admin : State) with lc := .returned }, ?_, ?_⟩
    · simp only [svcTaken]; decide +kernel
    · rfl
  · refine ⟨8000, .session 5 20, 7, .lcNonce, .lcNonce 8000 (.session 5 20) 7, rs (svc (up) .admin) [(Reg.NUG_STS, 0)], ?_, ?_⟩
    · decide +kernel
    · rfl
  · refine ⟨.peer .admin 21, { (svc ((up.setBytes 0x8080000000 (put (List.replicate 128 0#8) [(8, 8, 0x200000000)]))) .admin : State) with lc := .field }, ?_⟩; simp only [svcTaken]; decide +kernel
  · refine ⟨.peer .admin 21, rs ({ (svc ((running.setBytes 0x8080000000 (put (List.replicate 128 0#8) [(8, 8, 0x2000)]))) .admin : State) with lc := .field }) [(Reg.BLK_STS 0x10, stHold)], ?_⟩; simp only [svcTaken]; decide +kernel
  · refine ⟨.peer .admin 21, { (svc ((running.setBytes 0x8080000000 (put (List.replicate 128 0#8) [(8, 8, 0x2000)]))) .admin : State) with lc := .field }, ?_⟩; simp only [svcTaken]; decide +kernel
  · refine ⟨.peer .admin 21, rs ({ (svc ({ (running : State) with seq := { (running).seq with bank1 := ⟨.staged, some pat0, 0, 0, []⟩ } }) .admin : State) with lc := .field }) [(Reg.BLK_STS 0x10, stHold)], ?_⟩; simp only [svcTaken]; decide +kernel
  · refine ⟨.peer .admin 21, true, { (svc (running) .admin : State) with lc := .field }, ?_⟩; simp only [svcTaken]; decide +kernel
  · refine ⟨.peer .admin 21, true, { (svc ({ (running : State) with seq := { (running).seq with bank1 := ⟨.staged, some pat0, 0, 0, []⟩ } }) .admin : State) with lc := .field }, ?_⟩; simp only [svcTaken]; decide +kernel
  · refine ⟨.peer .admin 21, .admin, [], { (svc (owner) .admin : State) with lc := .field }, ?_⟩; simp only [svcTaken]; decide +kernel
  · refine ⟨.peer .admin 21, .admin, put (List.replicate 3136 0#8) [(0x14, 4, 5000)], rs ({ (svc (up) .admin : State) with lc := .field }) [(Reg.JNL_CTL, 0)], ?_⟩; simp only [svcTaken]; decide +kernel
  · refine ⟨.peer .admin 21, .admin, put (List.replicate 3136 0#8) [(0x14, 4, 5000)], { (svc (owner) .admin : State) with lc := .field }, ?_⟩; simp only [svcTaken]; decide +kernel
  · refine ⟨.peer .admin 21, [], { (svc (owner) .admin : State) with lc := .field }, ?_⟩; simp only [svcTaken]; decide +kernel
  · refine ⟨.peer .admin 21, put (List.replicate 3136 0#8) [(0x14, 4, 5000)], { (svc (owner) .admin : State) with lc := .field }, ?_⟩; simp only [svcTaken]; decide +kernel
  · refine ⟨.peer .admin 21, .admin, { (svc (owner) .admin : State) with lc := .field }, ?_⟩; simp only [svcTaken]; decide +kernel
  · refine ⟨.peer .admin 21, .admin, { (svc (ring3) .admin : State) with lc := .field }, ?_⟩; simp only [svcTaken]; decide +kernel
  · refine ⟨.peer .admin 21, ⟨true, false⟩, { (svc (owner) .admin : State) with lc := .field }, ?_⟩; simp only [svcTaken]; decide +kernel
  · refine ⟨.peer .admin 21, plan3.take 64, ⟨true, true⟩, { (svc (owner) .admin : State) with lc := .field }, ?_⟩; simp only [svcTaken]; decide +kernel
  · refine ⟨.peer .admin 21, plan3, ⟨true, true⟩, { (svc (owner) .admin : State) with lc := .field }, ?_⟩; simp only [svcTaken]; decide +kernel
  · refine ⟨.peer .admin 21, .admin, rs ({ (svc (owner) .admin : State) with lc := .field }) [(Reg.CTC_SHIP, 1)], ?_⟩; simp only [svcTaken]; decide +kernel
  · refine ⟨.peer .admin 21, .admin, { (svc (power) .admin : State) with lc := .field }, ?_⟩; simp only [svcTaken]; decide +kernel
  · refine ⟨.peer .admin 21, .admin, { (svc (power) .admin : State) with lc := .field }, ?_⟩; simp only [svcTaken]; decide +kernel
  · refine ⟨.peer .admin 21, .admin, rs ({ (svc (ready) .admin : State) with lc := .field }) [(Reg.CTC_SHIP, 1), (Reg.HVS_VBUS, 0x42480000)], ?_⟩; simp only [svcTaken]; decide +kernel
  · refine ⟨.peer .admin 21, { ({ (svc (up) .admin : State) with lc := .field } : State) with nug := { ({ (svc (up) .admin : State) with lc := .field }).nug with jobs := [⟨3, .image ⟨1000, 3, 1, 2, ⟨true, true⟩, true, true⟩, 1⟩] } }, ?_⟩; simp only [svcTaken]; decide +kernel
  · refine ⟨.peer .admin 21, { (svc (up) .admin : State) with lc := .field }, ?_⟩; simp only [svcTaken]; decide +kernel
  · refine ⟨.peer .admin 21, { (svc (up) .admin : State) with lc := .field }, ?_⟩; simp only [svcTaken]; decide +kernel
  · refine ⟨.peer .admin 21, { ({ (svc (standby) .admin : State) with lc := .field } : State) with nug := { ({ (svc (standby) .admin : State) with lc := .field }).nug with imgB := some ⟨3, 4, 5⟩ } }, ?_⟩; simp only [svcTaken]; decide +kernel
  · refine ⟨8000, .peer .admin 21, { ({ ({ (svc (power) .admin : State) with lc := .field } : State) with nug := { ({ (svc (power) .admin : State) with lc := .field }).nug with imgB := some ⟨3, 4, 5⟩ } } : State) with clp := { ({ ({ (svc (power) .admin : State) with lc := .field } : State) with nug := { ({ (svc (power) .admin : State) with lc := .field }).nug with imgB := some ⟨3, 4, 5⟩ } }).clp with peerRole := 2, peerSeen := 7000 } }, ?_⟩; simp only [svcTaken]; decide +kernel
  · refine ⟨8000, .peer .admin 21, { ({ (svc (power) .admin : State) with lc := .field } : State) with nug := { ({ (svc (power) .admin : State) with lc := .field }).nug with imgB := some ⟨3, 4, 5⟩ } }, ?_⟩; simp only [svcTaken]; decide +kernel
  · refine ⟨.peer .admin 21, .admin, rs ({ (svc (up) .admin : State) with lc := .field }) [(Reg.LKT_STS, 2)], ?_⟩; simp only [svcTaken]; decide +kernel
  · refine ⟨.peer .admin 21, .admin, rs ({ (svc (up) .admin : State) with lc := .field }) [(Reg.SIG_STS, 2)], ?_⟩; simp only [svcTaken]; decide +kernel
  · refine ⟨.peer .admin 21, .admin, { (svc (up) .admin : State) with lc := .field }, ?_⟩; simp only [svcTaken]; decide +kernel
  · refine ⟨.peer .admin 21, rs ({ (svc (up) .admin : State) with lc := .field }) [(Reg.SIG_STS, 2)], ?_⟩; simp only [svcTaken]; decide +kernel
  · refine ⟨.peer .admin 21, { (svc (up) .admin : State) with lc := .field }, ?_⟩; simp only [svcTaken]; decide +kernel
  · refine ⟨8000, .peer .admin 21, .fab, [], { (svc (up) .admin : State) with lc := .field }, ?_⟩; simp only [svcTaken]; decide +kernel
  · refine ⟨8000, .peer .admin 21, .returned, [⟨true, 3, 4, State.reset.fx.serial, 0, 99999999, true, 2, ⟨true, true⟩⟩, ⟨true, 3, 4, State.reset.fx.serial, 0, 99999999, false, 1, ⟨true, true⟩⟩], { ({ (svc (standby) .admin : State) with lc := .field } : State) with nug := { ({ (svc (standby) .admin : State) with lc := .field }).nug with nonceOk := true, owner := some (1, 2) } }, ?_⟩; simp only [svcTaken]; decide +kernel
  · refine ⟨.peer .admin 21, ⟨true, 7, 8, none⟩, { ({ (svc (up) .admin : State) with lc := .field } : State) with nug := { ({ (svc (up) .admin : State) with lc := .field }).nug with nonceOk := true, owner := some (1, 2) } }, ?_⟩; simp only [svcTaken]; decide +kernel
  · refine ⟨.peer .admin 21, ⟨true, 7, 8, some ⟨true, true⟩⟩, { ({ (svc (up) .admin : State) with lc := .field } : State) with nug := { ({ (svc (up) .admin : State) with lc := .field }).nug with nonceOk := true, owner := some (1, 2) } }, ?_⟩; simp only [svcTaken]; decide +kernel
  · refine ⟨.peer .admin 21, ⟨false, 7, 8, none⟩, { (svc (up) .admin : State) with lc := .field }, ?_⟩; simp only [svcTaken]; decide +kernel
  · refine ⟨.peer .admin 21, rs ({ (svc (up) .admin : State) with lc := .field }) [(Reg.LKT_CNT, 0xFF0000)], ?_⟩; simp only [svcTaken]; decide +kernel
  · refine ⟨.peer .admin 21, { (svc (up) .admin : State) with lc := .field }, ?_⟩; simp only [svcTaken]; decide +kernel

theorem witness_LongCommandsBootImagesAndSignet :
    (∃ (j : SvcJob) (s : State), s.nugRuns = true ∧ List.find? s.longMayEnd s.nug.jobs = some j ∧ s.mbxAdmits 40 0 = true ∧ s.mbxRx 40 ≠ 4 ∧ j.cmd = LongCmd.stage ∧ s.fld Reg.SEQ_LOAD_STS 0 2 = 3) ∧
    (∃ (j : SvcJob) (s : State), s.nugRuns = true ∧ List.find? s.longMayEnd s.nug.jobs = some j ∧ s.mbxAdmits 40 0 = true ∧ s.mbxRx 40 ≠ 4 ∧ j.cmd = LongCmd.stage ∧ s.fld Reg.SEQ_LOAD_STS 0 2 ≠ 3) ∧
    (∃ (j : SvcJob) (s : State) (i : BootImage), s.nugRuns = true ∧ List.find? s.longMayEnd s.nug.jobs = some j ∧ s.mbxAdmits 40 0 = true ∧ s.mbxRx 40 ≠ 4 ∧ j.cmd = LongCmd.image i) ∧
    (∃ (j : SvcJob) (s : State) (n : BitVec 256), s.nugRuns = true ∧ List.find? s.longMayEnd s.nug.jobs = some j ∧ s.mbxAdmits 40 0 = true ∧ s.mbxRx 40 ≠ 4 ∧ j.cmd = LongCmd.attest n ∧ s.trngFail = false) ∧
    (∃ (j : SvcJob) (s : State), s.nugRuns = true ∧ List.find? s.longMayEnd s.nug.jobs = some j ∧ s.mbxAdmits 40 0 = true ∧ s.mbxRx 40 ≠ 4 ∧ j.cmd = LongCmd.keygen ∧ s.trngFail = false) ∧
    (∃ (e : SigEngine) (j : SigJob) (s : State), nextJob e s.nug.sigJobs = some j) ∧
    (∃ (t : Nat) (s : State), s.nug.nonceOk = true ∧ s.reg Reg.LCS_NONCE_STAMP + 3600000000000 ≤ max s.now t) ∧
    (∃ (t : Nat) (s : State), s.nug.nonceOk = true ∧ max s.now t < s.reg Reg.LCS_NONCE_STAMP + 3600000000000) ∧
    (∃ (s : State), s.basePowered = true) ∧
    (∃ (good : Nat) (s : State), s.trngFail = true ∧ 1024 ≤ good) ∧
    (∃ (good : Nat) (s : State), s.trngFail = true ∧ good < 1024) ∧
    (∃ (a : ImgVerdict) (b : ImgVerdict) (s : State), s.pw.base = BasePhase.rom ∧ ((fun x => s.bootImgOk x (if x = true then b else a)) (if s.nug.nextTrial = true then s.nug.nextB else s.nug.confirmedB) = true)) ∧
    (∃ (a : ImgVerdict) (b : ImgVerdict) (s : State), s.pw.base = BasePhase.rom ∧ ((fun x => s.bootImgOk x (if x = true then b else a)) (if s.nug.nextTrial = true then s.nug.nextB else s.nug.confirmedB) = false) ∧ (((fun x => s.bootImgOk x (if x = true then b else a)) !if s.nug.nextTrial = true then s.nug.nextB else s.nug.confirmedB) = false)) ∧
    (∃ (a : ImgVerdict) (b : ImgVerdict) (s : State), s.pw.base = BasePhase.rom ∧ ((fun x => s.bootImgOk x (if x = true then b else a)) (if s.nug.nextTrial = true then s.nug.nextB else s.nug.confirmedB) = false) ∧ (((fun x => s.bootImgOk x (if x = true then b else a)) !if s.nug.nextTrial = true then s.nug.nextB else s.nug.confirmedB) = true)) ∧
    (∃ (t : Nat) (a : Nat) (s : State), s.nug.trialAt = some a ∧ s.baseUp = true ∧ s.bit Reg.NUG_STS 1 = true ∧ a + 120000000000 ≤ max s.now t) ∧
    (∃ (t : Nat) (a : Nat) (s : State), s.nug.trialAt = some a ∧ s.baseUp = true ∧ s.bit Reg.NUG_STS 1 = true ∧ max s.now t < a + 120000000000) ∧
    (∃ (w : Writer) (s : State), admits s w Reg.NUG_BOOT 32 (8 * s.fld Reg.NUG_BOOT 3 1 + 4) = true ∧ s.bit Reg.NUG_STS 1 = true) ∧
    (∃ (w : Writer) (s : State), admits s w Reg.NUG_BOOT 32 (8 * s.fld Reg.NUG_BOOT 3 1 + 4) = true ∧ s.bit Reg.NUG_STS 1 = false) ∧
    (∃ (w : Writer) (s : State), admits s w Reg.NUG_BOOT 32 (8 * s.fld Reg.NUG_BOOT 3 1 + 2) = true ∧ (s.image !s.nug.runB).isSome = true) ∧
    (∃ (w : Writer) (s : State), admits s w Reg.NUG_BOOT 32 (8 * s.fld Reg.NUG_BOOT 3 1 + 2) = true ∧ (s.image !s.nug.runB).isNone = true) := by
  refine ⟨?_, ?_, ?_, ?_, ?_, ?_, ?_, ?_, ?_, ?_, ?_, ?_, ?_, ?_, ?_, ?_, ?_, ?_, ?_, ?_⟩
  · refine ⟨⟨9, .stage, 0⟩, rs (rs ({ (up : State) with nug := { (up).nug with jobs := [⟨3, .image ⟨1000, 3, 1, 2, ⟨true, true⟩, true, true⟩, 1⟩, ⟨9, .stage, 0⟩] } }) [(Reg.NUG_STS, 1), (Reg.MBX_CFG 40, 0x0103)]) [(Reg.SEQ_LOAD_STS, 0x0703)], ?_⟩; decide +kernel
  · refine ⟨⟨9, .stage, 0⟩, rs (rs ({ (up : State) with nug := { (up).nug with jobs := [⟨3, .image ⟨1000, 3, 1, 2, ⟨true, true⟩, true, true⟩, 1⟩, ⟨9, .stage, 0⟩] } }) [(Reg.NUG_STS, 1), (Reg.MBX_CFG 40, 0x0103)]) [(Reg.SEQ_LOAD_STS, 2)], ?_⟩; decide +kernel
  · refine ⟨⟨9, .image ⟨1000, 3, 1, 2, ⟨true, true⟩, true, true⟩, 0⟩, rs ({ (rs ({ (up : State) with nug := { (up).nug with jobs := [⟨3, .image ⟨1000, 3, 1, 2, ⟨true, true⟩, true, true⟩, 1⟩, ⟨9, .image ⟨1000, 3, 1, 2, ⟨true, true⟩, true, true⟩, 0⟩] } }) [(Reg.NUG_STS, 1), (Reg.MBX_CFG 40, 0x0103)] : State) with nug := { (rs ({ (up : State) with nug := { (up).nug with jobs := [⟨3, .image ⟨1000, 3, 1, 2, ⟨true, true⟩, true, true⟩, 1⟩, ⟨9, .image ⟨1000, 3, 1, 2, ⟨true, true⟩, true, true⟩, 0⟩] } }) [(Reg.NUG_STS, 1), (Reg.MBX_CFG 40, 0x0103)]).nug with runB := true } }) [(Reg.LKT_CNT, 0)], ⟨1000, 3, 1, 2, ⟨true, true⟩, true, true⟩, ?_⟩; decide +kernel
  · refine ⟨⟨9, .attest 77, 0⟩, rs ({ (ring3 : State) with nug := { (ring3).nug with jobs := [⟨3, .image ⟨1000, 3, 1, 2, ⟨true, true⟩, true, true⟩, 1⟩, ⟨9, .attest 77, 0⟩] } }) [(Reg.NUG_STS, 1), (Reg.MBX_CFG 40, 0x0103)], 77, ?_⟩; decide +kernel
  · refine ⟨⟨9, .keygen, 0⟩, rs ({ (up : State) with nug := { (up).nug with jobs := [⟨3, .image ⟨1000, 3, 1, 2, ⟨true, true⟩, true, true⟩, 1⟩, ⟨9, .keygen, 0⟩] } }) [(Reg.NUG_STS, 1), (Reg.MBX_CFG 40, 0x0103)], ?_⟩; decide +kernel
  · refine ⟨.rsa, ⟨.rsa, 1, 9⟩, { (up : State) with nug := { (up).nug with sigJobs := [⟨.rsa, 3, 7⟩, ⟨.slh, 1, 8⟩, ⟨.rsa, 1, 9⟩, ⟨.rsa, 1, 10⟩], jobs := [⟨9, .keygen, 2⟩] } }, ?_⟩; decide +kernel
  · refine ⟨3600000008000, { (up : State) with nug := { (up).nug with nonceOk := true } }, ?_⟩; decide +kernel
  · refine ⟨8000, { (up : State) with nug := { (up).nug with nonceOk := true } }, ?_⟩; decide +kernel
  · refine ⟨rs (up) [(Reg.SIG_STS, 5)], ?_⟩; decide +kernel
  · refine ⟨1024, rs (up) [(Reg.SIG_STS, 6)], ?_⟩; decide +kernel
  · refine ⟨1023, rs (up) [(Reg.SIG_STS, 6)], ?_⟩; decide +kernel
  · refine ⟨⟨⟨true, true⟩, true⟩, ⟨⟨true, true⟩, true⟩, { ({ (up : State) with nug := { (up).nug with imgA := some ⟨3, 4, 5⟩, imgB := some ⟨4, 4, 5⟩ } } : State) with pw := { up.pw with base := .rom } }, ?_⟩; decide +kernel
  · refine ⟨⟨⟨true, false⟩, true⟩, ⟨⟨true, false⟩, true⟩, { ({ (up : State) with nug := { (up).nug with imgA := some ⟨3, 4, 5⟩, imgB := some ⟨4, 4, 5⟩ } } : State) with pw := { up.pw with base := .rom } }, ?_⟩; decide +kernel
  · refine ⟨⟨⟨true, false⟩, true⟩, ⟨⟨true, true⟩, true⟩, { ({ (up : State) with nug := { (up).nug with imgA := some ⟨3, 4, 5⟩, imgB := some ⟨4, 4, 5⟩ } } : State) with pw := { up.pw with base := .rom } }, ?_⟩; decide +kernel
  · refine ⟨120000008000, 8000, rs ({ (up : State) with nug := { (up).nug with imgA := some ⟨3, 4, 5⟩, imgB := some ⟨4, 4, 5⟩, runB := true, nextB := true, trialAt := some 8000 } }) [(Reg.NUG_STS, 7)], ?_⟩; decide +kernel
  · refine ⟨8000, 8000, rs ({ (up : State) with nug := { (up).nug with imgA := some ⟨3, 4, 5⟩, imgB := some ⟨4, 4, 5⟩, runB := true, nextB := true, trialAt := some 8000 } }) [(Reg.NUG_STS, 7)], ?_⟩; decide +kernel
  · refine ⟨nug, rs ({ (up : State) with nug := { (up).nug with imgA := some ⟨3, 4, 5⟩, imgB := some ⟨4, 4, 5⟩, runB := true, nextB := true, trialAt := some 8000 } }) [(Reg.NUG_STS, 7)], ?_⟩; decide +kernel
  · refine ⟨nug, rs (rs ({ (up : State) with nug := { (up).nug with imgA := some ⟨3, 4, 5⟩, imgB := some ⟨4, 4, 5⟩, runB := true, nextB := true, trialAt := some 8000 } }) [(Reg.NUG_STS, 7)]) [(Reg.NUG_STS, 5)], ?_⟩; decide +kernel
  · refine ⟨nug, { (up : State) with nug := { (up).nug with imgA := some ⟨3, 4, 5⟩, imgB := some ⟨4, 4, 5⟩ } }, ?_⟩; decide +kernel
  · refine ⟨nug, up, ?_⟩; decide +kernel

theorem witness_TheJournalQueuesProgramsAndCompacts :
    (∃ (s : State), s.baseUp = true ∧ s.jnlRefuses = true) ∧
    (∃ (r : JNew) (s : State), s.baseUp = true ∧ s.jnlRefuses = false ∧ spareType r.ty = true ∧ s.jnlCrit = true) ∧
    (∃ (r : JNew) (s : State), s.baseUp = true ∧ s.jnlRefuses = false ∧ (spareType r.ty = false ∨ s.jnlCrit = false) ∧ s.isOwner = true) ∧
    (∃ (r : JNew) (s : State), s.baseUp = true ∧ s.jnlRefuses = false ∧ (spareType r.ty = false ∨ s.jnlCrit = false) ∧ s.isOwner = false ∧ s.slkUp = true ∧ s.clp.peerValid = true) ∧
    (∃ (s : State), s.bit Reg.JNL_STS 0 = true ∧ s.jnl.prog = none ∧ s.jnl.queue ≠ [] ∧ s.jnlRoom = true ∧ 1800 ≤ s.reg Reg.JNL_HOLDUP) ∧
    (∃ (s : State), s.bit Reg.JNL_STS 0 = true ∧ s.jnl.prog = none ∧ s.jnl.queue ≠ [] ∧ s.jnlRoom = true ∧ s.reg Reg.JNL_HOLDUP < 1800) ∧
    (∃ (l : List JRec) (s : State), s.jnl.prog = some l) ∧
    (∃ (s : State), s.baseUp = true ∧ (s.bit Reg.JNL_STS 0 = false ∨ s.bit Reg.NUG_STS 3 = false)) ∧
    (∃ (s : State), s.bit Reg.JNL_STS 0 = true ∧ s.jnl.compact = none ∧ s.jnl.prog = none ∧ (s.jnl.compactReq = true ∨ s.reg Reg.JNL_COMPACT_AT * 4096 ≤ s.jnlLive * 1000)) ∧
    (∃ (s : State), s.bit Reg.JNL_STS 0 = true ∧ s.jnl.compact = none ∧ s.jnl.prog = none ∧ s.jnl.compactReq = false ∧ s.jnlLive * 1000 < s.reg Reg.JNL_COMPACT_AT * 4096) ∧
    (∃ (c : Nat) (g : Nat) (s : State), s.jnl.compact = some (c, g) ∧ s.jnl.prog = none ∧ (∀ (e : JEnt), e ∈ s.jnl.queue → e.item.copy = false)) ∧
    (∃ (c : Nat) (g : Nat) (s : State), s.jnl.compact = some (c, g) ∧ (∃ e, e ∈ s.jnl.queue ∧ e.item.copy = true)) ∧
    (∃ (w : Writer) (s : State), admits s w Reg.JNL_CTL 32 (s.reg Reg.JNL_CTL % 2 + 2) = true) ∧
    (∃ (w : Writer) (on : Bool) (s : State), admits s w Reg.JNL_CTL 32 (b2n on) = true) := by
  refine ⟨?_, ?_, ?_, ?_, ?_, ?_, ?_, ?_, ?_, ?_, ?_, ?_, ?_, ?_⟩
  · refine ⟨rs (up) [(Reg.JNL_CTL, 0)], ?_⟩; decide +kernel
  · refine ⟨⟨0x50, true, 0x111, [1, 2]⟩, { (owner : State) with jnl := { (owner).jnl with first := 0, gen := 4000 } }, ?_⟩; decide +kernel
  · refine ⟨⟨0x52, true, 0x111, [1, 2]⟩, { (owner : State) with jnl := { (owner).jnl with first := 0, gen := 4000 } }, ?_⟩; decide +kernel
  · refine ⟨⟨0x50, true, 0x111, [1, 2]⟩, { (standby : State) with clp := { (standby).clp with peerValid := true } }, ?_⟩; decide +kernel
  · refine ⟨rs (rs ({ (owner : State) with jnl := { (owner).jnl with queue := [⟨⟨80, 4, 5, 0x111, false, false, false, false, List.replicate 9000 1#8⟩, 5, true⟩, ⟨⟨82, 5, 5, 0x111, false, false, false, false, [1, 2]⟩, 5, true⟩, ⟨⟨80, 6, 5, 0x111, false, false, false, false, List.replicate 9000 1#8⟩, 5, true⟩] } }) [(Reg.JNL_STS, 1)]) [(Reg.JNL_HOLDUP, 1800)], ?_⟩; decide +kernel
  · refine ⟨rs (rs ({ (owner : State) with jnl := { (owner).jnl with queue := [⟨⟨80, 4, 5, 0x111, false, false, false, false, List.replicate 9000 1#8⟩, 5, true⟩, ⟨⟨82, 5, 5, 0x111, false, false, false, false, [1, 2]⟩, 5, true⟩, ⟨⟨80, 6, 5, 0x111, false, false, false, false, List.replicate 9000 1#8⟩, 5, true⟩] } }) [(Reg.JNL_STS, 1)]) [(Reg.JNL_HOLDUP, 1799)], ?_⟩; decide +kernel
  · refine ⟨[⟨82, 9, 5, 0x111, false, true, false, false, [1, 2]⟩], rs ({ (owner : State) with jnl := { (owner).jnl with prog := some [⟨82, 9, 5, 0x111, false, true, false, false, [1, 2]⟩] } }) [(Reg.JNL_STS, 1)], ?_⟩; decide +kernel
  · refine ⟨up, ?_⟩; decide +kernel
  · refine ⟨rs (rs ({ (owner : State) with jnl := { (owner).jnl with first := 0, gen := 4000 } }) [(Reg.JNL_STS, 1)]) [(Reg.JNL_COMPACT_AT, 900)], ?_⟩; decide +kernel
  · refine ⟨rs (rs ({ (owner : State) with jnl := { (owner).jnl with log := [(4, ⟨16, 3, 5, 0x111, false, false, false, false, [1,2,3]⟩), (4, ⟨96, 9, 5, 0x111, false, false, false, false, [1, 2]⟩)], queue := [⟨⟨82, 5, 5, 0x111, false, false, false, false, [1, 2]⟩, 5, false⟩, ⟨⟨82, 77, 5, 0x111, false, false, false, false, [1, 2]⟩, 5, true⟩], pocket := Vector.replicate 4 none |>.set 2 (some ⟨82, 12, 5, 0x111, false, false, false, false, [1, 2]⟩) } }) [(Reg.JNL_STS, 1)]) [(Reg.JNL_COMPACT_AT, 900)], ?_⟩; decide +kernel
  · refine ⟨9, 5, rs (rs ({ (owner : State) with jnl := { (owner).jnl with compact := some (9, 5), log := [(4, ⟨16, 3, 5, 0x111, false, false, false, false, [1, 2]⟩), (5, ⟨17, 3, 5, 0x111, false, false, false, false, [1, 2]⟩)], queue := [⟨⟨82, 5, 5, 0x111, false, false, false, false, [1, 2]⟩, 5, true⟩], gen := 6 } }) [(Reg.JNL_STS, 1)]) [(Reg.JNL_STS, 3)], ?_⟩; decide +kernel
  · refine ⟨9, 5, rs ({ (owner : State) with jnl := { (owner).jnl with compact := some (9, 5), queue := [⟨⟨82, 5, 5, 0x111, false, false, false, false, [1, 2]⟩, 5, true⟩, ⟨⟨82, 5, 5, 0x111, false, true, false, false, [1, 2]⟩, 5, true⟩] } }) [(Reg.JNL_STS, 1)], ?_⟩; decide +kernel
  · refine ⟨nug, owner, ?_⟩; decide +kernel
  · refine ⟨nug, true, owner, ?_⟩; decide +kernel

theorem witness_BrownoutsCopiesCameosAndRecords :
    (∃ (s : State), s.pw.kaOk = false ∧ s.pw.mainOk = false) ∧
    (∃ (t : Nat) (holdUs : Nat) (s : State) (k : Instr), (s.pw.kaOk = true ∨ s.pw.mainOk = true) ∧ k ∈ [Instr.brownout t holdUs, Instr.pocketDivert t holdUs]) ∧
    (∃ (holdUs : Nat) (e : JEnt) (rest : List JEnt) (s : State) (k : Fin 4), s.pw.kaOk = false ∧ s.pw.mainOk = false ∧ holdUs < 1800 ∧ s.jnl.queue = e :: rest ∧ pocketSlot e.item = some k ∧ 500 ≤ holdUs) ∧
    (∃ (holdUs : Nat) (e : JEnt) (rest : List JEnt) (s : State), s.pw.kaOk = false ∧ s.pw.mainOk = false ∧ holdUs < 1800 ∧ s.jnl.queue = e :: rest ∧ (pocketSlot e.item = none ∨ holdUs < 500)) ∧
    (∃ (s : State), s.baseUp = true ∧ 0 < s.aud.sinceCopy ∧ s.aud.sinceCopy ≤ 511 ∧ s.aud.ring ≠ [] ∧ s.jnlRefuses = false ∧ s.jnlCrit = false ∧ s.isOwner = true) ∧
    (∃ (t : Nat) (complete : Bool) (c : CameoSt) (s : State), max s.now t / 1000000 % 10000 = 0 ∧ 50 ≤ max s.now t / 10000 % 100 ∧ s.baseUp = true ∧ s.bit Reg.JNL_STS 6 = false ∧ s.jnl.snap = some c ∧ (complete = false ∨ s.jnl.spoilt = true ∨ c.frame ≠ max s.now t / 1000000 ∨ s.blk 16 ≠ stRunning)) ∧
    (∃ (t : Nat) (complete : Bool) (c : CameoSt) (s : State) (p : PatDesc), max s.now t / 1000000 % 10000 = 0 ∧ 50 ≤ max s.now t / 10000 % 100 ∧ s.baseUp = true ∧ s.bit Reg.JNL_STS 6 = false ∧ s.jnl.snap = some c ∧ complete = true ∧ s.jnl.spoilt = false ∧ c.frame = max s.now t / 1000000 ∧ s.blk 16 = stRunning ∧ s.runningPat = some p ∧ p.id.toNat = c.pattern ∧ s.actBank.variant = c.variant ∧ s.jnlCrit = false ∧ s.jnlRefuses = false ∧ s.isOwner = true) ∧
    (∃ (t : Nat) (s : State), s.bit Reg.EVR_CTL 0 = true ∧ s.baseUp = true ∧ s.blk 16 = stRunning ∧ 1000000000 ≤ max s.now t ∧ (s.reg Reg.EVR_LAST_1S = 0 ∨ s.reg Reg.EVR_LAST_1S < max s.now t / 1000000000 * 1000000000 - 1000000000)) ∧
    (∃ (t : Nat) (s : State), s.bit Reg.EVR_CTL 0 = true ∧ s.baseUp = true ∧ s.blk 16 = stRunning ∧ 1000000000 ≤ max s.now t ∧ s.reg Reg.EVR_LAST_1S ≠ 0 ∧ max s.now t / 1000000000 * 1000000000 - 1000000000 < s.reg Reg.EVR_LAST_1S + 1) ∧
    (∃ (t : Nat) (s : State), s.bit Reg.EVR_CTL 0 = true ∧ s.baseUp = true ∧ s.blk 16 = stRunning ∧ 1000000000 ≤ max s.now t ∧ s.reg Reg.EVR_LAST_1S ≠ 0 ∧ s.reg Reg.EVR_LAST_1S + 2000000000 ≤ max s.now t / 1000000000 * 1000000000 - 1000000000) ∧
    (∃ (t : Nat) (s : State), s.bit Reg.EVR_CTL 0 = true ∧ s.baseUp = true ∧ 120 ≤ s.reg Reg.EVR_RET_1M ∧ 60000000000 ≤ max s.now t ∧ (∀ (r : EvrRec), r ∈ s.jnl.evr → r.interval = 1 → r.start ≠ max s.now t / 60000000000 * 60000000000 - 60000000000)) ∧
    (∃ (t : Nat) (s : State) (r : EvrRec), s.bit Reg.EVR_CTL 0 = true ∧ s.baseUp = true ∧ 120 ≤ s.reg Reg.EVR_RET_1M ∧ 3600000000000 ≤ max s.now t ∧ r ∈ s.jnl.evr ∧ r.interval = 1 ∧ r.channel < 54 ∧ max s.now t / 3600000000000 * 3600000000000 - 3600000000000 ≤ r.start ∧ r.start < max s.now t / 3600000000000 * 3600000000000 - 3600000000000 + 3600000000000 ∧ (∀ (q : EvrRec), q ∈ s.jnl.evr → q.interval = 2 → q.start ≠ max s.now t / 3600000000000 * 3600000000000 - 3600000000000)) := by
  refine ⟨?_, ?_, ?_, ?_, ?_, ?_, ?_, ?_, ?_, ?_, ?_, ?_⟩
  · refine ⟨{ (up : State) with pw := { (up).pw with kaOk := false, mainOk := false } }, ?_⟩; decide +kernel
  · refine ⟨8000, 900, { (owner : State) with jnl := { (owner).jnl with queue := [⟨⟨8, 4, 5, 0x111, false, false, false, false, [1, 2]⟩, 5, true⟩, ⟨⟨82, 5, 5, 0x111, false, false, false, false, [1, 2]⟩, 5, true⟩, ⟨⟨112, 6, 5, 0x111, false, false, false, false, [1, 2]⟩, 5, true⟩, ⟨⟨48, 7, 5, 0x111, false, false, false, false, [1, 2]⟩, 5, true⟩, ⟨⟨80, 8, 5, 0x111, false, false, false, false, [1, 2]⟩, 5, true⟩] } }, .brownout 8000 900, ?_, ?_⟩
    · decide +kernel
    · simp
  · refine ⟨500, ⟨⟨48, 9, 5, 0x111, false, false, false, false, [0]⟩, 5, true⟩, [⟨⟨1, 1, 5, 0x111, false, false, false, false, [1, 2]⟩, 5, true⟩], { ({ (owner : State) with jnl := { (owner).jnl with queue := [⟨⟨48, 9, 5, 0x111, false, false, false, false, [0]⟩, 5, true⟩, ⟨⟨1, 1, 5, 0x111, false, false, false, false, [1, 2]⟩, 5, true⟩] } } : State) with pw := { ({ (owner : State) with jnl := { (owner).jnl with queue := [⟨⟨48, 9, 5, 0x111, false, false, false, false, [0]⟩, 5, true⟩, ⟨⟨1, 1, 5, 0x111, false, false, false, false, [1, 2]⟩, 5, true⟩] } }).pw with kaOk := false, mainOk := false } }, 0, ?_⟩; decide +kernel
  · refine ⟨499, ⟨⟨48, 9, 5, 0x111, false, false, false, false, [0]⟩, 5, true⟩, [], { ({ (owner : State) with jnl := { (owner).jnl with queue := [⟨⟨48, 9, 5, 0x111, false, false, false, false, [0]⟩, 5, true⟩] } } : State) with pw := { ({ (owner : State) with jnl := { (owner).jnl with queue := [⟨⟨48, 9, 5, 0x111, false, false, false, false, [0]⟩, 5, true⟩] } }).pw with kaOk := false, mainOk := false } }, ?_⟩; decide +kernel
  · refine ⟨{ (owner : State) with aud := { (owner).aud with ring := [(⟨1, 3, 1, 0, 5, 6, 7, true, false, false⟩ : AudRec), (⟨2, 3, 1, 0, 5, 6, 7, true, false, false⟩ : AudRec), (⟨3, 3, 1, 0, 5, 6, 7, true, false, false⟩ : AudRec)], sinceCopy := 2 } }, ?_⟩; decide +kernel
  · refine ⟨20000500000, true, ⟨7, 9, 10000, 0, [64], [1, 2]⟩, { (owner : State) with jnl := { (owner).jnl with snap := some ⟨7, 9, 10000, 0, [64], [1, 2]⟩ } }, ?_⟩; decide +kernel
  · refine ⟨10000500000, true, ⟨7, 9, 10000, 0, [64], [1, 2]⟩, { (owner : State) with jnl := { (owner).jnl with snap := some ⟨7, 9, 10000, 0, [64], [1, 2]⟩ } }, pat0, ?_⟩; decide +kernel
  · refine ⟨9000000005, rs ({ (running : State) with eng := { (running).eng with hst := [(0, ⟨[(3, 4)], 1, 2, 3, 5, some (4, 9), some (5, 10)⟩), (53, ⟨[(9, 1)], 0, 0, 0, 1, none, none⟩), (60, ⟨[(9, 1)], 0, 0, 0, 1, none, none⟩)] } }) [(Reg.EVR_CTL, 1), (Reg.EVR_LAST_1S, 0)], ?_⟩; decide +kernel
  · refine ⟨9000000005, rs ({ (running : State) with eng := { (running).eng with hst := [(0, ⟨[(3, 4)], 1, 2, 3, 5, some (4, 9), some (5, 10)⟩), (53, ⟨[(9, 1)], 0, 0, 0, 1, none, none⟩), (60, ⟨[(9, 1)], 0, 0, 0, 1, none, none⟩)] } }) [(Reg.EVR_CTL, 1), (Reg.EVR_LAST_1S, 8000000000)], ?_⟩; decide +kernel
  · refine ⟨9000000005, rs ({ (running : State) with eng := { (running).eng with hst := [(0, ⟨[(3, 4)], 1, 2, 3, 5, some (4, 9), some (5, 10)⟩), (53, ⟨[(9, 1)], 0, 0, 0, 1, none, none⟩), (60, ⟨[(9, 1)], 0, 0, 0, 1, none, none⟩)] } }) [(Reg.EVR_CTL, 1), (Reg.EVR_LAST_1S, 5000000000)], ?_⟩; decide +kernel
  · refine ⟨130000000000, { (rs (running) [(Reg.EVR_CTL, 1), (Reg.EVR_RET_1M, 120)] : State) with jnl := { (rs (running) [(Reg.EVR_CTL, 1), (Reg.EVR_RET_1M, 120)]).jnl with evr := [⟨0, 3, 60000000000, 5, 1, 2, 0, some (4, 9), none, (1, 2), 0, [(3, 1)]⟩, ⟨0, 3, 61000000000, 5, 1, 2, 0, some (4, 9), none, (1, 2), 0, [(3, 1)]⟩, ⟨0, 4, 119000000000, 5, 1, 2, 0, some (4, 9), none, (1, 2), 0, [(3, 1)]⟩, ⟨0, 4, 120000000000, 5, 1, 2, 0, some (4, 9), none, (1, 2), 0, [(3, 1)]⟩] } }, ?_⟩; decide +kernel
  · refine ⟨3610000000000, { (rs (running) [(Reg.EVR_CTL, 1), (Reg.EVR_RET_1M, 120)] : State) with jnl := { (rs (running) [(Reg.EVR_CTL, 1), (Reg.EVR_RET_1M, 120)]).jnl with evr := [⟨1, 3, 60000000000, 5, 1, 2, 0, some (4, 9), none, (1, 2), 0, [(3, 1)]⟩, ⟨1, 3, 120000000000, 5, 1, 2, 0, some (4, 9), none, (1, 2), 0, [(3, 1)]⟩, ⟨0, 4, 119000000000, 5, 1, 2, 0, some (4, 9), none, (1, 2), 0, [(3, 1)]⟩, ⟨0, 4, 120000000000, 5, 1, 2, 0, some (4, 9), none, (1, 2), 0, [(3, 1)]⟩] } }, ⟨1, 3, 60000000000, 5, 1, 2, 0, some (4, 9), none, (1, 2), 0, [(3, 1)]⟩, ?_⟩; decide +kernel

theorem witness_SuppliesStartsParkAndWake :
    (∃ (hold : Nat) (v : F32) (s : State), s.pw.kaOk = false ∧ withinCv v 930 1400 = true ∧ 10000000 ≤ hold) ∧
    (∃ (hold : Nat) (v : F32) (s : State), s.pw.kaOk = false ∧ withinCv v 930 1400 = true ∧ hold < 10000000) ∧
    (∃ (hold : Nat) (v : F32) (s : State), s.pw.kaOk = true ∧ (f32 (BitVec.toNat v)).lt (Fv.ofNat 9) = true ∧ 20000 ≤ hold) ∧
    (∃ (hold : Nat) (v : F32) (s : State), s.pw.kaOk = true ∧ (f32 (BitVec.toNat v)).lt (Fv.ofNat 9) = true ∧ hold < 20000) ∧
    (∃ (hold : Nat) (v : F32) (s : State), s.pw.mainOk = false ∧ withinCv v 1100 1300 = true ∧ 10000000 ≤ hold) ∧
    (∃ (hold : Nat) (v : F32) (s : State), s.pw.mainOk = true ∧ withinCv v 1080 1320 = false ∧ 20000 ≤ hold) ∧
    (∃ (s : State), s.pw.pwrGood = true ∧ s.pulseUp = true ∧ s.dinActive 2 = false ∧ s.basePowered = true) ∧
    (∃ (v : F32) (s : State), s.pw.mainOk = true ∧ withinCv v 1080 1320 = true ∧ s.dinActive 2 = true) ∧
    (∃ (s : State), s.pw.linUp = true ∧ s.pw.pulse = PulsePhase.off ∧ s.pw.parked = false ∧ s.pw.pdFailed = false) ∧
    (∃ (a : ImgVerdict) (b : ImgVerdict) (s : State) (x : Bool), s.pw.pulse = PulsePhase.powered ∧ ((fun x => s.pulseImgOk x (if x = true then b else a)) s.nug.pulseB = true ∧ x = s.nug.pulseB ∨ (fun x => s.pulseImgOk x (if x = true then b else a)) s.nug.pulseB = false ∧ ((fun x => s.pulseImgOk x (if x = true then b else a)) !s.nug.pulseB) = true ∧ x = !s.nug.pulseB)) ∧
    (∃ (a : ImgVerdict) (b : ImgVerdict) (s : State), s.pw.pulse = PulsePhase.powered ∧ ((fun x => s.pulseImgOk x (if x = true then b else a)) true = false) ∧ ((fun x => s.pulseImgOk x (if x = true then b else a)) false = false)) ∧
    (∃ (t : Nat) (s : State), (s.at t).baseMayStart = true) ∧
    (∃ (t : Nat) (s : State), (s.at t).baseMayStart = false) ∧
    (∃ (s : State), s.clp.role = 1 ∧ s.clp.peerValid = true ∧ s.baseUp = true ∧ s.bit Reg.JNL_STS 0 = true ∧ s.bit Reg.NUG_STS 3 = true ∧ s.lc ≠ LifeCycle.void) ∧
    (∃ (s : State), s.pw.linUp = true) ∧
    (∃ (w : Writer) (s : State), admits s w Reg.LIN_CTL 32 1 = true ∧ s.isOwner = false ∧ s.clp.drive = false) ∧
    (∃ (w : Writer) (s : State), admits s w Reg.LIN_CTL 32 1 = true ∧ (s.isOwner = true ∨ s.clp.drive = true)) ∧
    (∃ (w : Writer) (s : State), admits s w Reg.LIN_CTL 32 2 = true ∧ s.isOwner = false ∧ s.clp.drive = false ∧ s.pulseUp = true) ∧
    (∃ (w : Writer) (s : State), admits s w Reg.LIN_CTL 32 2 = true ∧ (s.isOwner = true ∨ s.clp.drive = true)) ∧
    (∃ (w : Writer) (s : State), admits s w Reg.LIN_CTL 32 4 = true ∧ (s.bit Reg.LIN_WAKE_EN 3 = false ∨ s.basePowered = true)) ∧
    (∃ (w : Writer) (s : State), admits s w Reg.LIN_CTL 32 8 = true ∧ w.path = Path.lining ∧ s.pw.parked = true) ∧
    (∃ (w : Writer) (s : State), admits s w Reg.LIN_CTL 32 8 = true ∧ w.path ≠ Path.lining) ∧
    (∃ (s : State), s.pw.linUp = true ∧ s.pw.parked = true) ∧
    (∃ (s : State), s.pw.linUp = true ∧ s.pw.parked = false ∧ s.bit Reg.LIN_WAKE_EN 4 = true ∧ s.basePowered = false) ∧
    (∃ (s : State), s.pw.linUp = true ∧ s.pw.parked = false ∧ (s.bit Reg.LIN_WAKE_EN 4 = false ∨ s.basePowered = true)) ∧
    (∃ (w : Writer) (s : State), admits s w Reg.LIN_CTL 32 4 = true ∧ s.bit Reg.LIN_WAKE_EN 3 = true ∧ s.basePowered = false) := by
  refine ⟨?_, ?_, ?_, ?_, ?_, ?_, ?_, ?_, ?_, ?_, ?_, ?_, ?_, ?_, ?_, ?_, ?_, ?_, ?_, ?_, ?_, ?_, ?_, ?_, ?_, ?_⟩
  · refine ⟨10000000, 0x41400000, { (power : State) with pw := { (power).pw with kaOk := false } }, ?_⟩; decide +kernel
  · refine ⟨9999999, 0x41400000, { State.reset with pw := { State.reset.pw with kaOk := false, mainOk := false, linUp := false } }, ?_⟩; decide +kernel
  · refine ⟨20000, 0x41000000, standby, ?_⟩; decide +kernel
  · refine ⟨19999, 0x41000000, standby, ?_⟩; decide +kernel
  · refine ⟨10000000, 0x41400000, rs ({ (standby : State) with pw := { (standby).pw with mainOk := false, standby := true, base := .off } }) [(Reg.LIN_WAKE_EN, 0)], ?_⟩; decide +kernel
  · refine ⟨20000, 0x41200000, owner, ?_⟩; decide +kernel
  · refine ⟨owner, ?_⟩; decide +kernel
  · refine ⟨0x41400000, rs (owner) [(Reg.DIN_STS 2, 6)], ?_⟩; decide +kernel
  · refine ⟨{ ({ State.reset with pw := { State.reset.pw with kaOk := false, mainOk := false, linUp := false } } : State) with pw := { ({ State.reset with pw := { State.reset.pw with kaOk := false, mainOk := false, linUp := false } }).pw with kaOk := true, linUp := true } }, ?_⟩; decide +kernel
  · refine ⟨⟨⟨true, true⟩, true⟩, ⟨⟨true, true⟩, true⟩, { ({ ({ ({ State.reset with pw := { State.reset.pw with kaOk := false, mainOk := false, linUp := false } } : State) with pw := { ({ State.reset with pw := { State.reset.pw with kaOk := false, mainOk := false, linUp := false } }).pw with kaOk := true, linUp := true } } : State) with nug := { ({ ({ State.reset with pw := { State.reset.pw with kaOk := false, mainOk := false, linUp := false } } : State) with pw := { ({ State.reset with pw := { State.reset.pw with kaOk := false, mainOk := false, linUp := false } }).pw with kaOk := true, linUp := true } }).nug with imgA := some ⟨3, 4, 5⟩, imgB := some ⟨4, 4, 5⟩ } } : State) with pw := { ({ ({ ({ State.reset with pw := { State.reset.pw with kaOk := false, mainOk := false, linUp := false } } : State) with pw := { ({ State.reset with pw := { State.reset.pw with kaOk := false, mainOk := false, linUp := false } }).pw with kaOk := true, linUp := true } } : State) with nug := { ({ ({ State.reset with pw := { State.reset.pw with kaOk := false, mainOk := false, linUp := false } } : State) with pw := { ({ State.reset with pw := { State.reset.pw with kaOk := false, mainOk := false, linUp := false } }).pw with kaOk := true, linUp := true } }).nug with imgA := some ⟨3, 4, 5⟩, imgB := some ⟨4, 4, 5⟩ } }).pw with pulse := .powered } }, false, ?_⟩; decide +kernel
  · refine ⟨⟨⟨true, false⟩, true⟩, ⟨⟨true, false⟩, true⟩, { ({ ({ ({ State.reset with pw := { State.reset.pw with kaOk := false, mainOk := false, linUp := false } } : State) with pw := { ({ State.reset with pw := { State.reset.pw with kaOk := false, mainOk := false, linUp := false } }).pw with kaOk := true, linUp := true } } : State) with nug := { ({ ({ State.reset with pw := { State.reset.pw with kaOk := false, mainOk := false, linUp := false } } : State) with pw := { ({ State.reset with pw := { State.reset.pw with kaOk := false, mainOk := false, linUp := false } }).pw with kaOk := true, linUp := true } }).nug with imgA := some ⟨3, 4, 5⟩, imgB := some ⟨4, 4, 5⟩ } } : State) with pw := { ({ ({ ({ State.reset with pw := { State.reset.pw with kaOk := false, mainOk := false, linUp := false } } : State) with pw := { ({ State.reset with pw := { State.reset.pw with kaOk := false, mainOk := false, linUp := false } }).pw with kaOk := true, linUp := true } } : State) with nug := { ({ ({ State.reset with pw := { State.reset.pw with kaOk := false, mainOk := false, linUp := false } } : State) with pw := { ({ State.reset with pw := { State.reset.pw with kaOk := false, mainOk := false, linUp := false } }).pw with kaOk := true, linUp := true } }).nug with imgA := some ⟨3, 4, 5⟩, imgB := some ⟨4, 4, 5⟩ } }).pw with pulse := .powered } }, ?_⟩; decide +kernel
  · refine ⟨5000000, { (up : State) with pw := { (up).pw with base := .off } }, ?_⟩; decide +kernel
  · refine ⟨4999999, { (up : State) with pw := { (up).pw with base := .off } }, ?_⟩; decide +kernel
  · refine ⟨rs ({ (standby : State) with clp := { (standby).clp with peerValid := true } }) [(Reg.JNL_STS, 1), (Reg.NUG_STS, 9)], ?_⟩; decide +kernel
  · refine ⟨up, ?_⟩; decide +kernel
  · refine ⟨nug, standby, ?_⟩; decide +kernel
  · refine ⟨nug, owner, ?_⟩; decide +kernel
  · refine ⟨nug, standby, ?_⟩; decide +kernel
  · refine ⟨nug, owner, ?_⟩; decide +kernel
  · refine ⟨nug, standby, ?_⟩; decide +kernel
  · refine ⟨lining, { ({ ({ State.reset with pw := { State.reset.pw with kaOk := false, mainOk := false, linUp := false } } : State) with pw := { ({ State.reset with pw := { State.reset.pw with kaOk := false, mainOk := false, linUp := false } }).pw with kaOk := true, linUp := true } } : State) with pw := { ({ ({ State.reset with pw := { State.reset.pw with kaOk := false, mainOk := false, linUp := false } } : State) with pw := { ({ State.reset with pw := { State.reset.pw with kaOk := false, mainOk := false, linUp := false } }).pw with kaOk := true, linUp := true } }).pw with parked := true } }, ?_⟩; decide +kernel
  · refine ⟨nug, up, ?_⟩; decide +kernel
  · refine ⟨{ ({ ({ State.reset with pw := { State.reset.pw with kaOk := false, mainOk := false, linUp := false } } : State) with pw := { ({ State.reset with pw := { State.reset.pw with kaOk := false, mainOk := false, linUp := false } }).pw with kaOk := true, linUp := true } } : State) with pw := { ({ ({ State.reset with pw := { State.reset.pw with kaOk := false, mainOk := false, linUp := false } } : State) with pw := { ({ State.reset with pw := { State.reset.pw with kaOk := false, mainOk := false, linUp := false } }).pw with kaOk := true, linUp := true } }).pw with parked := true } }, ?_⟩; decide +kernel
  · refine ⟨rs ({ ({ State.reset with pw := { State.reset.pw with kaOk := false, mainOk := false, linUp := false } } : State) with pw := { ({ State.reset with pw := { State.reset.pw with kaOk := false, mainOk := false, linUp := false } }).pw with kaOk := true, linUp := true } }) [(Reg.LIN_WAKE_EN, 16)], ?_⟩; decide +kernel
  · refine ⟨rs (up) [(Reg.LIN_WAKE_EN, 16)], ?_⟩; decide +kernel
  · refine ⟨lining, rs ({ (standby : State) with pw := { (standby).pw with base := .off } }) [(Reg.LIN_WAKE_EN, 8)], ?_⟩; decide +kernel

theorem witness_CoolingResetsAndSeams :
    (∃ (c : TempIn) (s : State), s.pulseUp = true ∧ (!s.dinActive 1 || hotDie c 0 || hotDimm c 0) = true) ∧
    (∃ (c : TempIn) (s : State), s.pulseUp = true ∧ (!s.dinActive 1 || hotDie c 0 || hotDimm c 0) = false) ∧
    (∃ (t : Nat) (a : Nat) (hold : Nat) (c : TempIn) (s : State), s.pw.air = true ∧ s.dinActive 1 = true ∧ sparseFind s.din.since 1 = some a ∧ a + 60000000000 ≤ max s.now t ∧ hotDie c 10 = false ∧ hotDimm c 10 = false ∧ 60000000000 ≤ hold ∧ s.bit Reg.PWR_CTL 0 = false) ∧
    (∃ (t : Nat) (a : Nat) (hold : Nat) (c : TempIn) (s : State), s.pw.air = true ∧ s.dinActive 1 = true ∧ sparseFind s.din.since 1 = some a ∧ a + 60000000000 ≤ max s.now t ∧ hotDie c 10 = false ∧ hotDimm c 10 = false ∧ 60000000000 ≤ hold ∧ s.bit Reg.PWR_CTL 0 = true) ∧
    (∃ (w : Writer) (v : Word) (s : State), admits s w Reg.PWR_CTL 32 (BitVec.toNat v) = true) ∧
    (∃ (d : Fin 4) (s : State), s.pw.stack[d] = StackPower.retention) ∧
    (∃ (d : Fin 4) (s : State), s.pw.stack[d] ≠ StackPower.retention) ∧
    (∃ (d : Fin 4) (s : State), pagePresent s.fx (48 + ↑d) = true ∧ s.basePowered = true ∧ s.stackFailed ↑d = false) ∧
    (∃ (s : State), s.pw.linUp = true) ∧
    (∃ (s : State), s.pw.linUp = true ∧ s.pw.kaOk = false) ∧
    (∃ (s : State), s.pw.linUp = true ∧ s.pw.kaOk = true) ∧
    (∃ (quiet : Nat) (s : State), s.pulseUp = true ∧ 1000000 ≤ quiet) ∧
    (∃ (quiet : Nat) (s : State), s.pulseUp = true ∧ quiet < 1000000) ∧
    (∃ (s : State), s.basePowered = true) ∧
    (∃ (w : Writer) (v : Word) (s : State), admits s w Reg.GLB_RESET 32 (BitVec.toNat v) = true ∧ BitVec.toNat v = 50085) ∧
    (∃ (w : Writer) (v : Word) (s : State), admits s w Reg.GLB_RESET 32 (BitVec.toNat v) = true ∧ BitVec.toNat v ≠ 50085) ∧
    (∃ (s : State), s.pulseUp = true ∧ s.fx.full = false ∧ s.basePowered = true) ∧
    (∃ (s : State), s.pulseUp = true ∧ s.fx.full = true) ∧
    (∃ (s : State), s.pulseUp = true ∧ s.fx.full = true ∧ s.pw.seamHeld = true) := by
  refine ⟨?_, ?_, ?_, ?_, ?_, ?_, ?_, ?_, ?_, ?_, ?_, ?_, ?_, ?_, ?_, ?_, ?_, ?_, ?_⟩
  · refine ⟨⟨[50, 60], 40, 30, [20]⟩, up, ?_⟩; decide +kernel
  · refine ⟨⟨[100], 100, 115, [85]⟩, rs (up) [(Reg.DIN_STS 1, 6)], ?_⟩; decide +kernel
  · refine ⟨60000008000, 8000, 60000000000, ⟨[50, 60], 40, 30, [20]⟩, rs ({ ({ (rs (up) [(Reg.DIN_STS 1, 6)] : State) with pw := { (rs (up) [(Reg.DIN_STS 1, 6)]).pw with air := true, causeFlow := true, stack := #v[.retention, .on, .off, .retention] } } : State) with din := { up.din with since := [(1, 8000)] } }) [(Reg.PWR_CTL, 0)], ?_⟩; decide +kernel
  · refine ⟨60000008000, 8000, 60000000000, ⟨[50, 60], 40, 30, [20]⟩, rs ({ ({ (rs (up) [(Reg.DIN_STS 1, 6)] : State) with pw := { (rs (up) [(Reg.DIN_STS 1, 6)]).pw with air := true, causeFlow := true, stack := #v[.retention, .on, .off, .retention] } } : State) with din := { up.din with since := [(1, 8000)] } }) [(Reg.PWR_CTL, 1)], ?_⟩; decide +kernel
  · refine ⟨nug, 0, rs (up) [(Reg.DIN_STS 1, 6)], ?_⟩; decide +kernel
  · refine ⟨0, { ({ (rs (up) [(Reg.DIN_STS 1, 6)] : State) with pw := { (rs (up) [(Reg.DIN_STS 1, 6)]).pw with air := true, causeFlow := true, stack := #v[.retention, .on, .off, .retention] } } : State) with din := { up.din with since := [(1, 8000)] } }, ?_⟩; decide +kernel
  · refine ⟨1, { ({ (rs (up) [(Reg.DIN_STS 1, 6)] : State) with pw := { (rs (up) [(Reg.DIN_STS 1, 6)]).pw with air := true, causeFlow := true, stack := #v[.retention, .on, .off, .retention] } } : State) with din := { up.din with since := [(1, 8000)] } }, ?_⟩; decide +kernel
  · refine ⟨0, running, ?_⟩; decide +kernel
  · refine ⟨owner, ?_⟩; decide +kernel
  · refine ⟨{ (owner : State) with pw := { (owner).pw with kaOk := false } }, ?_⟩; decide +kernel
  · refine ⟨owner, ?_⟩; decide +kernel
  · refine ⟨1000000, owner, ?_⟩; decide +kernel
  · refine ⟨999999, owner, ?_⟩; decide +kernel
  · refine ⟨owner, ?_⟩; decide +kernel
  · refine ⟨adm, 0xC3A5, up, ?_⟩; decide +kernel
  · refine ⟨adm, 0xC3A4, up, ?_⟩; decide +kernel
  · refine ⟨{ ({ (up : State) with mbx := { (up).mbx with heldMsgs := [(1, 2)] } } : State) with fx := { up.fx with full := false }, eng := { up.eng with refOut := some ([1], true), planOut := [[1]] } }, ?_⟩; decide +kernel
  · refine ⟨{ ({ (up : State) with mbx := { (up).mbx with heldMsgs := [(1, 2)] } } : State) with eng := { up.eng with refOut := some ([1], true), planOut := [[1]] } }, ?_⟩; decide +kernel
  · refine ⟨{ ({ ({ (up : State) with mbx := { (up).mbx with heldMsgs := [(1, 2)] } } : State) with eng := { up.eng with refOut := some ([1], true), planOut := [[1]] } } : State) with pw := { ({ ({ (up : State) with mbx := { (up).mbx with heldMsgs := [(1, 2)] } } : State) with eng := { up.eng with refOut := some ([1], true), planOut := [[1]] } }).pw with seamHeld := true } }, ?_⟩; decide +kernel

theorem witness_InputsAreFilteredAndJudged :
    (∃ (width : Nat) (s : State), s.pulseUp = true ∧ width < 20) ∧
    (∃ (t : Nat) (width : Nat) (n : Fin 88) (s : State), s.pulseUp = true ∧ 20 ≤ width ∧ (s.dinMode ↑n ≠ 0 ∨ s.bit (Reg.DIN_CFG ↑n) 14 = false ∨ ((s.at t).dinEdges ↑n).length + 1 ≤ s.reg Reg.DIN_CHAT_EDGES)) ∧
    (∃ (t : Nat) (width : Nat) (n : Fin 88) (s : State), s.pulseUp = true ∧ 20 ≤ width ∧ s.dinMode ↑n = 0 ∧ s.bit (Reg.DIN_CFG ↑n) 14 = true ∧ s.reg Reg.DIN_CHAT_EDGES < ((s.at t).dinEdges ↑n).length + 1) ∧
    (∃ (t : Nat) (a : Nat) (n : Fin 88) (s : State), sparseFind s.din.since ↑n = some a ∧ s.pulseUp = true ∧ s.dinMode ↑n = 0 ∧ s.fld (Reg.DIN_CFG ↑n) 16 16 ≠ 0 ∧ a + s.fld (Reg.DIN_CFG ↑n) 16 16 * 1000000 < max s.now t) ∧
    (∃ (t : Nat) (a : Nat) (n : Fin 88) (s : State), sparseFind s.din.since ↑n = some a ∧ s.pulseUp = true ∧ s.dinMode ↑n = 0 ∧ (s.fld (Reg.DIN_CFG ↑n) 16 16 = 0 ∨ max s.now t ≤ a + s.fld (Reg.DIN_CFG ↑n) 16 16 * 1000000)) ∧
    (∃ (t : Nat) (w : Writer) (n : Fin 88) (v : Word) (s : State), BitVec.toNat v = ↑n ∧ admits s w Reg.DIN_CLR 32 (BitVec.toNat v) = true ∧ s.dinMode ↑n ≠ 0 ∧ dinClrOk (s.at t) ↑n = true) ∧
    (∃ (t : Nat) (w : Writer) (n : Fin 88) (v : Word) (s : State), BitVec.toNat v = ↑n ∧ admits s w Reg.DIN_CLR 32 (BitVec.toNat v) = true ∧ s.dinMode ↑n ≠ 0 ∧ dinClrOk (s.at t) ↑n = false) ∧
    (∃ (hold : Nat) (n : Fin 88) (level : Bool) (s : State), s.pulseUp = true ∧ ↑n ≠ 0 ∧ 100 * s.fld (Reg.DIN_CFG ↑n) 0 14 ≤ hold ∧ s.bit (Reg.DIN_STS ↑n) 1 ≠ (level == activeHigh ↑n)) ∧
    (∃ (hold : Nat) (n : Fin 88) (s : State), s.pulseUp = true ∧ ↑n ≠ 0 ∧ hold < 100 * s.fld (Reg.DIN_CFG ↑n) 0 14) ∧
    (∃ (t : Nat) (e : Nat) (s : State), s.dinMode 2 = 1 ∧ sparseFind s.din.last 2 = some e ∧ e + 10000000000 ≤ max s.now t) ∧
    (∃ (t : Nat) (e : Nat) (s : State), s.dinMode 2 = 1 ∧ sparseFind s.din.last 2 = some e ∧ max s.now t < e + 10000000000) := by
  refine ⟨?_, ?_, ?_, ?_, ?_, ?_, ?_, ?_, ?_, ?_, ?_⟩
  · refine ⟨19, up, ?_⟩; decide +kernel
  · refine ⟨8000, 20, 0, rs (up) [(Reg.DIN_CFG 0, 0)], ?_⟩; decide +kernel
  · refine ⟨8000, 20, 0, rs ({ (rs (up) [(Reg.DIN_CFG 0, 16384)] : State) with din := { (rs (up) [(Reg.DIN_CFG 0, 16384)]).din with edges := [(0, [7000, 7500])] } }) [(Reg.DIN_CHAT_EDGES, 2)], ?_⟩; decide +kernel
  · refine ⟨3008001, 8000, 0, { (rs (rs (up) [(Reg.DIN_CFG 0, 196608)]) [(Reg.DIN_STS 0, 6)] : State) with din := { (rs (rs (up) [(Reg.DIN_CFG 0, 196608)]) [(Reg.DIN_STS 0, 6)]).din with since := [(0, 8000)] } }, ?_⟩; decide +kernel
  · refine ⟨3008001, 8000, 0, { (rs (rs (up) [(Reg.DIN_CFG 0, 0)]) [(Reg.DIN_STS 0, 6)] : State) with din := { (rs (rs (up) [(Reg.DIN_CFG 0, 0)]) [(Reg.DIN_STS 0, 6)]).din with since := [(0, 8000)] } }, ?_⟩; decide +kernel
  · refine ⟨8000, adm, 0, 0, rs (up) [(Reg.DIN_STS 0, 8)], ?_⟩; decide +kernel
  · refine ⟨8000, adm, 0, 0, rs (up) [(Reg.DIN_STS 0, 22)], ?_⟩; decide +kernel
  · refine ⟨1000, 2, true, rs (rs (up) [(Reg.DIN_CFG 2, 10)]) [(Reg.DIN_STS 2, 0)], ?_⟩; decide +kernel
  · refine ⟨999, 2, rs (up) [(Reg.DIN_CFG 2, 10)], ?_⟩; decide +kernel
  · refine ⟨10000008000, 8000, { (rs (up) [(Reg.DIN_STS 2, 10), (Reg.DIN_CHATTER 0, 4)] : State) with din := { (rs (up) [(Reg.DIN_STS 2, 10), (Reg.DIN_CHATTER 0, 4)]).din with last := [(2, 8000)] } }, ?_⟩; decide +kernel
  · refine ⟨10000007999, 8000, { (rs (up) [(Reg.DIN_STS 2, 10), (Reg.DIN_CHATTER 0, 4)] : State) with din := { (rs (up) [(Reg.DIN_STS 2, 10), (Reg.DIN_CHATTER 0, 4)]).din with last := [(2, 8000)] } }, ?_⟩; decide +kernel

theorem witness_BlocksStartStopAndReset :
    (∃ (t : Nat) (w : Writer) (page : BitVec 12) (v : Word) (s : State) (i : Instr), (admits s w (Reg.BLK_CTL page.toNat) 32 (BitVec.toNat v) = true ∧ bitOf (BitVec.toNat v) 2 = false ∧ bitOf (BitVec.toNat v) 0 = true ∧ s.blk page.toNat = stFault) ∧ i ∈ [Instr.blkCtlEnable t w page v, Instr.blkCtlQuiesce t w page v]) ∧
    (∃ (w : Writer) (page : BitVec 12) (v : Word) (s : State), admits s w (Reg.BLK_CTL page.toNat) 32 (BitVec.toNat v) = true ∧ bitOf (BitVec.toNat v) 2 = false ∧ plainBlock page.toNat ∧ bitOf (BitVec.toNat v) 0 = true ∧ s.blk page.toNat = stOff ∧ s.bit (Reg.BLK_STS page.toNat) 4 = false) ∧
    (∃ (w : Writer) (page : BitVec 12) (v : Word) (s : State), admits s w (Reg.BLK_CTL page.toNat) 32 (BitVec.toNat v) = true ∧ bitOf (BitVec.toNat v) 2 = false ∧ plainBlock page.toNat ∧ bitOf (BitVec.toNat v) 0 = false ∧ s.blk page.toNat = stRunning ∧ s.bit (Reg.BLK_STS page.toNat) 4 = false) ∧
    (∃ (w : Writer) (page : BitVec 12) (v : Word) (s : State), admits s w (Reg.BLK_CTL page.toNat) 32 (BitVec.toNat v) = true ∧ bitOf (BitVec.toNat v) 2 = false ∧ plainBlock page.toNat ∧ bitOf (BitVec.toNat v) 0 = true ∧ s.blk page.toNat = stRunning) ∧
    (∃ (w : Writer) (page : BitVec 12) (v : Word) (s : State), admits s w (Reg.BLK_CTL page.toNat) 32 (BitVec.toNat v ||| 4) = true ∧ plainBlock page.toNat ∧ bitOf (BitVec.toNat v) 0 = true ∧ s.blk page.toNat = stRunning) ∧
    (∃ (w : Writer) (page : BitVec 12) (v : Word) (s : State), admits s w (Reg.BLK_CTL page.toNat) 32 (BitVec.toNat v ||| 4) = true ∧ plainBlock page.toNat ∧ bitOf (BitVec.toNat v) 0 = false ∧ s.blk page.toNat = stFault) ∧
    (∃ (w : Writer) (page : BitVec 12) (v : Word) (s : State), admits s w (Reg.BLK_CTL page.toNat) 32 (BitVec.toNat v) = true ∧ bitOf (BitVec.toNat v) 2 = false ∧ page.toNat = 16 ∧ bitOf (BitVec.toNat v) 0 = true ∧ s.blk page.toNat = stOff ∧ bitOf (BitVec.toNat v) 1 = false) ∧
    (∃ (w : Writer) (page : BitVec 12) (v : Word) (s : State), admits s w (Reg.BLK_CTL page.toNat) 32 (BitVec.toNat v) = true ∧ bitOf (BitVec.toNat v) 2 = false ∧ page.toNat = 16 ∧ bitOf (BitVec.toNat v) 0 = true ∧ s.blk page.toNat = stRunning ∧ bitOf (BitVec.toNat v) 1 = true) ∧
    (∃ (w : Writer) (page : BitVec 12) (v : Word) (s : State), admits s w (Reg.IRQ_SET page.toNat) 32 (BitVec.toNat v) = true) ∧
    (∃ (w : Writer) (page : BitVec 12) (v : Word) (s : State), admits s w (Reg.LOCK page.toNat) 32 (BitVec.toNat v) = true) ∧
    (∃ (w : Writer) (v : Word) (s : State), admits s w Reg.EVT_CTL 32 (BitVec.toNat v) = true ∧ bitOf (BitVec.toNat v) 1 = true) ∧
    (∃ (w : Writer) (v : Word) (s : State), admits s w Reg.AUD_CTL 32 (BitVec.toNat v) = true ∧ bitOf (BitVec.toNat v) 0 = true) ∧
    (∃ (w : Writer) (v : Word) (s : State), admits s w Reg.SEQ_WARM 32 (BitVec.toNat v) = true) ∧
    (∃ (w : Writer) (v : Word) (s : State), admits s w Reg.SEQ_FAILED 32 (BitVec.toNat v) = true) := by
  refine ⟨?_, ?_, ?_, ?_, ?_, ?_, ?_, ?_, ?_, ?_, ?_, ?_, ?_, ?_⟩
  · refine ⟨8000, nug, 64, 1, rs (up) [(Reg.BLK_STS 64, stFault)], .blkCtlEnable 8000 nug 64 1, ?_, ?_⟩
    · decide +kernel
    · simp
  · refine ⟨nug, 64, 1, rs (up) [(Reg.BLK_STS 64, stOff), (Reg.BLK_CTL 64, 0)], ?_⟩; simp only [plainBlock]; decide +kernel
  · refine ⟨nug, 64, 0, rs (up) [(Reg.BLK_STS 64, stRunning), (Reg.BLK_CTL 64, 1)], ?_⟩; simp only [plainBlock]; decide +kernel
  · refine ⟨nug, 64, 1, rs (up) [(Reg.BLK_STS 64, stRunning), (Reg.BLK_CTL 64, 1)], ?_⟩; simp only [plainBlock]; decide +kernel
  · refine ⟨nug, 64, 1, rs (up) [(Reg.BLK_STS 64, stRunning), (Reg.BLK_CTL 64, 1), (Reg.STR_RX_FLITS 0, 9), (Reg.CLP_CRC_ERR, 9), (Reg.MBX_COLLIDE_CNT 3, 7)], ?_⟩; simp only [plainBlock]; decide +kernel
  · refine ⟨nug, 64, 0, rs (up) [(Reg.BLK_STS 64, stFault), (Reg.BLK_CTL 64, 1)], ?_⟩; simp only [plainBlock]; decide +kernel
  · refine ⟨nug, 16, 1, up, ?_⟩; decide +kernel
  · refine ⟨nug, 16, 3, running, ?_⟩; decide +kernel
  · refine ⟨nug, 64, 0, rs (up) [(Reg.IRQ_STS 0x40, 8)], ?_⟩; decide +kernel
  · refine ⟨nug, 64, 0, up, ?_⟩; decide +kernel
  · refine ⟨nug, 2, rs (up) [(Reg.EVT_LOST, 9)], ?_⟩; decide +kernel
  · refine ⟨nug, 1, rs (up) [(Reg.AUD_LOST, 9)], ?_⟩; decide +kernel
  · refine ⟨nug, 4, running, ?_⟩; decide +kernel
  · refine ⟨nug, 0x30005, rs (running) [(Reg.SEQ_FAILED, 0x5000F), (Reg.MAC_STS 0, 1), (Reg.VEC_STS 0, 1)], ?_⟩; decide +kernel

theorem witness_EventsAndTheFrontPanel :
    (∃ (e : EventIn) (s : State), pagePresent s.fx e.page.toNat = true ∧ s.bit Reg.EVT_CTL 0 = true ∧ onPulseDie e.page.toNat = false ∧ s.basePowered = true ∧ (↑e.sev = 2 ∨ s.reg Reg.EVT_COAL_MS = 0)) ∧
    (∃ (e : EventIn) (s : State), pagePresent s.fx e.page.toNat = true ∧ s.bit Reg.EVT_CTL 0 = true ∧ onPulseDie e.page.toNat = true ∧ s.pw.pulse ≠ PulsePhase.off ∧ ↑e.sev = 2) ∧
    (∃ (t : Nat) (e : EventIn) (s : State) (r : EvRec) (l : List EvRec), pagePresent s.fx e.page.toNat = true ∧ s.bit Reg.EVT_CTL 0 = true ∧ onPulseDie e.page.toNat = false ∧ s.basePowered = true ∧ ↑e.sev < 2 ∧ s.evt.pd = [] ∧ s.evt.ring = l ++ [r] ∧ BitVec.toNat r.src = e.page.toNat ∧ r.code = e.code ∧ BitVec.toNat r.sev < 2 ∧ s.reg Reg.EVT_COAL_MS ≠ 0 ∧ max s.now t < BitVec.toNat r.stamp + s.reg Reg.EVT_COAL_MS * 1000000) ∧
    (∃ (s : State), s.baseUp = true) ∧
    (∃ (cls : Nat) (g : Fin 11) (s : State), s.basePowered = true ∧ pagePresent s.fx (cagePage g) = true ∧ cageClass g < cls) ∧
    (∃ (cls : Nat) (g : Fin 11) (s : State), s.basePowered = true ∧ pagePresent s.fx (cagePage g) = true ∧ cls ≤ cageClass g) ∧
    (∃ (t : Nat) (hold : Nat) (s : State), s.isOwner = true ∧ s.pulseUp = true ∧ 10000000 ≤ hold ∧ (s.at t).peerReady = true ∧ s.clp.role = 4 ∧ s.clp.peerContest = false ∧ s.clp.yieldDue = none) ∧
    (∃ (t : Nat) (hold : Nat) (s : State), s.isOwner = true ∧ s.pulseUp = true ∧ 10000000 ≤ hold ∧ (s.at t).peerReady = false) ∧
    (∃ (hold : Nat) (s : State), s.isOwner = true ∧ s.pulseUp = true ∧ hold < 10000000) := by
  refine ⟨?_, ?_, ?_, ?_, ?_, ?_, ?_, ?_, ?_⟩
  · refine ⟨⟨0x40, 2, 9, 1, 2, 3, 4, 5⟩, up, ?_⟩; decide +kernel
  · refine ⟨⟨0x111, 2, 9, 1, 2, 3, 4, 5⟩, up, ?_⟩; decide +kernel
  · refine ⟨8000, ⟨0x40, 1, 9, 1, 2, 3, 4, 5⟩, { (rs (up) [(Reg.EVT_COAL_MS, 10)] : State) with evt := { (rs (up) [(Reg.EVT_COAL_MS, 10)]).evt with ring := [⟨7000, 0x40, 3, 1, 9, 6, 7, 8, 9, 1, 2, false⟩] } }, ⟨7000, 0x40, 3, 1, 9, 6, 7, 8, 9, 1, 2, false⟩, [], ?_⟩; decide +kernel
  · refine ⟨{ (rs (up) [(Reg.EVT_COAL_MS, 10)] : State) with evt := { (rs (up) [(Reg.EVT_COAL_MS, 10)]).evt with ring := [⟨7000, 0x40, 3, 1, 9, 6, 7, 8, 9, 1, 2, false⟩, ⟨7000, 0x40, 3, 0, 9, 6, 7, 8, 9, 1, 2, false⟩, ⟨10000000, 0x40, 3, 1, 9, 6, 7, 8, 9, 1, 2, false⟩, ⟨7000, 0x40, 3, 1, 9, 6, 7, 8, 9, 1, 2, true⟩, ⟨7001, 0x40, 3, 2, 9, 6, 7, 8, 9, 1, 2, false⟩] } }, ?_⟩; decide +kernel
  · refine ⟨121, 0, rs (owner) [(Reg.STR_STS 0, 0x1C), (Reg.STR_STS 13, 0x1C), (Reg.STR_STS 31, 0x1C)], ?_⟩; decide +kernel
  · refine ⟨15, 0, rs (owner) [(Reg.STR_STS 0, 0x1C)], ?_⟩; decide +kernel
  · refine ⟨8000, 10000000, { (power : State) with clp := { (power).clp with peerRole := 2, peerSeen := 7000 } }, ?_⟩; decide +kernel
  · refine ⟨8000, 10000000, power, ?_⟩; decide +kernel
  · refine ⟨9999999, { (power : State) with clp := { (power).clp with peerRole := 2, peerSeen := 7000 } }, ?_⟩; decide +kernel

end Sys2Proof.Tests
end

section
/-!
PROOF. The control-law records (R209): what a write of word 1, the source codes, stores, and a state in which it does not read back as
it was written. The model keeps every register in a cell of 64 bits, and an accepted write replaces the writable bits only (R440): of
a 32-bit register the cell's upper half stays.
-/
namespace Sys2Proof.Machine

/-- A register whose 32 low bits are plainly writable: a write replaces them and keeps the upper half of the cell. -/
theorem storedValue_low32 (r : RegRow) (old v : Nat) (hrw : r.rw = 2 ^ 32 - 1) (hrwl : r.rwl = 0) (hw1c : r.w1c = 0)
    (hold : old < 2 ^ 64) (hv : v < 2 ^ 32) : storedValue r old v = 2 ^ 32 * (old / 2 ^ 32) + v := by
  apply Nat.eq_of_testBit_eq
  intro j
  rw [Nat.testBit_two_pow_mul_add _ hv]
  simp only [storedValue, hrw, hrwl, hw1c, Nat.or_zero, Nat.and_zero, Nat.xor_zero, Nat.testBit_and, Nat.testBit_or,
    Nat.testBit_xor, Nat.testBit_two_pow_sub_one, Nat.testBit_div_two_pow]
  rcases Nat.lt_or_ge j 32 with hj | hj
  · simp [hj, show j < 64 by omega]
  · have hvj : v.testBit j = false := Nat.testBit_lt_two_pow (hv.trans_le (Nat.pow_le_pow_right (by decide) hj))
    rcases Nat.lt_or_ge j 64 with hj' | hj'
    · simp [hvj, hj', Nat.not_lt.mpr hj, Nat.sub_add_cancel hj]
    · have hoj : old.testBit j = false := Nat.testBit_lt_two_pow (hold.trans_le (Nat.pow_le_pow_right (by decide) hj'))
      simp [hvj, hoj, Nat.not_lt.mpr hj, Nat.sub_add_cancel hj]

/-- The table's row of word 1 of a control-law record (R211): 32 plainly writable bits. -/
theorem findRow_cleRec1 (i : Fin 64) : findRow ((Reg.CLE_REC0 i + 4) / 4096) ((Reg.CLE_REC0 i + 4) % 4096) =
    some (rMix 0x404 64 0x10 false 0 0xFFFFFFFF 0 0 0 0 0) := by
  revert i
  decide

/-- The access rules do not look at the time. -/
theorem admits_at (s : State) (t : Nat) (w : Writer) (a width v : Nat) : admits (s.at t) w a width v = admits s w a width v := rfl

/-- A record word's rule looks neither at the time nor at the words held for a writer's path. -/
theorem cleRecOk_at_dropHeld (i k : Nat) (s : State) (t : Nat) (w : Writer) (v : Nat) :
    cleRecOk i k ((s.at t).dropHeld w) v = cleRecOk i k s v := rfl

/-- The judgement of a write moves no record word of the control-law engine. -/
theorem writeReg_cleRec1 (i : Fin 64) : writeReg ((Reg.CLE_REC0 i + 4) / 4096) (Reg.CLE_REC0 i + 4) = false := by
  revert i
  decide

/-- An accepted write of a register without an effect of its own: the register takes its stored value (R440). -/
theorem ownWrite_plain_reg (s : State) (w : Writer) (a v : Nat) (ok : State → Nat → Bool) (hadm : admits s w a 32 v = true)
    (ha : 4 ≤ a % 4096) (hok : ok (s.dropHeld w) v = true) (hfar : writeReg (a / 4096) a = false) :
    ∃ r, findRow (a / 4096) (a % 4096) = some r ∧ (s.ownWrite w a v ok (fun s _ => s)).fx = s.fx ∧
      (s.ownWrite w a v ok (fun s _ => s)).reg a = storedValue r (s.reg a) v % 2 ^ 64 := by
  obtain ⟨r, hrow, hwrite⟩ := ownWrite_admitted s w a v ok (fun s _ => s) hadm ha
  rw [if_pos hok] at hwrite
  refine ⟨r, hrow, by simp [hwrite], ?_⟩
  rw [hwrite, reg_setReg_same, (acceptWrite_only _ w a v false).reg a (by simp [hfar]),
    (dropHeld_only (fun _ => False) s w).reg a id]

/-- An accepted write of record word 1 stores the 32 bits written and keeps the upper half of the word's cell (R209, R440): it reads back
as written exactly where that half is 0. -/
theorem cleRecordWrite_word1 (t : Nat) (w : Writer) (i : Fin 64) (v : Word) (s : State)
    (hadm : admits s w (Reg.CLE_REC0 i + 4) 32 v.toNat = true) (hok : cleRecOk i 1 s v.toNat = true) :
    answers (exec (.cleRecordWrite t w i 1 v) s) fun u =>
      u.cleRec i 1 = 2 ^ 32 * (s.cleRec i 1 / 2 ^ 32) + v.toNat := by
  have hoff : 4 ≤ (Reg.CLE_REC0 i + 4) % 4096 := by simp only [Reg.CLE_REC0]; omega
  obtain ⟨r, hrow, hfx, hreg⟩ := ownWrite_plain_reg (s.at t) w (Reg.CLE_REC0 i + 4) v.toNat (cleRecOk i 1)
    (admits_at s t w _ _ _ ▸ hadm) hoff (cleRecOk_at_dropHeld i 1 s t w _ ▸ hok) (writeReg_cleRec1 i)
  rw [findRow_cleRec1 i, Option.some.injEq] at hrow
  refine ⟨_, rfl, ?_⟩
  have hseal : ∀ a, (State.seal (s.at t) ((s.at t).ownWrite w (Reg.CLE_REC0 i + 4) v.toNat (cleRecOk i 1) (fun s _ => s))).reg a =
      ((s.at t).ownWrite w (Reg.CLE_REC0 i + 4) v.toNat (cleRecOk i 1) (fun s _ => s)).reg a := reg_congr rfl hfx.symm
  have hlt := reg_lt s (Reg.CLE_REC0 i + 4)
  have hv := v.isLt
  calc _ = storedValue r (s.reg (Reg.CLE_REC0 i + 4)) v.toNat % 2 ^ 64 := (hseal _).trans hreg
    _ = (2 ^ 32 * (s.reg (Reg.CLE_REC0 i + 4) / 2 ^ 32) + v.toNat) % 2 ^ 64 := by
      rw [← hrow, storedValue_low32 _ _ _ rfl rfl rfl hlt hv]
    _ = 2 ^ 32 * (s.cleRec i 1 / 2 ^ 32) + v.toNat := Nat.mod_eq_of_lt (by omega)

/-- A running module in which the cell of record 9's word 1 holds a bit above the 32 of its register. The statement
speaks of every state, whether or not commands lead there from reset. -/
def wideRecordState : State := { State.reset with
  pw := { State.reset.pw with base := .up, pulse := .up }
  regs := [(Reg.CLE_REC0 9 + 4, BitVec.ofNat 64 (2 ^ 32))] }

/-- Nugen's firmware as the writer. -/
def nugenWriter : Writer := ⟨.nugen, 0, .admin⟩

/-- The state meets every invariant that the model states of its states. -/
theorem wideRecordState_canonical : wideRecordState.regsWf ∧ wideRecordState.memWf ∧ wideRecordState.ringsWf := by decide

theorem wideRecordState_admits : admits wideRecordState nugenWriter (Reg.CLE_REC0 9 + 4) 32 0 = true := by decide

theorem wideRecordState_cleRecOk : cleRecOk 9 1 wideRecordState 0 = true := by decide

theorem wideRecordState_cleRec : wideRecordState.cleRec 9 1 = 2 ^ 32 := by decide

end Sys2Proof.Machine

open Sys2Proof Sys2Proof.Machine

/-- Refutes O37 in its last clause: it says of every state that word 1 of a record reads back as written, but a state may hold a bit above
the register's 32, and an accepted write of 0 to record 9 keeps it: the word reads 2^32. -/
theorem not_controlLawsSampleAsR208 : ¬ Obligations.ControlLawsSampleAsR208 := by
  unfold Obligations.ControlLawsSampleAsR208
  rintro ⟨_, _, _, _, _, _, _, hrecord⟩
  obtain ⟨u, hu, hword, _⟩ := hrecord 0 nugenWriter 9 1 0 wideRecordState wideRecordState_admits wideRecordState_cleRecOk
  obtain ⟨u', hu', hkept⟩ := cleRecordWrite_word1 0 nugenWriter 9 0 wideRecordState wideRecordState_admits wideRecordState_cleRecOk
  obtain rfl := Host.Outcome.next.inj (hu.symm.trans hu')
  have hzero : u.cleRec 9 1 = 0 := hword rfl
  have hbit : u.cleRec 9 1 = 2 ^ 32 * (wideRecordState.cleRec 9 1 / 2 ^ 32) + 0 := hkept
  rw [hzero, wideRecordState_cleRec] at hbit
  exact absurd hbit (by decide)
end

section
/-!
PROOF. Apportionment (R286 to R291). The shares are floors of `a * ENERGY / b`; what the floors leave of `a` is the sum of the remainders
over `b`, so at most one uJ a record, and the largest remainders take exactly that many. Hence the shares sum to `a` (`sum_shares`), and
`a` leaves UNASSIGNED as it enters the records (`apportioned_total`).
-/
namespace Sys2Proof.Machine

/-! ## Sums over records -/

/-- The ENERGY a record brings to E_ATTR (R288): a bridging record brings none. -/
def HmkRec.ownEnergy (r : HmkRec) : Int := if r.isBridge then 0 else r.energy

/-- The records that are no bridging records. -/
def ownCount (l : List HmkRec) : Nat := l.countP (fun r => !r.isBridge)

/-- The sum of RESIDUAL over a list. -/
def sumResidual (l : List HmkRec) : Int := (l.map HmkRec.residual).sum

theorem sumResidual_eq_foldl (l : List HmkRec) : l.foldl (fun a r => a + r.residual) 0 = sumResidual l := by
  rw [sumResidual, List.sum_eq_foldl, List.foldl_map]

theorem sumEnergy_own (l : List HmkRec) : sumEnergy (l.filter (fun r => !r.isBridge)) = (l.map HmkRec.ownEnergy).sum := by
  have hsum (m : List HmkRec) : sumEnergy m = (m.map HmkRec.energy).sum := by
    rw [sumEnergy, List.sum_eq_foldl, List.foldl_map]
  rw [hsum]
  induction l with
  | nil => rfl
  | cons r l ih => cases h : r.isBridge <;> simp [HmkRec.ownEnergy, h, ih]

theorem sum_map_indicator (p : Nat → Bool) (l : List Nat) :
    (l.map (fun i => if p i then (1 : Int) else 0)).sum = (l.filter p).length := by
  induction l with
  | nil => rfl
  | cons i l ih => cases h : p i <;> simp [h, ih, add_comm]

/-- One uJ more at each index of a list: the sum rises by that list's length. -/
theorem sum_map_add_one_at (l : List Int) (top : List Nat) (hnodup : top.Nodup) (hlt : ∀ i ∈ top, i < l.length) :
    (l.zipIdx.map (fun x => if top.contains x.2 then x.1 + 1 else x.1)).sum = l.sum + top.length := by
  have hsplit : (fun x : Int × Nat => if top.contains x.2 then x.1 + 1 else x.1) =
      fun x => x.1 + if top.contains x.2 then 1 else 0 := by
    funext x
    split <;> simp
  have hperm : ((List.range' 0 l.length).filter (fun i => top.contains i)).Perm top := by
    rw [List.perm_ext_iff_of_nodup ((List.nodup_range' ..).filter _) hnodup]
    intro i
    simpa using hlt i
  calc (l.zipIdx.map (fun x => if top.contains x.2 then x.1 + 1 else x.1)).sum
      = (l.zipIdx.map Prod.fst).sum
          + ((l.zipIdx.map Prod.snd).map (fun i => if top.contains i then (1 : Int) else 0)).sum := by
        rw [hsplit, List.sum_map_add, List.map_map]; rfl
    _ = l.sum + top.length := by
        rw [List.zipIdx_map_fst, List.zipIdx_map_snd, sum_map_indicator (top.contains ·), hperm.length_eq]

/-! ## Floors and remainders (R290) -/

/-- The floors of R290; a bridging record takes none. -/
def floorShares (a b : Int) (l : List HmkRec) : List Int :=
  l.map (fun r => if !r.isBridge then a * r.energy / b else 0)

/-- The remainders of R290 with the leaf index of each. -/
def remainders (a b : Int) (l : List HmkRec) : List (Int × Nat) :=
  (l.zipIdx.filter (fun x => !x.1.isBridge)).map (fun x => (a * x.1.energy % b, x.2))

/-- The leaf indices that take one uJ more: those of the largest remainders (R290). -/
def favoured (a b : Int) (l : List HmkRec) : List Nat :=
  (((remainders a b l).foldl insertRem []).take (a - (floorShares a b l).sum).toNat).map (·.2)

theorem shares_eq (a b : Int) (l : List HmkRec) : shares a b l =
    (floorShares a b l).zipIdx.map (fun x => if (favoured a b l).contains x.2 then x.1 + 1 else x.1) := by
  rw [favoured, List.sum_eq_foldl]
  rfl

theorem floorShares_eq (a b : Int) (l : List HmkRec) : floorShares a b l = l.map (fun r => a * r.ownEnergy / b) := by
  refine List.map_congr_left fun r _ => ?_
  cases h : r.isBridge <;> simp [HmkRec.ownEnergy, h]

@[simp] theorem floorShares_length (a b : Int) (l : List HmkRec) : (floorShares a b l).length = l.length := List.length_map _

@[simp] theorem shares_length (a b : Int) (l : List HmkRec) : (shares a b l).length = l.length := by
  simp [shares_eq]

/-- Ranking by remainder only rearranges. -/
theorem insertRem_perm (l : List (Int × Nat)) (x : Int × Nat) : (insertRem l x).Perm (x :: l) := by
  induction l with
  | nil => rfl
  | cons y l ih =>
    rw [insertRem]
    split
    · rfl
    · exact (ih.cons y).trans (.swap ..)

theorem foldl_insertRem_perm (l ranked : List (Int × Nat)) : (l.foldl insertRem ranked).Perm (l ++ ranked) := by
  induction l generalizing ranked with
  | nil => rfl
  | cons x l ih => exact ((ih _).trans ((insertRem_perm ranked x).append_left l)).trans List.perm_middle

theorem ranked_perm (a b : Int) (l : List HmkRec) : ((remainders a b l).foldl insertRem []).Perm (remainders a b l) := by
  simpa using foldl_insertRem_perm (remainders a b l) []

theorem remainders_indices (a b : Int) (l : List HmkRec) :
    (remainders a b l).map (·.2) = (l.zipIdx.filter (fun x => !x.1.isBridge)).map (·.2) := by
  simp [remainders, Function.comp_def]

theorem remainders_length (a b : Int) (l : List HmkRec) : (remainders a b l).length = ownCount l := by
  rw [remainders, List.length_map, ← List.countP_eq_length_filter, ownCount]
  conv_rhs => rw [← List.zipIdx_map_fst 0 l, List.countP_map]
  rfl

theorem favoured_nodup (a b : Int) (l : List HmkRec) : (favoured a b l).Nodup := by
  have hindices : ((remainders a b l).map (·.2)).Nodup := by
    rw [remainders_indices]
    refine List.Nodup.sublist (List.filter_sublist.map _) ?_
    rw [List.zipIdx_map_snd]
    exact List.nodup_range' ..
  exact (((ranked_perm a b l).map _).nodup_iff.mpr hindices).sublist ((List.take_sublist ..).map _)

theorem favoured_own (a b : Int) (l : List HmkRec) (i : Nat) (h : i ∈ favoured a b l) :
    ∃ r, l[i]? = some r ∧ r.isBridge = false := by
  have hmem : i ∈ (remainders a b l).map (·.2) :=
    ((ranked_perm a b l).map _).mem_iff.mp (((List.take_sublist ..).map _).subset h)
  rw [remainders_indices] at hmem
  obtain ⟨⟨r, j⟩, hr, rfl⟩ := List.mem_map.mp hmem
  obtain ⟨hr, hown⟩ := List.mem_filter.mp hr
  exact ⟨r, List.mem_zipIdx_iff_getElem?.mp hr, by simpa using hown⟩

theorem favoured_lt (a b : Int) (l : List HmkRec) (i : Nat) (h : i ∈ favoured a b l) : i < l.length := by
  obtain ⟨r, hr, _⟩ := favoured_own a b l i h
  exact (List.getElem?_eq_some_iff.mp hr).1

/-- Floors and remainders together are the whole: division with remainder, summed. -/
theorem sum_floors_add_sum_remainders (a b : Int) (l : List HmkRec) :
    b * (floorShares a b l).sum + (l.map (fun r => a * r.ownEnergy % b)).sum = a * (l.map HmkRec.ownEnergy).sum := by
  rw [floorShares_eq, ← List.sum_map_mul_left, ← List.sum_map_mul_left, ← List.sum_map_add]
  simp only [Int.mul_ediv_add_emod]

theorem sum_remainders_bounds (a b : Int) (l : List HmkRec) (hb : 0 < b) :
    0 ≤ (l.map (fun r => a * r.ownEnergy % b)).sum ∧ (l.map (fun r => a * r.ownEnergy % b)).sum ≤ b * ownCount l := by
  induction l with
  | nil => simp [ownCount]
  | cons r l ih =>
    have hlow := Int.emod_nonneg (a * r.ownEnergy) hb.ne'
    have hhigh := Int.emod_lt_of_pos (a * r.ownEnergy) hb
    simp only [ownCount, List.map_cons, List.sum_cons] at ih ⊢
    cases h : r.isBridge
    · rw [List.countP_cons_of_pos (by simp [h])]
      push_cast
      constructor <;> linarith
    · rw [List.countP_cons_of_neg (by simp [h])]
      simpa [HmkRec.ownEnergy, h] using ih

/-- What the floors leave of the amount is at least 0 and at most one uJ a record. -/
theorem missing_bounds (a b : Int) (l : List HmkRec) (hb : 0 < b) (hsum : b = (l.map HmkRec.ownEnergy).sum) :
    0 ≤ a - (floorShares a b l).sum ∧ a - (floorShares a b l).sum ≤ ownCount l := by
  obtain ⟨hlow, hhigh⟩ := sum_remainders_bounds a b l hb
  have hmissing : b * (a - (floorShares a b l).sum) = (l.map (fun r => a * r.ownEnergy % b)).sum := by
    have hwhole := sum_floors_add_sum_remainders a b l
    rw [← hsum] at hwhole
    linarith
  rw [← hmissing] at hlow hhigh
  exact ⟨nonneg_of_mul_nonneg_right hlow hb, le_of_mul_le_mul_left hhigh hb⟩

theorem favoured_length (a b : Int) (l : List HmkRec) (hb : 0 < b) (hsum : b = (l.map HmkRec.ownEnergy).sum) :
    ((favoured a b l).length : Int) = a - (floorShares a b l).sum := by
  have hmissing := missing_bounds a b l hb hsum
  rw [favoured, List.length_map, List.length_take, (ranked_perm a b l).length_eq, remainders_length]
  omega

/-- The shares sum to the amount exactly (R290). -/
theorem sum_shares (a b : Int) (l : List HmkRec) (hb : 0 < b) (hsum : b = (l.map HmkRec.ownEnergy).sum) :
    (shares a b l).sum = a := by
  rw [shares_eq, sum_map_add_one_at _ _ (favoured_nodup a b l) (by simpa using favoured_lt a b l),
    favoured_length a b l hb hsum]
  ring

/-- A bridging record takes no share (R290). -/
theorem shares_bridge (a b : Int) (l : List HmkRec) (i : Nat) (r : HmkRec) (hr : l[i]? = some r) (hbridge : r.isBridge = true) :
    (shares a b l)[i]? = some 0 := by
  have hnot : i ∉ favoured a b l := fun h => by
    obtain ⟨q, hq, hown⟩ := favoured_own a b l i h
    obtain rfl := Option.some.inj (hr.symm.trans hq)
    exact absurd (hbridge.symm.trans hown) (by decide)
  simp [shares_eq, floorShares, hr, hbridge, hnot]

/-! ## The records with their shares (R290, R291) -/

/-- A record with the share of its leaf index; a bridging record stays as it is. -/
def withShare (r : Recon) (sh : List Int) (x : HmkRec × Nat) : HmkRec :=
  if x.1.isBridge then x.1 else { x.1 with
    residual := sh.getD x.2 0, resUnc := cdiv (r.uRes * x.1.energy.natAbs) r.eAttr.toNat }

/-- Either nothing is apportioned and R_LOSS + R_IDLE is UNASSIGNED whole (R289, R290), or an amount is shared out and UNASSIGNED is
the rest. -/
theorem apportioned_cases (policy : Nat) (free : Int) (r : Recon) (l : List HmkRec) :
    apportioned policy free r l = (l, r.rLoss + r.rIdle) ∨
    0 < r.eAttr ∧ ∃ a, apportioned policy free r l =
      (l.zipIdx.map (withShare r (shares a r.eAttr l)), r.rLoss + r.rIdle - a) := by
  rw [apportioned]
  split
  · exact .inl rfl
  · next h => exact .inr ⟨by omega, _, rfl⟩

@[simp] theorem withShare_ownEnergy (r : Recon) (sh : List Int) (x : HmkRec × Nat) :
    (withShare r sh x).ownEnergy = x.1.ownEnergy := by
  rw [withShare]
  split <;> rfl

/-- Apportionment moves no ENERGY and adds no record. -/
theorem apportioned_ownEnergy (policy : Nat) (free : Int) (r : Recon) (l : List HmkRec) :
    (apportioned policy free r l).1.map HmkRec.ownEnergy = l.map HmkRec.ownEnergy := by
  obtain h | ⟨_, a, h⟩ := apportioned_cases policy free r l
  · rw [h]
  · rw [h, List.map_map]
    conv_rhs => rw [← List.zipIdx_map_fst 0 l, List.map_map]
    exact List.map_congr_left fun x _ => withShare_ownEnergy ..

theorem apportioned_length (policy : Nat) (free : Int) (r : Recon) (l : List HmkRec) :
    (apportioned policy free r l).1.length = l.length := by
  simpa using congrArg List.length (apportioned_ownEnergy policy free r l)

/-- Where no record had a residual before, the residuals are the shares. -/
theorem withShare_residuals (r : Recon) (a b : Int) (l : List HmkRec) (hzero : ∀ q ∈ l, q.residual = 0) :
    (l.zipIdx.map (withShare r (shares a b l))).map HmkRec.residual = shares a b l := by
  refine List.ext_getElem (by simp) fun i hi hshare => ?_
  have hlt : i < l.length := by simpa using hi
  simp only [List.getElem_map, List.getElem_zipIdx, Nat.zero_add, withShare]
  split
  · next hbridge =>
    have hnone := shares_bridge a b l i _ (List.getElem?_eq_getElem hlt) hbridge
    rw [List.getElem?_eq_getElem hshare, Option.some.injEq] at hnone
    rw [hnone]
    exact hzero _ (List.getElem_mem hlt)
  · simp [List.getD_eq_getElem?_getD, hlt]

/-- R291: RESIDUAL over all records and UNASSIGNED sum to R_LOSS + R_IDLE. -/
theorem apportioned_total (policy : Nat) (free : Int) (r : Recon) (l : List HmkRec)
    (hattr : r.eAttr = (l.map HmkRec.ownEnergy).sum) (hzero : ∀ q ∈ l, q.residual = 0) :
    sumResidual (apportioned policy free r l).1 + (apportioned policy free r l).2 = r.rLoss + r.rIdle := by
  obtain h | ⟨hpos, a, h⟩ := apportioned_cases policy free r l
  · have hnone : sumResidual l = 0 := List.sum_eq_zero (by simpa using hzero)
    rw [h, hnone, zero_add]
  · rw [h, sumResidual, withShare_residuals r a _ l hzero, sum_shares a _ l hpos hattr]
    ring

/-! ## The records of an epoch (R286, R287) -/

theorem bridge_residual (s : State) (e : EpochSt) (n : Fin 128) (q : HmkRec) (h : s.bridge e n = some q) : q.residual = 0 := by
  rw [State.bridge] at h
  split at h
  · cases h
    rfl
  · cases h

theorem overflowRec_residual (e : EpochSt) (l : List HmkRec) : (overflowRec e l).residual = 0 :=
  List.foldlRecOn (motive := fun q : HmkRec => q.residual = 0) l _ rfl fun _ h _ _ => h

/-- The bridging records of an epoch: those of a takeover (R299). -/
def bridgesOf (s : State) (e : EpochSt) : List HmkRec :=
  if bitOf e.flags 2 then (List.finRange 128).filterMap (s.bridge e) else []

/-- The records of an epoch's requests. -/
def requestsOf (s : State) (e : EpochSt) : List HmkRec :=
  e.reqs.map (fun a => recOf e ((sparseFind s.hmk.rseq a.req).getD 0) a)

theorem recordsOf_eq (s : State) (e : EpochSt) : s.recordsOf e =
    if (bridgesOf s e).length + (requestsOf s e).length ≤ recMax then bridgesOf s e ++ requestsOf s e
    else bridgesOf s e ++ (requestsOf s e).take (recMax - 1 - (bridgesOf s e).length) ++
      [overflowRec e ((requestsOf s e).drop (recMax - 1 - (bridgesOf s e).length))] := rfl

theorem bridgesOf_length (s : State) (e : EpochSt) : (bridgesOf s e).length ≤ 128 := by
  rw [bridgesOf]
  split
  · simpa using List.length_filterMap_le (s.bridge e) (List.finRange 128)
  · simp

/-- R287. -/
theorem recordsOf_length (s : State) (e : EpochSt) : (s.recordsOf e).length ≤ recMax := by
  have hbridges := bridgesOf_length s e
  rw [recordsOf_eq]
  split
  · simpa using ‹_›
  · simp only [List.length_append, List.length_take, List.length_singleton, recMax]
    omega

theorem bridgesOf_residual (s : State) (e : EpochSt) (q : HmkRec) (h : q ∈ bridgesOf s e) : q.residual = 0 := by
  rw [bridgesOf] at h
  split at h
  · obtain ⟨n, _, hn⟩ := List.mem_filterMap.mp h
    exact bridge_residual s e n q hn
  · cases h

theorem requestsOf_residual (s : State) (e : EpochSt) (q : HmkRec) (h : q ∈ requestsOf s e) : q.residual = 0 := by
  obtain ⟨a, _, rfl⟩ := List.mem_map.mp h
  rfl

/-- As formed, a record has no residual yet. -/
theorem recordsOf_residual (s : State) (e : EpochSt) (q : HmkRec) (h : q ∈ s.recordsOf e) : q.residual = 0 := by
  rw [recordsOf_eq] at h
  split at h
  · obtain h | h := List.mem_append.mp h
    · exact bridgesOf_residual s e q h
    · exact requestsOf_residual s e q h
  · simp only [List.mem_append, List.mem_singleton] at h
    obtain (h | h) | rfl := h
    · exact bridgesOf_residual s e q h
    · exact requestsOf_residual s e q (List.mem_of_mem_take h)
    · exact overflowRec_residual ..

/-! ## EPOCH_RECONCILE (R288 to R291) -/

theorem updFirst_head (p : EpochSt → Bool) (f : EpochSt → EpochSt) (e : EpochSt) (rest : List EpochSt) (h : p e = true) :
    updFirst p f (e :: rest) = f e :: rest := if_pos h

/-- The figures of R288 for an epoch. -/
def reconFor (s : State) (e : EpochSt) : Recon := s.reconOf e (s.recordsOf e)

/-- The records of an epoch with their shares, and its UNASSIGNED (R290). -/
def recordsFor (s : State) (e : EpochSt) : List HmkRec × Int :=
  apportioned e.policy (Config.freeValue s.free 0 : Nat) (reconFor s e) (s.recordsOf e)

theorem reconFor_eAttr (s : State) (e : EpochSt) : (reconFor s e).eAttr = ((s.recordsOf e).map HmkRec.ownEnergy).sum :=
  sumEnergy_own _

/-- The epoch as reconciliation leaves it. -/
def reconciledEpoch (s : State) (e : EpochSt) : EpochSt :=
  { e with
    recs := (recordsFor s e).1, unassigned := (recordsFor s e).2, eBus := (reconFor s e).eBus, uBus := (reconFor s e).uBus,
    eEp := (reconFor s e).eEp, uEp := (reconFor s e).uEp, eAttr := (reconFor s e).eAttr, stage := .reconciled,
    flags := e.flags ||| b2n (reconFor s e).fails ||| (if (s.recordsOf e).any (fun q => bitOf q.flags 7) then 32 else 0) }

/-- EPOCH_RECONCILE takes the oldest epoch that has been read, here the first, and leaves the others as they are. -/
theorem epochReconcile_epochs (t : Nat) (e : EpochSt) (rest : List EpochSt) (s : State) (hepochs : s.hmk.epochs = e :: rest)
    (hread : e.stage = .read) :
    ∃ u, exec (.epochReconcile t) s = .next u ∧ u.hmk.epochs = reconciledEpoch s e :: rest := by
  have hp : (e.stage == EpochStage.read) = true := by simp [hread]
  have hfind : (s.at t).hmk.epochs.find? (fun e => e.stage == .read) = some e := by
    rw [at_hmk, hepochs]
    exact List.find?_cons_of_pos hp
  refine ⟨_, rfl, ?_⟩
  rw [seal_hmk]
  dsimp only
  rw [hfind]
  dsimp only
  -- An epoch that fails is counted and posted besides (R289): neither moves an epoch.
  split <;>
    (simp only [post_hmk, setBit_hmk, inc_hmk, setReg_hmk, State.updEpoch, at_hmk, hepochs]
     exact updFirst_head _ _ e rest hp)

theorem reconciledEpoch_recs_length (s : State) (e : EpochSt) : (reconciledEpoch s e).recs.length ≤ recMax :=
  (apportioned_length ..).trans_le (recordsOf_length s e)

theorem reconciledEpoch_eAttr (s : State) (e : EpochSt) : (reconciledEpoch s e).eAttr =
    sumEnergy ((reconciledEpoch s e).recs.filter (fun r => !r.isBridge)) := by
  rw [sumEnergy_own]
  exact (reconFor_eAttr s e).trans (congrArg List.sum (apportioned_ownEnergy ..).symm)

theorem reconciledEpoch_total (s : State) (e : EpochSt) :
    sumResidual (reconciledEpoch s e).recs + (reconciledEpoch s e).unassigned =
      ((reconciledEpoch s e).eBus - (reconciledEpoch s e).eEp) +
      ((reconciledEpoch s e).eEp - (reconciledEpoch s e).eAttr) :=
  apportioned_total _ _ _ _ (reconFor_eAttr s e) (recordsOf_residual s e)

end Sys2Proof.Machine

open Sys2Proof Sys2Proof.Machine

/-- Settles O44: the largest remainders take exactly the uJ that the floors leave, so what the records gain is what UNASSIGNED lacks. -/
theorem everyEpochIsApportionedExactly : Obligations.EveryEpochIsApportionedExactly := by
  unfold Obligations.EveryEpochIsApportionedExactly
  intro t e rest s hepochs hread
  obtain ⟨u, hexec, hu⟩ := epochReconcile_epochs t e rest s hepochs hread
  refine ⟨u, hexec, reconciledEpoch s e, hu, rfl, reconciledEpoch_recs_length s e,
    reconciledEpoch_eAttr s e, ?_⟩
  rw [sumResidual_eq_foldl]
  exact reconciledEpoch_total s e
end
